-- ==== Sys2Proof/Word.lean ====
section
/-! DEFINITION. The word types of the Ulivy architecture (spec/00_scope.md R16, spec/01_grain_state.md R19-R28). -/

namespace Sys2Proof

/-- A byte of memory. -/
abbrev Byte := BitVec 8

/-- A 64-bit general register, the predicate word, a fat pointer or a global address. -/
abbrev Word := BitVec 64

/-- A 16-bit word of the instruction stream (R72). -/
abbrev Half := BitVec 16

/-- One 128-bit v register (R26). -/
abbrev VWord := BitVec 128

/-- A 4-bit register field (R20). -/
abbrev Reg := BitVec 4

/-- A ten-bit XIMM chunk (R74). -/
abbrev Chunk := BitVec 10

end Sys2Proof
end

