-- ==== Sys2Proof/Syntax.lean ====
section
/-! DEFINITION. The abstract syntax: operand records (spec/03_encoding_and_assembly.md R74-R97) and the one inductive `Instr`
with a constructor for every row of spec/opcode_table.json. Rows with an encoding carry the fields of their encoding;
event rows carry the operands with which the event happens. -/

namespace Sys2Proof

/-! ### Fields shared by many encodings -/

/-- XPRED (R77): the guard predicate and the sense; with `neg` the instruction executes when the predicate is 0. -/
structure Guard where
  idx : BitVec 5
  neg : Bool
  deriving DecidableEq, Repr

/-- Scope codes 0 to 4 (R87). -/
inductive Scope where
  | core | cluster | die | package | system
  deriving DecidableEq, Repr

/-- Element types 0x0 to 0xB (R24). -/
inductive EType where
  | n8 | i8 | n16 | i16 | n32 | i32 | n64 | i64 | f16 | bf16 | f32 | f64
  deriving DecidableEq, Repr

/-- XREG (R78): the bank codes of d, s and t and the high-half bit. -/
structure XReg where
  d : BitVec 3
  s : BitVec 3
  t : BitVec 3
  hi : Bool
  deriving DecidableEq, Repr

/-- An immediate in the parts R76 joins: XIMM chunks in order of appearance, then the base word's own field. -/
structure Imm (b : Nat) where
  chunks : List Chunk
  base : BitVec b
  deriving DecidableEq, Repr

/-- The bits of R76 as a natural number: chunk_1 first, the base field last. -/
def Imm.nat {b : Nat} (i : Imm b) : Nat :=
  (i.chunks.foldl (fun acc c => acc * 1024 + c.toNat) 0) * 2 ^ b + i.base.toNat

/-- Sign extension of the low `w` bits of `n` (R76). -/
def signExtend (n w : Nat) : Int :=
  if w = 0 then 0 else if n.testBit (w - 1) then (n : Int) - (2 ^ w : Nat) else n

/-- The value of R76. Without chunks the base field is zero-extended in I4 and I8, sign-extended in branch offsets. -/
def Imm.val {b : Nat} (signedBase : Bool) (i : Imm b) : Int :=
  if i.chunks.isEmpty && !signedBase then (i.nat : Int) else signExtend i.nat (10 * i.chunks.length + b)

/-- The signed offset in elements of formats M and S (R76): no chunk gives 0. -/
def offsetVal (cs : List Chunk) : Int := (Imm.mk cs (0#0)).val true

/-- The two-address, XPAGE-carrying two-address and three-address shapes of INT (R83). -/
inductive AluForm where
  | bare
  | two
  | three (t : Reg)
  deriving DecidableEq, Repr

/-- Ordering bits of an atomic, extra[5:4] (R93). -/
structure AOrder where
  release : Bool
  acquire : Bool
  deriving DecidableEq, Repr

/-- Fence kinds (R159). -/
inductive FenceKind where
  | all | loads | stores
  deriving DecidableEq, Repr

/-- VCMP conditions (R184). -/
inductive VCond where
  | eq | ne | lt | ge
  deriving DecidableEq, Repr

/-- Page-size codes of R97. -/
inductive PageSize where
  | p4k | p64k | p2m | p64m | p512m
  deriving DecidableEq, Repr

/-! ### Operand records, one per encoding shape. `xp` says that an XPAGE is written where it may also be left out. -/

/-- Binary INT (R83, R106). -/
structure AluArgs where
  gd : Option Guard
  form : AluForm
  d : Reg
  s : Reg
  deriving DecidableEq, Repr

/-- MOV with its optional XREG (R78). -/
structure MovArgs where
  gd : Option Guard
  xr : Option XReg
  xp : Bool
  d : Reg
  s : Reg
  deriving DecidableEq, Repr

/-- Unary INT of page 1 (R83). -/
structure UnaryArgs where
  gd : Option Guard
  d : Reg
  s : Reg
  deriving DecidableEq, Repr

/-- SEXT and ZEXT: width code 0, 1 or 2 (R83). -/
structure ExtArgs where
  gd : Option Guard
  w : BitVec 2
  d : Reg
  s : Reg
  deriving DecidableEq, Repr

/-- INTI with an immediate (R84). -/
structure ImmArgs where
  gd : Option Guard
  d : Reg
  imm : Imm 4
  deriving DecidableEq, Repr

/-- BFX and BFI: `width` holds width - 1 (R84). -/
structure FieldArgs where
  gd : Option Guard
  d : Reg
  s : Reg
  width : BitVec 6
  pos : BitVec 6
  deriving DecidableEq, Repr

/-- PCLR (R84). -/
structure RegArgs where
  gd : Option Guard
  d : Reg
  deriving DecidableEq, Repr

/-- LI page 0 (R85). -/
structure LiArgs where
  gd : Option Guard
  xp : Bool
  d : Reg
  imm : Imm 8
  deriving DecidableEq, Repr

/-- LI with a lane insert: page lane + 1 (R85). -/
structure LaneArgs where
  gd : Option Guard
  lane : BitVec 2
  d : Reg
  imm : Imm 8
  deriving DecidableEq, Repr

/-- CMP register forms; `pd` is absent when XPAGE is (R86). -/
structure CmpArgs where
  gd : Option Guard
  pd : Option (BitVec 5)
  d : Reg
  s : Reg
  deriving DecidableEq, Repr

/-- CMP immediate forms (R86). -/
structure CmpImmArgs where
  gd : Option Guard
  pd : Option (BitVec 5)
  d : Reg
  imm : Imm 4
  deriving DecidableEq, Repr

/-- PLOG (R86). -/
structure PlogArgs where
  gd : Option Guard
  pd : Option (BitVec 5)
  tt : BitVec 4
  pa : BitVec 5
  pb : BitVec 5
  deriving DecidableEq, Repr

/-- PXFER: modes 0 to 3 (R86). -/
structure PxferArgs where
  gd : Option Guard
  xp : Bool
  g : Reg
  mode : BitVec 2
  deriving DecidableEq, Repr

/-- Format M with d, pointer, lookahead count and offset (R81, R87). -/
structure MemArgs where
  gd : Option Guard
  xp : Bool
  d : Reg
  a : Reg
  la : BitVec 4
  off : List Chunk
  deriving DecidableEq, Repr

/-- Format M with a scope in extra (R87, R94). -/
structure ScopedArgs where
  gd : Option Guard
  xp : Bool
  d : Reg
  a : Reg
  la : BitVec 4
  off : List Chunk
  sc : Scope
  deriving DecidableEq, Repr

/-- Format M with a pointer only: PREF, MIGR. -/
structure AddrArgs where
  gd : Option Guard
  a : Reg
  off : List Chunk
  deriving DecidableEq, Repr

/-- LDREC (R136). -/
structure RecArgs where
  gd : Option Guard
  e : BitVec 3
  a : Reg
  la : BitVec 4
  off : List Chunk
  deriving DecidableEq, Repr

/-- Format S (R88). -/
structure StoreArgs where
  gd : Option Guard
  xp : Bool
  s : Reg
  a : Reg
  off : List Chunk
  deriving DecidableEq, Repr

/-- STREL (R88). -/
structure StrelArgs where
  gd : Option Guard
  xp : Bool
  s : Reg
  a : Reg
  off : List Chunk
  sc : Scope
  deriving DecidableEq, Repr

/-- Atomics (R93). -/
structure AtomArgs where
  gd : Option Guard
  xp : Bool
  d : Reg
  a : Reg
  la : BitVec 4
  off : List Chunk
  ord : AOrder
  deriving DecidableEq, Repr

/-- RUPD: `op` is the RMT variant 0 to 12 (R93). -/
structure RupdArgs where
  gd : Option Guard
  op : BitVec 4
  rel : Bool
  d : Reg
  a : Reg
  la : BitVec 4
  off : List Chunk
  deriving DecidableEq, Repr

/-- WATCH (R94). -/
structure WatchArgs where
  gd : Option Guard
  d : Reg
  a : Reg
  la : BitVec 4
  off : List Chunk
  w : BitVec 2
  deriving DecidableEq, Repr

/-- WAITW (R94). -/
structure WaitwArgs where
  gd : Option Guard
  d : Reg
  la : BitVec 4
  mask : BitVec 4
  deriving DecidableEq, Repr

/-- BARW (R94). -/
structure BarwArgs where
  gd : Option Guard
  sc : Scope
  deriving DecidableEq, Repr

/-- FENCE (R94). -/
structure FenceArgs where
  gd : Option Guard
  kind : FenceKind
  sc : Scope
  deriving DecidableEq, Repr

/-- SEND and RECVS (R94). -/
structure ChanPairArgs where
  gd : Option Guard
  d : Reg
  a : Reg
  la : BitVec 4
  ch : BitVec 3
  deriving DecidableEq, Repr

/-- RECV, RECVN and CHSTAT (R94). -/
structure ChanArgs where
  gd : Option Guard
  d : Reg
  la : BitVec 4
  ch : BitVec 3
  deriving DecidableEq, Repr

/-- CLEAN (R94). -/
structure CleanArgs where
  gd : Option Guard
  a : Reg
  la : BitVec 4
  off : List Chunk
  sc : Scope
  deriving DecidableEq, Repr

/-- An instruction with no operand: SHFENCE. -/
structure GuardArgs where
  gd : Option Guard
  deriving DecidableEq, Repr

/-- XPULL and XFILL (R94). -/
structure BlockArgs where
  gd : Option Guard
  a : Reg
  la : BitVec 4
  off : List Chunk
  deriving DecidableEq, Repr

/-- Binary VOP; `ty` absent when XPAGE is (R89). -/
structure VopArgs where
  gd : Option Guard
  xr : Option XReg
  ty : Option EType
  d : Reg
  s : Reg
  t : Option Reg
  sat : Bool
  deriving DecidableEq, Repr

/-- Unary VOP (R89). -/
structure VunArgs where
  gd : Option Guard
  xr : Option XReg
  ty : Option EType
  d : Reg
  s : Reg
  deriving DecidableEq, Repr

/-- VFMA, three-address only (R89). -/
structure VfmaArgs where
  gd : Option Guard
  xr : Option XReg
  ty : EType
  d : Reg
  s : Reg
  t : Reg
  deriving DecidableEq, Repr

/-- VCVT: destination type in extra[3:0] (R89, R183). -/
structure VcvtArgs where
  gd : Option Guard
  xr : Option XReg
  ty : Option EType
  d : Reg
  s : Reg
  dst : EType
  sat : Bool
  deriving DecidableEq, Repr

/-- VCMP (R89, R184). -/
structure VcmpArgs where
  gd : Option Guard
  xr : Option XReg
  ty : EType
  cond : VCond
  s : Reg
  t : Reg
  bank : Bool
  deriving DecidableEq, Repr

/-- VLD, VST and VDQNT; `a` may name a stream in VLD and VST (R185, R187). -/
structure VmemArgs where
  gd : Option Guard
  ty : Option EType
  v : Reg
  a : Reg
  off : List Chunk
  deriving DecidableEq, Repr

/-- VGATH and VSCAT (R186). -/
structure VgathArgs where
  gd : Option Guard
  ty : Option EType
  v : Reg
  a : Reg
  vi : Reg
  off : List Chunk
  deriving DecidableEq, Repr

/-- VBCAST and VRSUM (R188, R189). -/
structure VregArgs where
  gd : Option Guard
  ty : Option EType
  d : Reg
  s : Reg
  deriving DecidableEq, Repr

/-- VEXTR and VINS (R188). -/
structure VlaneArgs where
  gd : Option Guard
  ty : Option EType
  d : Reg
  s : Reg
  lane : BitVec 5
  deriving DecidableEq, Repr

/-- VSHUF and VDOT (R188, R189). -/
structure VtriArgs where
  gd : Option Guard
  ty : Option EType
  d : Reg
  s : Reg
  t : Reg
  deriving DecidableEq, Repr

/-- VSEL (bank) and VQNT (q4) (R188, R190). -/
structure VselArgs where
  gd : Option Guard
  ty : Option EType
  d : Reg
  s : Reg
  t : Reg
  hi : Bool
  deriving DecidableEq, Repr

/-- VACCR and VACCW (R191). -/
structure VaccArgs where
  gd : Option Guard
  ty : Option EType
  v : Reg
  row : BitVec 4
  tile : BitVec 2
  quarter : BitVec 2
  deriving DecidableEq, Repr

/-- VMOVP (R188). -/
structure VmovpArgs where
  gd : Option Guard
  ty : Option EType
  v : Reg
  toPred : Bool
  bank : Bool
  deriving DecidableEq, Repr

/-- Special functions (R192). -/
structure VsfArgs where
  gd : Option Guard
  ty : EType
  d : Reg
  s : Reg
  deriving DecidableEq, Repr

/-- VLOOP: `len` holds len - 1 (R195). -/
structure VloopArgs where
  gd : Option Guard
  ty : EType
  g : Reg
  len : BitVec 4
  deriving DecidableEq, Repr

/-- VSYNC, VGANG and VSPLIT: untyped, the type code still checked (R173). -/
structure VctlArgs where
  gd : Option Guard
  ty : EType
  deriving DecidableEq, Repr

/-- VSETT (R193). -/
structure VsettArgs where
  gd : Option Guard
  ty : EType
  dst : EType
  deriving DecidableEq, Repr

/-- BR (R91). -/
structure BrArgs where
  p : BitVec 5
  neg : Bool
  off : Imm 6
  deriving DecidableEq, Repr

/-- JMP and CALL (R92). -/
structure JmpArgs where
  gd : Option Guard
  xp : Bool
  off : Imm 8
  deriving DecidableEq, Repr

/-- JMPR and CALLR (R92). -/
structure JregArgs where
  gd : Option Guard
  xp : Bool
  r : Reg
  deriving DecidableEq, Repr

/-- CTL, NET and SYS instructions with no operand. -/
structure CtlArgs where
  gd : Option Guard
  xp : Bool
  deriving DecidableEq, Repr

/-- LOOP (R92). -/
structure LoopArgs where
  gd : Option Guard
  xp : Bool
  g : Reg
  off : Imm 4
  deriving DecidableEq, Repr

/-- GETID: selectors 0 to 6 (R92). -/
structure GetidArgs where
  gd : Option Guard
  xp : Bool
  d : Reg
  sel : BitVec 3
  deriving DecidableEq, Repr

/-- CLOCK, RAND, RDSIG, SPILL and FILL: one register. -/
structure CtlRegArgs where
  gd : Option Guard
  xp : Bool
  r : Reg
  deriving DecidableEq, Repr

/-- BREAK (R92). -/
structure BreakArgs where
  gd : Option Guard
  xp : Bool
  code : BitVec 8
  deriving DecidableEq, Repr

/-- MMA and MMAI (R95). -/
structure MmaArgs where
  gd : Option Guard
  xp : Bool
  tile : BitVec 2
  a : Reg
  w : BitVec 3
  k : List Chunk
  deriving DecidableEq, Repr

/-- MZERO, MACQ and MREL: one tile (R95, R201). -/
structure TileArgs where
  gd : Option Guard
  tile : BitVec 2
  deriving DecidableEq, Repr

/-- MLDC and MSTC (R95). -/
structure TileMemArgs where
  gd : Option Guard
  tile : BitVec 2
  a : Reg
  la : BitVec 4
  off : List Chunk
  deriving DecidableEq, Repr

/-- WBLD (R95). -/
structure WbldArgs where
  gd : Option Guard
  w : BitVec 3
  a : Reg
  la : BitVec 4
  off : List Chunk
  deriving DecidableEq, Repr

/-- WBINV: a slot, or all (R209). -/
structure WbinvArgs where
  gd : Option Guard
  w : Option (BitVec 3)
  deriving DecidableEq, Repr

/-- SBIND (R95). -/
structure SbindArgs where
  gd : Option Guard
  n : BitVec 2
  a : Reg
  la : BitVec 4
  off : List Chunk
  deriving DecidableEq, Repr

/-- SUNBIND and SDRAIN (R95). -/
structure StreamArgs where
  gd : Option Guard
  n : BitVec 2
  deriving DecidableEq, Repr

/-- SSTAT (R95). -/
structure SstatArgs where
  gd : Option Guard
  n : BitVec 2
  d : Reg
  la : BitVec 4
  deriving DecidableEq, Repr

/-- NET instructions with d and a (R96). -/
structure PairArgs where
  gd : Option Guard
  d : Reg
  a : Reg
  la : BitVec 4
  deriving DecidableEq, Repr

/-- NFREE (R96). -/
structure NodeArgs where
  gd : Option Guard
  a : Reg
  la : BitVec 4
  deriving DecidableEq, Repr

/-- NLD, NST and NREF: the word or port in the XIMM chunks (R96). -/
structure NodeWordArgs where
  gd : Option Guard
  d : Reg
  a : Reg
  la : BitVec 4
  w : List Chunk
  deriving DecidableEq, Repr

/-- RWDONE (R96). -/
structure LaArgs where
  gd : Option Guard
  la : BitVec 4
  deriving DecidableEq, Repr

/-- TRAP (R97). -/
structure TrapArgs where
  gd : Option Guard
  xp : Bool
  imm : Imm 8
  deriving DecidableEq, Repr

/-- MCALL (R97). -/
structure McallArgs where
  gd : Option Guard
  xp : Bool
  svc : BitVec 8
  deriving DecidableEq, Repr

/-- CRRD and CRWR: `hi` is extra[3:0] when XPAGE is written (R97). -/
structure CrArgs where
  gd : Option Guard
  g : Reg
  lo : BitVec 4
  hi : Option (BitVec 4)
  deriving DecidableEq, Repr

/-- SEGSET and SEGGET (R97). -/
structure SegArgs where
  gd : Option Guard
  xp : Bool
  f : BitVec 3
  n : BitVec 3
  deriving DecidableEq, Repr

/-- SEGLD (R97). -/
structure SegldArgs where
  gd : Option Guard
  xp : Bool
  n : BitVec 3
  a : Reg
  deriving DecidableEq, Repr

/-- INVPG and INVPGR; XPAGE may be left out for 4 KiB (R97). -/
structure InvArgs where
  gd : Option Guard
  xp : Bool
  a : Reg
  size : PageSize
  deriving DecidableEq, Repr

/-- PROTW (R97). -/
structure ProtwArgs where
  gd : Option Guard
  xp : Bool
  e : BitVec 4
  f : BitVec 3
  deriving DecidableEq, Repr

/-- NDVAL: CLOCK or RAND (R97). -/
structure NdvalArgs where
  gd : Option Guard
  xp : Bool
  d : Reg
  rand : Bool
  deriving DecidableEq, Repr

/-! ### Operands of events -/

/-- A barrel slot: the core's number, which is its cluster's global ID times 32 plus the core in the cluster, and the slot. -/
structure Loc where
  core : Nat
  slot : Fin 16
  deriving DecidableEq, Repr

/-- What tells a grain from every other: its launch, its identity (R326) and its replica. -/
structure GrainKey where
  launch : Nat
  ident : Nat
  replica : Nat
  deriving DecidableEq, Repr

/-- A unit of the hardware that can be lost or repaired (R416-R422). -/
inductive HwUnit where
  | package (node : Nat)
  | die (die : Nat)
  | cluster (cl : Nat)
  | core (core : Nat)
  deriving DecidableEq, Repr

/-- A comparison flit (R327): the sender's replica, the ordinal, the class and the signature. -/
structure CmpFlit where
  replica : BitVec 2
  ordinal : Word
  cls : BitVec 8
  sig : Word
  deriving DecidableEq, Repr

/-- A host write to a BAR: which BAR, the byte offset, the width in bytes and the value (R361, R375, R424). -/
structure CfgWrite where
  bar2 : Bool
  off : Nat
  width : Nat
  v : Word
  deriving DecidableEq, Repr

/-- The two directions' keys of a key slot (R393). -/
structure KeyPair where
  tx : BitVec 256
  rx : BitVec 256
  deriving DecidableEq, Repr

/-- Regions of configuration flash (R433). -/
inductive FlashRegion where
  | headFw | prefect | linkFw | hbmTables | sku | repair | deviceCert
  deriving DecidableEq, Repr

/-- A flash image: version, digest of the body, whether the signature verifies, and in SKU settings the minimum accepted version of each
region, in the order of `FlashRegion` (R433); whether the header names the region's type and holds the body's
SHA-384, the body's length, and in repair maps the clusters whose site 17 serves a core, or whose number a spare cluster took. -/
structure FlashImage where
  version : Word
  digest : BitVec 384
  sigOk : Bool
  minima : List Word
  typeOk : Bool := true
  bodyOk : Bool := true
  length : Nat := 0
  repairs : List (Nat × Option Nat) := []
  deriving DecidableEq, Repr

/-- What the boot sequence loads and measures (R402, R432): the digests of the stages and the clean-shutdown question is the log's. -/
structure BootImages where
  rom : BitVec 384
  lifeLogSchema : BitVec 384
  stages : List (BitVec 384)
  deriving DecidableEq, Repr

/-- The algorithms a requester offers (R401). -/
structure AlgOffer where
  sha384 : Bool
  p384 : Bool
  secp384r1 : Bool
  aes256gcm : Bool
  deriving DecidableEq, Repr

/-- The owner of a secured session (R401). -/
inductive SessionOwner where
  | tenant (ctx : BitVec 12)
  | fabricManager
  deriving DecidableEq, Repr

/-- A secured vendor message (R393-R395, R401, R425). -/
inductive KeyMsg where
  | link (port : Fin 6) (ctx : BitVec 12) (key : KeyPair)
  | data (ctx : BitVec 12) (key : BitVec 256)
  | checkpoint (ctx : BitVec 12) (key : BitVec 256)
  | ide (cxl out : Bool) (key : BitVec 256)
  deriving DecidableEq, Repr

/-- TDISP states of a context's device interface (R401). -/
inductive Tdisp where
  | config | locked | run
  deriving DecidableEq, Repr

/-- Who waits for an INVPG or INVPGR: a grain or an invalidate command (R231, R376). -/
inductive InvWaiter where
  | grain (loc : Loc)
  | command (node : Nat) (ctx : BitVec 12)
  deriving DecidableEq, Repr

/-- The rows of spec/opcode_table.json. -/
inductive Instr where
  /-- MOV (R107). Copies s into d, or with XREG moves one 64-bit half of a v register to or from a g register. -/
  | mov (a : MovArgs)
  /-- ADD (R107). Adds two 64-bit values modulo 2^64. -/
  | add (a : AluArgs)
  /-- SUB (R107). Subtracts two 64-bit values modulo 2^64. -/
  | sub (a : AluArgs)
  /-- AND (R107). Bitwise AND of two registers. -/
  | and (a : AluArgs)
  /-- OR (R107). Bitwise OR of two registers. -/
  | or (a : AluArgs)
  /-- XOR (R107). Bitwise XOR of two registers. -/
  | xor (a : AluArgs)
  /-- ANDN (R107). Computes x AND NOT y. -/
  | andn (a : AluArgs)
  /-- SHL (R107). Shifts left by y mod 64. -/
  | shl (a : AluArgs)
  /-- SHR (R107). Shifts right logically by y mod 64. -/
  | shr (a : AluArgs)
  /-- SAR (R107). Shifts right arithmetically by y mod 64. -/
  | sar (a : AluArgs)
  /-- MUL (R107). Gives the low 64 bits of the product. -/
  | mul (a : AluArgs)
  /-- MULH (R107). Gives bits 127:64 of the signed product. -/
  | mulh (a : AluArgs)
  /-- MIN (R107). Gives the signed minimum. -/
  | min (a : AluArgs)
  /-- MAX (R107). Gives the signed maximum. -/
  | max (a : AluArgs)
  /-- ADDP (R108). Steps a fat pointer forward by a signed element count. -/
  | addp (a : AluArgs)
  /-- SUBP (R108). Steps a fat pointer backward by a signed element count. -/
  | subp (a : AluArgs)
  /-- MULHN (R107). Gives bits 127:64 of the unsigned product. -/
  | mulhn (a : AluArgs)
  /-- DIV (R43). Signed division rounding toward zero; a zero divisor faults. -/
  | div (a : AluArgs)
  /-- DIVN (R107). Unsigned division; a zero divisor faults. -/
  | divn (a : AluArgs)
  /-- REM (R43). Signed remainder with the sign of the dividend. -/
  | rem (a : AluArgs)
  /-- REMN (R107). Unsigned remainder. -/
  | remn (a : AluArgs)
  /-- MINN (R107). Gives the unsigned minimum. -/
  | minn (a : AluArgs)
  /-- MAXN (R107). Gives the unsigned maximum. -/
  | maxn (a : AluArgs)
  /-- ROL (R107). Rotates left by y mod 64. -/
  | rol (a : AluArgs)
  /-- ROR (R107). Rotates right by y mod 64. -/
  | ror (a : AluArgs)
  /-- CLZ (R107). Counts leading zero bits. -/
  | clz (a : UnaryArgs)
  /-- CTZ (R107). Counts trailing zero bits. -/
  | ctz (a : UnaryArgs)
  /-- POPC (R107). Counts one bits. -/
  | popc (a : UnaryArgs)
  /-- BREV (R107). Reverses the bit order. -/
  | brev (a : UnaryArgs)
  /-- BSWAP (R107). Reverses the byte order. -/
  | bswap (a : UnaryArgs)
  /-- SEXT (R107). Sign-extends the low 8, 16 or 32 bits. -/
  | sext (a : ExtArgs)
  /-- ZEXT (R107). Zero-extends the low 8, 16 or 32 bits. -/
  | zext (a : ExtArgs)
  /-- ADDI (R109). Adds an immediate. -/
  | addi (a : ImmArgs)
  /-- SUBI (R109). Subtracts an immediate. -/
  | subi (a : ImmArgs)
  /-- ANDI (R109). Bitwise AND with an immediate. -/
  | andi (a : ImmArgs)
  /-- ORI (R109). Bitwise OR with an immediate. -/
  | ori (a : ImmArgs)
  /-- XORI (R109). Bitwise XOR with an immediate. -/
  | xori (a : ImmArgs)
  /-- SHLI (R109). Shifts left by an immediate. -/
  | shli (a : ImmArgs)
  /-- SHRI (R109). Shifts right logically by an immediate. -/
  | shri (a : ImmArgs)
  /-- SARI (R109). Shifts right arithmetically by an immediate. -/
  | sari (a : ImmArgs)
  /-- MULI (R109). Multiplies by an immediate. -/
  | muli (a : ImmArgs)
  /-- ROLI (R109). Rotates left by an immediate. -/
  | roli (a : ImmArgs)
  /-- BFX (R110). Extracts a zero-extended bit field. -/
  | bfx (a : FieldArgs)
  /-- BFI (R110). Inserts a bit field into d. -/
  | bfi (a : FieldArgs)
  /-- PFMT (R109). Sets the format field of a pointer. -/
  | pfmt (a : ImmArgs)
  /-- PBLK (R109). Sets the block_log field of a pointer. -/
  | pblk (a : ImmArgs)
  /-- PSEG (R109). Sets the seg field of a pointer. -/
  | pseg (a : ImmArgs)
  /-- PCLR (R109). Clears bits 63:52 of a pointer. -/
  | pclr (a : RegArgs)
  /-- LI (R111). Loads an immediate into d. -/
  | li (a : LiArgs)
  /-- LI_LANE (R111). Inserts a 16-bit immediate into one lane of d. -/
  | liLane (a : LaneArgs)
  /-- CEQ (R112). Sets a predicate on equality. -/
  | ceq (a : CmpArgs)
  /-- CNE (R112). Sets a predicate on inequality. -/
  | cne (a : CmpArgs)
  /-- CLT (R112). Signed less-than compare. -/
  | clt (a : CmpArgs)
  /-- CGE (R112). Signed greater-or-equal compare. -/
  | cge (a : CmpArgs)
  /-- CLTN (R112). Unsigned less-than compare. -/
  | cltn (a : CmpArgs)
  /-- CGEN (R112). Unsigned greater-or-equal compare. -/
  | cgen (a : CmpArgs)
  /-- CTST (R112). Sets a predicate when d AND s is nonzero. -/
  | ctst (a : CmpArgs)
  /-- CTSTN (R112). Sets a predicate when d AND s is zero. -/
  | ctstn (a : CmpArgs)
  /-- CEQI (R112). Compares with an immediate for equality. -/
  | ceqi (a : CmpImmArgs)
  /-- CNEI (R112). Compares with an immediate for inequality. -/
  | cnei (a : CmpImmArgs)
  /-- CLTI (R112). Signed less-than compare with an immediate. -/
  | clti (a : CmpImmArgs)
  /-- CGEI (R112). Signed greater-or-equal compare with an immediate. -/
  | cgei (a : CmpImmArgs)
  /-- CLTNI (R112). Unsigned less-than compare with an immediate. -/
  | cltni (a : CmpImmArgs)
  /-- CGENI (R112). Unsigned greater-or-equal compare with an immediate. -/
  | cgeni (a : CmpImmArgs)
  /-- PLOG (R113). Combines two predicates by a truth table. -/
  | plog (a : PlogArgs)
  /-- PXFER (R114). Reads or writes fields of the predicate word. -/
  | pxfer (a : PxferArgs)
  /-- LD (R135). Loads an element whose width comes from the pointer format. -/
  | ld (a : MemArgs)
  /-- LDI (R135). Loads an element, then advances the pointer by one element. -/
  | ldi (a : MemArgs)
  /-- LD8 (R135). Sign-extended 1-byte load. -/
  | ld8 (a : MemArgs)
  /-- LD16 (R135). Sign-extended 2-byte load. -/
  | ld16 (a : MemArgs)
  /-- LD32 (R135). Sign-extended 4-byte load. -/
  | ld32 (a : MemArgs)
  /-- LD64 (R135). 8-byte load. -/
  | ld64 (a : MemArgs)
  /-- LDN8 (R135). Zero-extended 1-byte load. -/
  | ldn8 (a : MemArgs)
  /-- LDN16 (R135). Zero-extended 2-byte load. -/
  | ldn16 (a : MemArgs)
  /-- LDN32 (R135). Zero-extended 4-byte load. -/
  | ldn32 (a : MemArgs)
  /-- LDACQ (R135). Loads at the owner with acquire at a scope, cleaning the reader cache. -/
  | ldacq (a : ScopedArgs)
  /-- PREF (R135). Prefetches a line toward the core; a failure drops it. -/
  | pref (a : AddrArgs)
  /-- LDREC (R136). Fills a shape-record cache entry with a 192-byte record. -/
  | ldrec (a : RecArgs)
  /-- ST (R138). Stores an element whose width comes from the pointer format, through a home segment. -/
  | st (a : StoreArgs)
  /-- STI (R138). Stores, then advances the pointer by one element. -/
  | sti (a : StoreArgs)
  /-- ST8 (R138). Stores 1 byte. -/
  | st8 (a : StoreArgs)
  /-- ST16 (R138). Stores 2 bytes. -/
  | st16 (a : StoreArgs)
  /-- ST32 (R138). Stores 4 bytes. -/
  | st32 (a : StoreArgs)
  /-- ST64 (R138). Stores 8 bytes. -/
  | st64 (a : StoreArgs)
  /-- STREL (R140). Releases at a scope, then performs the store. -/
  | strel (a : StrelArgs)
  /-- STNT (R138). Stores without allocating the line in L1. -/
  | stnt (a : StoreArgs)
  /-- AADD (R141). Atomic add at the owner, returning the old value. -/
  | aadd (a : AtomArgs)
  /-- AMIN (R141). Atomic signed minimum. -/
  | amin (a : AtomArgs)
  /-- AMAX (R141). Atomic signed maximum. -/
  | amax (a : AtomArgs)
  /-- AMINN (R141). Atomic unsigned minimum. -/
  | aminn (a : AtomArgs)
  /-- AMAXN (R141). Atomic unsigned maximum. -/
  | amaxn (a : AtomArgs)
  /-- AAND (R141). Atomic bitwise AND. -/
  | aand (a : AtomArgs)
  /-- AOR (R141). Atomic bitwise OR. -/
  | aor (a : AtomArgs)
  /-- AXOR (R141). Atomic bitwise XOR. -/
  | axor (a : AtomArgs)
  /-- ASWAP (R141). Atomic swap. -/
  | aswap (a : AtomArgs)
  /-- ACAS (R141). Atomic compare-and-swap with the success flag in d+1. -/
  | acas (a : AtomArgs)
  /-- AFADD (R69). Atomic floating-point add at the owner. -/
  | afadd (a : AtomArgs)
  /-- AFMIN (R69). Atomic floating-point minimum. -/
  | afmin (a : AtomArgs)
  /-- AFMAX (R69). Atomic floating-point maximum. -/
  | afmax (a : AtomArgs)
  /-- MIGR (R147). Moves the grain to the core chosen by the address. -/
  | migr (a : AddrArgs)
  /-- RUPD (R148). Sends a remote-update grain that performs an atomic at the owner. -/
  | rupd (a : RupdArgs)
  /-- SPAWN (R149). Creates a new grain at the target core. -/
  | spawn (a : MemArgs)
  /-- SEQWAIT (R152). Waits until a sequence word reaches a threshold, then acquires. -/
  | seqwait (a : ScopedArgs)
  /-- SEQADV (R154). Releases, then adds to a home sequence word. -/
  | seqadv (a : ScopedArgs)
  /-- WATCH (R155). Arms one of four watches on a sequence word without waiting. -/
  | watch (a : WatchArgs)
  /-- WAITW (R155). Waits for any armed watch in a mask to fire. -/
  | waitw (a : WaitwArgs)
  /-- BARW (R157). Arrives at the barrier of a scope and parks until release. -/
  | barw (a : BarwArgs)
  /-- FENCE (R159). Orders the grain's own loads, stores or both at a scope. -/
  | fence (a : FenceArgs)
  /-- SEND (R161). Releases, then sends a 64-bit value to a channel of a target core. -/
  | send (a : ChanPairArgs)
  /-- RECV (R163). Takes the oldest flit of the context on a channel, waiting if none. -/
  | recv (a : ChanArgs)
  /-- RECVN (R164). Takes a flit if one is queued and reports whether it did in p0. -/
  | recvn (a : ChanArgs)
  /-- RECVS (R165). Takes the next flit in sequence from a named sender. -/
  | recvs (a : ChanPairArgs)
  /-- CHSTAT (R164). Returns the status of a channel. -/
  | chstat (a : ChanArgs)
  /-- CLEAN (R156). Reads a sequence word at its owner and cleans that owner's lines. -/
  | clean (a : CleanArgs)
  /-- SHFENCE (R160). Waits for the grain's stores, then empties the shape-record cache. -/
  | shfence (a : GuardArgs)
  /-- XPULL (R167). Releases, checks a command block and queues a pull at the copy engine. -/
  | xpull (a : BlockArgs)
  /-- XFILL (R169). Queues a fill of destination rows with a 64-bit value. -/
  | xfill (a : BlockArgs)
  /-- XSTAT (R170). Returns the copy engine's status for a command block. -/
  | xstat (a : MemArgs)
  /-- VMOV (R182). Copies a vector register. -/
  | vmov (a : VunArgs)
  /-- VADD (R182). Lane-wise add. -/
  | vadd (a : VopArgs)
  /-- VSUB (R182). Lane-wise subtract. -/
  | vsub (a : VopArgs)
  /-- VMUL (R182). Lane-wise multiply. -/
  | vmul (a : VopArgs)
  /-- VFMA (R58). Lane-wise fused multiply-add with one rounding. -/
  | vfma (a : VfmaArgs)
  /-- VMIN (R59). Lane-wise minimum. -/
  | vmin (a : VopArgs)
  /-- VMAX (R59). Lane-wise maximum. -/
  | vmax (a : VopArgs)
  /-- VAND (R182). Lane-wise bitwise AND. -/
  | vand (a : VopArgs)
  /-- VOR (R182). Lane-wise bitwise OR. -/
  | vor (a : VopArgs)
  /-- VXOR (R182). Lane-wise bitwise XOR. -/
  | vxor (a : VopArgs)
  /-- VSHL (R182). Lane-wise left shift. -/
  | vshl (a : VopArgs)
  /-- VSHR (R182). Lane-wise right shift. -/
  | vshr (a : VopArgs)
  /-- VABS (R182). Lane-wise absolute value. -/
  | vabs (a : VunArgs)
  /-- VNEG (R182). Lane-wise negation. -/
  | vneg (a : VunArgs)
  /-- VCVT (R183). Converts lanes between element types. -/
  | vcvt (a : VcvtArgs)
  /-- VCMP (R184). Compares lanes into predicates. -/
  | vcmp (a : VcmpArgs)
  /-- VLD (R185). Loads 16 or 32 bytes into a v register from a pointer or an input stream. -/
  | vld (a : VmemArgs)
  /-- VST (R185). Stores a v register through a home pointer or appends it to an output stream. -/
  | vst (a : VmemArgs)
  /-- VGATH (R186). Gathers lanes from indexed addresses. -/
  | vgath (a : VgathArgs)
  /-- VSCAT (R186). Scatters lanes to indexed addresses in lane order. -/
  | vscat (a : VgathArgs)
  /-- VBCAST (R188). Broadcasts a g value to every lane. -/
  | vbcast (a : VregArgs)
  /-- VEXTR (R188). Extracts one lane into a g register. -/
  | vextr (a : VlaneArgs)
  /-- VINS (R188). Inserts a g value into one lane. -/
  | vins (a : VlaneArgs)
  /-- VSHUF (R188). Permutes lanes by an index register. -/
  | vshuf (a : VtriArgs)
  /-- VRSUM (R189). Reduces the lanes by the fixed pairwise tree. -/
  | vrsum (a : VregArgs)
  /-- VDOT (R189). Forms a dot product of two registers by the fixed tree. -/
  | vdot (a : VtriArgs)
  /-- VSEL (R188). Selects lanes by predicate. -/
  | vsel (a : VselArgs)
  /-- VQNT (R190). Quantises lanes to q8 or q4 codes with a group header. -/
  | vqnt (a : VselArgs)
  /-- VDQNT (R187). Dequantises elements of a quantised block into f32 lanes. -/
  | vdqnt (a : VmemArgs)
  /-- VACCR (R191). Reads part of an accumulator row into lanes. -/
  | vaccr (a : VaccArgs)
  /-- VACCW (R191). Writes lanes into part of an accumulator row. -/
  | vaccw (a : VaccArgs)
  /-- VMOVP (R188). Moves predicates to lane masks or lanes to predicates. -/
  | vmovp (a : VmovpArgs)
  /-- VRCP (R192). Lane-wise reciprocal. -/
  | vrcp (a : VsfArgs)
  /-- VRSQ (R192). Lane-wise reciprocal square root. -/
  | vrsq (a : VsfArgs)
  /-- VSQRT (R192). Lane-wise square root. -/
  | vsqrt (a : VsfArgs)
  /-- VEXP2 (R192). Lane-wise base-2 exponential. -/
  | vexp2 (a : VsfArgs)
  /-- VLOG2 (R192). Lane-wise base-2 logarithm. -/
  | vlog2 (a : VsfArgs)
  /-- VSIN (R192). Lane-wise sine. -/
  | vsin (a : VsfArgs)
  /-- VCOS (R192). Lane-wise cosine. -/
  | vcos (a : VsfArgs)
  /-- VTANH (R192). Lane-wise hyperbolic tangent. -/
  | vtanh (a : VsfArgs)
  /-- VLOOP (R195). Issues a vector body once and has the sequencer replay it. -/
  | vloop (a : VloopArgs)
  /-- VSYNC (R194). Parks until the grain's sequencer is empty. -/
  | vsync (a : VctlArgs)
  /-- VGANG (R198). Gangs the grain with the odd slot above it for 256-bit registers. -/
  | vgang (a : VctlArgs)
  /-- VSPLIT (R199). Ends a gang and frees the odd slot. -/
  | vsplit (a : VctlArgs)
  /-- VSETT (R193). Sets vtype. -/
  | vsett (a : VsettArgs)
  /-- BR (R115). Branches relative on a predicate. -/
  | br (a : BrArgs)
  /-- JMP (R116). Jumps relative. -/
  | jmp (a : JmpArgs)
  /-- JMPR (R116). Jumps to a register target. -/
  | jmpr (a : JregArgs)
  /-- CALL (R116). Calls relative, writing the return PC to g9. -/
  | call (a : JmpArgs)
  /-- CALLR (R116). Calls a register target after waiting for outstanding results. -/
  | callr (a : JregArgs)
  /-- RET (R116). Returns to the address in g9. -/
  | ret (a : CtlArgs)
  /-- EXIT (R118). Ends the grain after draining, releasing and freeing its slot. -/
  | exit (a : CtlArgs)
  /-- YIELD (R119). Spills the grain if an equal or higher class grain is queued. -/
  | yield (a : CtlArgs)
  /-- NOP (R120). Does nothing for one turn. -/
  | nop (a : CtlArgs)
  /-- LOOP (R117). Decrements a counter and branches while it is nonzero. -/
  | loop (a : LoopArgs)
  /-- GETID (R123). Reads a coordinate or index of the grain. -/
  | getid (a : GetidArgs)
  /-- CLOCK (R124). Reads the core's cycle counter. -/
  | clock (a : CtlRegArgs)
  /-- RAND (R125). Reads 64 fresh bits from the entropy source, parking if none is ready. -/
  | rand (a : CtlRegArgs)
  /-- BREAK (R122). Ends the launch with cause BREAK and a code. -/
  | brk (a : BreakArgs)
  /-- RHOME (R121). Returns the grain to its launch-time core. -/
  | rhome (a : CtlArgs)
  /-- MMA (R211). Accumulates a float A times a weight-slot B into a tile. -/
  | mma (a : MmaArgs)
  /-- MMAI (R211). Accumulates a quantised A times a quantised B into a tile. -/
  | mmai (a : MmaArgs)
  /-- MZERO (R204). Sets every element of an owned tile to +0.0. -/
  | mzero (a : TileArgs)
  /-- MLDC (R205). Loads a whole tile from memory. -/
  | mldc (a : TileMemArgs)
  /-- MSTC (R205). Stores a whole tile to home memory. -/
  | mstc (a : TileMemArgs)
  /-- WBLD (R208). Loads a weight image into a weight-buffer slot. -/
  | wbld (a : WbldArgs)
  /-- WBINV (R209). Invalidates one or all weight-buffer slots. -/
  | wbinv (a : WbinvArgs)
  /-- MACQ (R202). Claims and zeroes an accumulator tile, parking if it is held. -/
  | macq (a : TileArgs)
  /-- MREL (R203). Releases the grain's tile. -/
  | mrel (a : TileArgs)
  /-- SBIND (R216). Binds a stream register to a pattern record. -/
  | sbind (a : SbindArgs)
  /-- SUNBIND (R217). Unbinds a stream, draining an output stream first. -/
  | sunbind (a : StreamArgs)
  /-- SSTAT (R218). Returns the status of a stream. -/
  | sstat (a : SstatArgs)
  /-- SDRAIN (R219). Parks until an output stream's elements are performed. -/
  | sdrain (a : StreamArgs)
  /-- RWPOP (R226). Takes or steals a pair, looks up its rule and jumps to the handler. -/
  | rwpop (a : CtlArgs)
  /-- RWPUSH (R225). Counts and sends a pair record to the owner of the smaller portref. -/
  | rwpush (a : PairArgs)
  /-- NALLOC (R221). Allocates and initialises a node from the free ring or arena list. -/
  | nalloc (a : PairArgs)
  /-- NFREE (R221). Appends a node to the retire queue, or sends a far free. -/
  | nfree (a : NodeArgs)
  /-- NLD (R222). Loads one word of a node. -/
  | nld (a : NodeWordArgs)
  /-- NST (R222). Stores one word of a node. -/
  | nst (a : NodeWordArgs)
  /-- PXCHG (R223). Exchanges a port slot at its owner by excursion. -/
  | pxchg (a : PairArgs)
  /-- PLINK (R224). Settles a wire by the link protocol, pushing a pair if needed. -/
  | plink (a : PairArgs)
  /-- NREF (R222). Forms the portref of a node's port. -/
  | nref (a : NodeWordArgs)
  /-- NOWN (R222). Extracts the cluster ID from a portref. -/
  | nown (a : PairArgs)
  /-- RWDONE (R227). Releases and counts the held pair as done. -/
  | rwdone (a : LaArgs)
  /-- TRAP (R228). Ends the launch with a program status. -/
  | trap (a : TrapArgs)
  /-- MCALL (R229). Enters the prefect in monitor mode for a service. -/
  | mcall (a : McallArgs)
  /-- MRET (R229). Returns from monitor mode to the saved PC. -/
  | mret (a : CtlArgs)
  /-- CRRD (R230). Reads a control register. -/
  | crrd (a : CrArgs)
  /-- CRWR (R230). Writes a control register. -/
  | crwr (a : CrArgs)
  /-- SEGSET (R233). Writes a segment register from three g registers. -/
  | segset (a : SegArgs)
  /-- SEGGET (R233). Reads a segment register into three g registers. -/
  | segget (a : SegArgs)
  /-- SEGLD (R233). Loads a segment descriptor from memory. -/
  | segld (a : SegldArgs)
  /-- INVPG (R231). Invalidates a page's translations and writes back its L2 lines. -/
  | invpg (a : InvArgs)
  /-- INVPGR (R231). As INVPG, then invalidates weight slots and waits out leases. -/
  | invpgr (a : InvArgs)
  /-- PROTW (R234). Writes a protection entry. -/
  | protw (a : ProtwArgs)
  /-- SPILL (R232). Spills a slot's grain or the core's weight records. -/
  | spill (a : CtlRegArgs)
  /-- FILL (R232). Fills a slot from a slate or restores weight records. -/
  | fill (a : CtlRegArgs)
  /-- RDSIG (R235). Reads the grain's running store signature. -/
  | rdsig (a : CtlRegArgs)
  /-- NDVAL (R235). Reads a clock or random value, forwarded from the primary in replicas. -/
  | ndval (a : NdvalArgs)
  /-- HALT (R236). Removes the issuing slot from service and reports to the head complex. -/
  | halt (a : CtlArgs)
  /-- BARREL_ISSUE_CYCLE (R250). Each clk the core issues from the next eligible ready slot. -/
  | barrelIssueCycle (core : Nat)
  /-- LONG_LATENCY_RESULT (R39). A long-latency result arrives and wakes a grain parked on it. -/
  | longLatencyResult (loc : Loc) (op : Nat)
  /-- TLB_WALK_COMPLETE (R378). The die walker finishes reading the tree for a TLB miss. -/
  | tlbWalkComplete (cl : Nat) (ctx : BitVec 12) (va : BitVec 38)
  /-- SLICE_EXPIRY (R252). A slot's slice count reaches SLICE_CYCLES with a grain waiting. -/
  | sliceExpiry (loc : Loc)
  /-- PRIORITY_PREEMPT (R368). A queued grain of a higher class causes immediate spills. -/
  | priorityPreempt (core : Nat)
  /-- SPILL_COMPLETE (R383). The spill engine finishes saving a grain into its slate. -/
  | spillComplete (loc : Loc)
  /-- FILL_COMPLETE (R383). The spill engine finishes filling a slot from the run queue. -/
  | fillComplete (loc : Loc)
  /-- REMOTE_WATCH_INSERT (R273). A remote watch entry arrives at the owner port and is compared or NACKed. -/
  | remoteWatchInsert (loc : Loc) (reg : Fin 5)
  /-- REMOTE_WATCH_WAKE (R273). A wake message carrying the word's value reaches the waiter. -/
  | remoteWatchWake (loc : Loc) (reg : Fin 5) (v : Word)
  /-- WATCH_POLL_TIMER (R153). A NACKed waiter re-reads its word every 4,096 clk. -/
  | watchPollTimer (loc : Loc) (reg : Fin 5)
  /-- BARRIER_STAGGER_RESUME (R158). After c × STAGGER_STEP clk a core's members resume and acquire. -/
  | barrierStaggerResume (launch : Nat) (sc : Scope) (core : Nat)
  /-- CHANNEL_FLIT_ARRIVAL (R163). A channel flit reaches the target core's queue and may wake a receiver. -/
  | channelFlitArrival (core : Nat) (ch : BitVec 3)
  /-- CHANNEL_WATCHDOG_EXPIRY (R162). An unaccepted SEND reaches CHAN_WATCHDOG and ends the launch. -/
  | channelWatchdogExpiry (loc : Loc) (op : Nat)
  /-- MACQ_WATCHDOG_EXPIRY (R202). A MACQ waiting CHAN_WATCHDOG clk ends the launch with WATCHDOG. -/
  | macqWatchdogExpiry (loc : Loc)
  /-- BAG_PUSH_WATCHDOG_EXPIRY (R225). A push held by a full cluster bag ends the launch with WATCHDOG. -/
  | bagPushWatchdogExpiry (loc : Loc) (op : Nat)
  /-- MIGRATION_ARRIVAL (R254). A migration packet arrives at the target core, taking a slot or queueing. -/
  | migrationArrival (loc : Loc)
  /-- SPAWN_ARRIVAL (R254). A spawned grain arrives at its target core. -/
  | spawnArrival (core : Nat)
  /-- ARRIVAL_RETRY (R254). The sending cluster retries an arrival refused by a full run queue. -/
  | arrivalRetry (core : Nat)
  /-- EXCURSION_AT_OWNER (R142). An atomic request arrives at the owner's channel core and is performed. -/
  | excursionAtOwner (loc : Loc) (op : Nat)
  /-- EXCURSION_RETURN (R142). The result flit of an excursion returns to the issuing slot. -/
  | excursionReturn (loc : Loc) (op : Nat)
  /-- REMOTE_UPDATE_APPLY (R255). The channel core applies the next queued remote update. -/
  | remoteUpdateApply (cl : Nat)
  /-- BURSAR_ATOMIC (R408). A bursar slot performs an atomic in the external protocol. -/
  | bursarAtomic (die : Nat) (slot : Fin 16)
  /-- COPY_COMMAND_START (R276). A queued copy command starts after its combining window. -/
  | copyCommandStart (cl : Nat)
  /-- COPY_COMMAND_COMPLETE (R167). A copy command finishes, releases and advances its sequence word. -/
  | copyCommandComplete (cl : Nat) (id : Nat)
  /-- BURST_WINDOW_CLOSE (R269). A 16-clk merge window closes and the port issues one burst. -/
  | burstWindowClose (cl : Nat) (region : Nat)
  /-- SEQUENCER_ENTRY_START (R177). The vector unit starts an entry from a ready slot. -/
  | sequencerEntryStart (core : Nat)
  /-- SEQUENCER_ENTRY_COMPLETE (R177). A vector entry completes and ORs its flags into the predicate word. -/
  | sequencerEntryComplete (loc : Loc)
  /-- MMA_START (R296). A queued array operation reaches the head and starts its steps. -/
  | mmaStart (core : Nat)
  /-- MMA_COMPLETE (R296). An array operation completes, flags are delivered and the grain is ready. -/
  | mmaComplete (core : Nat)
  /-- WEIGHT_SLOT_RELOAD (R298). An invalidated slot named by an MMA is reloaded from its source. -/
  | weightSlotReload (core : Nat) (w : Fin 8)
  /-- INPUT_STREAM_FETCH (R274). An input transfer unit fetches a line of its pattern. -/
  | inputStreamFetch (loc : Loc) (n : Fin 4)
  /-- OUTPUT_STREAM_LINE_WRITE (R274). An output transfer unit writes a buffered line to memory. -/
  | outputStreamLineWrite (loc : Loc) (n : Fin 4)
  /-- RAND_VALUE_READY (R125). The entropy source produces a value for a parked RAND. -/
  | randValueReady (core : Nat) (v : Word)
  /-- FORWARDED_VALUE_ARRIVAL (R331). A primary's CLOCK, RAND or NDVAL value reaches a partner. -/
  | forwardedValueArrival (who : GrainKey) (count : Nat) (v : Word)
  /-- REPLICA_COMPARE_FLIT (R327). A partner's comparison flit arrives and the comparison is decided. -/
  | replicaCompareFlit (who : GrainKey) (flit : CmpFlit)
  /-- EXTERNAL_ATOMIC_RESULT (R330). The owner of an external atomic sends the old value to every partner. -/
  | externalAtomicResult (who : GrainKey) (op : Nat) (old : Word)
  /-- PAIR_RECORD_ARRIVAL (R308). A pair record reaches the owner's core or cluster bag. -/
  | pairRecordArrival (cl : Nat)
  /-- STEAL_RETRY_TIMER (R310). A parked RWPOP retries its steal order after 4,096 clk. -/
  | stealRetryTimer (loc : Loc)
  /-- NET_SWEEP (R317). The dispatcher sweeps a net launch's counts at least every 16,384 clk. -/
  | netSweep (launch : Nat)
  /-- EPOCH_ADOPT (R314). A cluster adopts a broadcast epoch and frees retired nodes. -/
  | epochAdopt (cl : Nat) (launch : Nat) (epoch : Nat)
  /-- FAULT_REPORT (R259). A fault reaches the head complex, which sends a stop to the launch's cores and engines. -/
  | faultReport (node : Nat)
  /-- LAUNCH_STOP_AT_CORE (R259). A core or engine receives the stop and confirms it. -/
  | launchStopAtCore (launch : Nat) (core : Nat)
  /-- LAUNCH_COMPLETE (R258). The last grain, update and engine command of a launch completes. -/
  | launchComplete (launch : Nat)
  /-- COMPLETION_WRITE (R371). The result is hashed, the receipt signed and the completion record written. -/
  | completionWrite (launch : Nat)
  /-- QUEUE_TAIL_WRITE (R363). The host posts records by writing tail. -/
  | queueTailWrite (node : Nat) (q : BitVec 16) (v : Word)
  /-- QUEUE_ENABLE (R362). Writing enable 1 zeroes the counters and starts the queue. -/
  | queueEnable (node : Nat) (q : BitVec 16)
  /-- QUEUE_DISABLE (R362). Writing enable 0 stops further record reads. -/
  | queueDisable (node : Nat) (q : BitVec 16)
  /-- QUEUE_ABORT (R372). Writing abort ends the running launch with outcome 3. -/
  | queueAbort (node : Nat) (q : BitVec 16)
  /-- CONFIGURATION_WRITE (R361). A write to a register field with no behaviour of its own. -/
  | configurationWrite (node : Nat) (w : CfgWrite)
  /-- LAUNCH_RECORD_READ (R364). The dispatcher reads the next record once the previous launch completed. -/
  | launchRecordRead (node : Nat) (q : BitVec 16)
  /-- SCHEDULER_ROUND (R367). A class scheduler runs a deficit round over contexts. -/
  | schedulerRound (node : Nat) (cls : BitVec 2)
  /-- LAUNCH_PLACE (R369). A waiting launch is placed once every strip can take it. -/
  | launchPlace (launch : Nat)
  /-- GRAPH_NODE_DISPATCH (R373). A graph node becomes placeable or is given outcome 4 when its predecessors complete. -/
  | graphNodeDispatch (node : Nat) (q : BitVec 16) (j : Nat)
  /-- CONTEXT_CREATE (R376). Creates a context and computes its initial chain value. -/
  | contextCreate (node : Nat) (ctx : BitVec 12)
  /-- CONTEXT_DESTROY (R376). Ends the context's launches and discards its state. -/
  | contextDestroy (node : Nat) (ctx : BitVec 12)
  /-- CONTEXT_INVALIDATE (R376). Runs INVPG or INVPGR on a page for the context. -/
  | contextInvalidate (node : Nat) (ctx : BitVec 12)
  /-- CONTEXT_MIGRATE (R380). Starts moving a page to a new physical page. -/
  | contextMigrate (node : Nat) (ctx : BitVec 12)
  /-- MIGRATION_FIRST_PASS_DONE (R380). The background copy completes and the final pass begins. -/
  | migrationFirstPassDone (node : Nat) (ctx : BitVec 12)
  /-- MIGRATION_FINAL_PASS_DONE (R380). Dirty sub-pages are copied, the leaf rewritten and held accesses released. -/
  | migrationFinalPassDone (node : Nat) (ctx : BitVec 12)
  /-- FAULT_HEAD_WRITE (R379). The host consumes fault records, freeing ring room for waiting records. -/
  | faultHeadWrite (node : Nat) (ctx : BitVec 12) (v : Word)
  /-- FAULT_RESOLVE (R379). The host resolves or refuses a recorded page fault by token. -/
  | faultResolve (node : Nat) (ctx : BitVec 12) (token : BitVec 16) (refuse : Bool)
  /-- CHECKPOINT_TAKE (R426). Starts a checkpoint by stopping new launches of the context. -/
  | checkpointTake (node : Nat) (ctx : BitVec 12)
  /-- CHECKPOINT_PULL_START (R426). With no launch running, the segment pulls begin. -/
  | checkpointPullStart (node : Nat) (ctx : BitVec 12)
  /-- CHECKPOINT_COMPLETE (R426). The manifest is written, versions recorded and queues released. -/
  | checkpointComplete (node : Nat) (ctx : BitVec 12) (stopUs : Word)
  /-- CHECKPOINT_RESTORE (R429). Restores segments, chain value and queue heads from a generation. -/
  | checkpointRestore (node : Nat) (ctx : BitVec 12)
  /-- CORE_FAILURE_DETECTED (R418). Missed heartbeats or state errors declare a core failed. -/
  | coreFailureDetected (core : Nat)
  /-- CLUSTER_FAILURE_DETECTED (R418). Heartbeat loss or port errors declare a cluster failed. -/
  | clusterFailureDetected (cl : Nat)
  /-- DIE_FAILURE_DETECTED (R418). Loss of all cluster heartbeats or links declares a die failed. -/
  | dieFailureDetected (die : Nat)
  /-- PACKAGE_FAILURE_DETECTED (R418). No heartbeat on any port for 100 ms declares a package lost. -/
  | packageFailureDetected (node : Nat)
  /-- LOSS_DECLARATION (R416). A loss declaration reaches a core and fails requests and waits on the lost unit. -/
  | lossDeclaration (core : Nat) (unit : HwUnit)
  /-- CORE_REPAIR (R420). Site 17 replaces a failed core. -/
  | coreRepair (core : Nat)
  /-- CLUSTER_REPAIR (R421). A spare cluster takes the number and channel, which is rekeyed and zeroed. -/
  | clusterRepair (cl : Nat)
  /-- NODE_ALIAS_INSTALL (R422). The fabric manager aliases a failed node to a spare package. -/
  | nodeAliasInstall (failed : Nat) (spare : Nat)
  /-- QUARANTINE_SELF_TEST (R423). A quarantined cluster completes built-in self-test. -/
  | quarantineSelfTest (cl : Nat) (pass : Bool)
  /-- SPARE_FILL (R431). A repaired unit is zeroed and restored, one fill at a time per job. -/
  | spareFill (die : Nat)
  /-- CORE_RESET_AFTER_HALT (R236). A halted core with no grains left is reset and returned to service. -/
  | coreResetAfterHalt (core : Nat)
  /-- ROUTER_CYCLE (R410). Each clk a router assigns arriving flits by age, then deflects, then injects. -/
  | routerCycle (cl : Nat)
  /-- FABRIC_FALLBACK (R415). Routers adopt fall-back routing after a ring loses a link or package. -/
  | fabricFallback (node : Nat)
  /-- REQUEST_RESEND_TIMEOUT (R415). A request unanswered for 50 µs is resent, up to three times. -/
  | requestResendTimeout (loc : Loc) (op : Nat)
  /-- CONGESTION_NOTICE (R414). A notice halves the source's window toward a target and tier. -/
  | congestionNotice (node : Nat) (target : Nat) (tier : Fin 3)
  /-- WINDOW_GROWTH_TIMER (R414). Every 4 µs without a notice the window grows by one. -/
  | windowGrowthTimer (node : Nat) (target : Nat) (tier : Fin 3)
  /-- TIER_STARVATION_GRANT (R413). A tier waiting 1,024 flit times is granted the next slot. -/
  | tierStarvationGrant (node : Nat) (port : Fin 6)
  /-- LINK_AUTH_FAILURE (R391). A sealed flit group fails authentication and is resent. -/
  | linkAuthFailure (node : Nat) (port : Fin 6)
  /-- LINK_TRAIN_DOWN (R412). A port losing lanes trains down to 12 lanes. -/
  | linkTrainDown (node : Nat) (port : Fin 6)
  /-- KEY_INSTALL (R393). A key is installed into an empty key slot of a link. -/
  | keyInstall (node : Nat) (port : Fin 6) (ctx : BitVec 12) (key : KeyPair)
  /-- KEY_ACTIVATE (R393). A ready key slot becomes active and the previous one drains. -/
  | keyActivate (node : Nat) (port : Fin 6) (ctx : BitVec 12) (slot : Fin 4)
  /-- KEY_SLOT_RETIRE (R393). A draining slot with no outstanding requests is erased. -/
  | keySlotRetire (node : Nat) (port : Fin 6) (ctx : BitVec 12) (slot : Fin 4)
  /-- POWER_CONTROL_TICK (R434). Every 10 µs the head adjusts the array duty from average power. -/
  | powerControlTick (node : Nat) (watts : Nat)
  /-- ISSUE_THROTTLE (R434). Duty 1 exceeding the limit for 10 ms halves core issue. -/
  | issueThrottle (node : Nat)
  /-- DROOP_ALARM (R434). A droop alarm stalls every array for 64 clk. -/
  | droopAlarm (node : Nat)
  /-- THERMAL_THROTTLE (R435). A die at 105 °C sets its array duty to 1. -/
  | thermalThrottle (die : Nat)
  /-- THERMAL_TRIP (R435). A die at 115 °C fences the package. -/
  | thermalTrip (die : Nat)
  /-- SET_POWER_LIMIT (R434). The board sets the package limit through a PLDM effecter. -/
  | setPowerLimit (node : Nat) (watts : Nat)
  /-- POWER_GOOD_BOOT (R432). Power-good starts the measured boot sequence. -/
  | powerGoodBoot (node : Nat) (img : BootImages)
  /-- LIFE_LOG_RECORD (R436). A life-log record is appended every 10 minutes or at a fault. -/
  | lifeLogRecord (node : Nat)
  /-- GET_LIFE_LOG_RECORD (R437). Returns a life-log record by sequence number. -/
  | getLifeLogRecord (node : Nat) (seq : Word)
  /-- FIRMWARE_UPDATE (R433). A PLDM update writes the non-accepted copy of a region. -/
  | firmwareUpdate (node : Nat) (region : FlashRegion) (img : FlashImage)
  /-- GET_VERSION (R401). SPDM request for supported versions. -/
  | getVersion (node : Nat)
  /-- GET_CAPABILITIES (R401). SPDM request for capabilities. -/
  | getCapabilities (node : Nat)
  /-- NEGOTIATE_ALGORITHMS (R401). SPDM request selecting algorithms. -/
  | negotiateAlgorithms (node : Nat) (offer : AlgOffer)
  /-- GET_DIGESTS (R401). SPDM request for certificate digests. -/
  | getDigests (node : Nat)
  /-- GET_CERTIFICATE (R401). SPDM request for the certificate chain. -/
  | getCertificate (node : Nat) (slot : Nat) (offset : Nat) (length : Nat)
  /-- CHALLENGE (R401). SPDM challenge signed with the alias key. -/
  | challenge (node : Nat) (nonce : BitVec 256)
  /-- GET_MEASUREMENTS (R402). SPDM request returning the measurement registers. -/
  | getMeasurements (node : Nat) (index : Nat) (nonce : BitVec 256)
  /-- KEY_EXCHANGE (R401). SPDM request starting a secured session. -/
  | keyExchange (node : Nat) (who : SessionOwner) (pub : BitVec 768)
  /-- FINISH (R401). SPDM request completing a session handshake. -/
  | finish (node : Nat) (session : Nat) (macOk : Bool)
  /-- END_SESSION (R401). SPDM request ending a secured session. -/
  | endSession (node : Nat) (session : Nat)
  /-- SECURED_KEY_INSTALL_MESSAGE (R401). Secured vendor message installing a link or data key. -/
  | securedKeyInstallMessage (node : Nat) (session : Nat) (msg : KeyMsg)
  /-- STORE_PERFORMED (R279). A store held in the core's store buffer is performed at its owner, waking local and remote watchers and ending the waits of releases, fences, MIGR and PROTW. -/
  | storePerformed (loc : Loc)
  /-- INVPG_COMPLETION (R231). INVPG or INVPGR completes once translations are gone, L2 lines are written back and, for INVPGR, 65,536 clk have passed, and the parked grain or the invalidate command resumes. -/
  | invpgCompletion (who : InvWaiter)
  /-- POWER_LOSS (R433). The supply is lost, abandoning any life-log record or flash copy being written, and the next boot counts an unclean shutdown. -/
  | powerLoss (node : Nat)
  /-- TDISP_STATE_REQUEST (R401). A TDISP request moves a context's device interface between its configuration, locked and run states, and so decides which requesters may issue context commands. -/
  | tdispStateRequest (node : Nat) (ctx : BitVec 12) (state : Tdisp) (requester : Nat)
  deriving DecidableEq, Repr

end Sys2Proof
end

