-- ==== Sys2Proof/WellFormed.lean ====
section
/-! DEFINITION. Well-formedness of an instruction: the limits that the encodings of spec/03_encoding_and_assembly.md put on its
operands and that the instruction's bits alone decide (checks 3 and 4 of R79). Event rows have no encoding and no limits here. -/

namespace Sys2Proof

/-- Floating-point element types. -/
def EType.isFloat : EType → Bool
  | .f16 | .bf16 | .f32 | .f64 => true
  | _ => false

/-- At most three XIMM words (R75). -/
def chunksOk (cs : List Chunk) : Bool := decide (cs.length ≤ 3)

/-- g0 to g9 (R81). -/
def gOk (r : Reg) : Bool := decide (r.toNat < 10)

/-- g0 to g9 or zr (R81). -/
def zrOk (r : Reg) : Bool := gOk r || r == 14#4

/-- A destination of a general format: everything but code 15 (R20). -/
def dstOk (r : Reg) : Bool := r != 15#4

/-- The data field of format S: g0 to g9, zr or the PC (R81). -/
def storeSrcOk (r : Reg) : Bool := zrOk r || r == 15#4

/-- An inclusive range. -/
def inRange (v lo hi : Int) : Bool := decide (lo ≤ v) && decide (v ≤ hi)

/-- Binary INT: functions of page 1 carry an XPAGE (R83); a destination is never code 15. -/
def aluWf (page : Nat) (form : AluForm) (d : Reg) : Bool :=
  dstOk d && (page == 0 || form != .bare)

/-- A code named through a bank of R78: bank 001 does not name streams. -/
def bankCodeOk (bank : BitVec 3) (r : Reg) : Bool :=
  bank != 1#3 || !(decide (10 ≤ r.toNat) && decide (r.toNat ≤ 13))

/-- The limits of XREG in MOV (R78). -/
def movWf (a : MovArgs) : Bool :=
  match a.xr with
  | none => dstOk a.d
  | some x =>
    decide (x.d.toNat ≤ 2) && decide (x.s.toNat ≤ 2) && x.t == 0#3 && !(x.d == 2#3 && x.s == 2#3)
      && bankCodeOk x.d a.d && bankCodeOk x.s a.s && (x.d == 2#3 || dstOk a.d)
      && (!x.hi || x.d == 2#3 || x.s == 2#3)

/-- A VOP source named through bank `b`. -/
def vopSrcOk (b : BitVec 3) (r : Option Reg) : Bool :=
  decide (b.toNat ≤ 2) && (match r with | some r => bankCodeOk b r | none => true)

/-- The limits of XREG in VOP (R78): d is 000 or 010, s and t may also be 001, bit 0 is 0. -/
def vopXregOk (x : Option XReg) (_d : Option Reg) (s t : Option Reg) : Bool :=
  match x with
  | none => true
  | some x => (x.d == 0#3 || x.d == 2#3) && vopSrcOk x.s s && vopSrcOk x.t t && !x.hi

/-- The a field of VLD and VST: a pointer with an offset, or a stream without one (R185). -/
def vmemBaseOk (a : Reg) (off : List Chunk) : Bool :=
  gOk a || (decide (a.toNat ≤ 13) && off.isEmpty)

/-- The control-register index of R97. -/
def crIndex (lo : BitVec 4) (hi : Option (BitVec 4)) : Nat := 16 * (hi.getD 0#4).toNat + lo.toNat

/-- The indexes listed in R37. -/
def crIndexOk (lo : BitVec 4) (hi : Option (BitVec 4)) : Bool := decide (crIndex lo hi ≤ 9)

/-- LAUNCH_PAGE and REDUCE_FLAGS are read-only (R37). -/
def crReadOnly (lo : BitVec 4) (hi : Option (BitVec 4)) : Bool := crIndex lo hi == 1 || crIndex lo hi == 9

/-- The limits of an instruction that its bits decide. DEDUCED: the g field of RDSIG and NDVAL names g0-g9 or zr, and that of INVPG, INVPGR,
SPILL, FILL and SEGLD g0-g9 (R97; notes/assumptions/68.md). -/
def Instr.wf : Instr → Bool
  | .mov a => movWf a
  | .add a => aluWf 0 a.form a.d
  | .sub a => aluWf 0 a.form a.d
  | .and a => aluWf 0 a.form a.d
  | .or a => aluWf 0 a.form a.d
  | .xor a => aluWf 0 a.form a.d
  | .andn a => aluWf 0 a.form a.d
  | .shl a => aluWf 0 a.form a.d
  | .shr a => aluWf 0 a.form a.d
  | .sar a => aluWf 0 a.form a.d
  | .mul a => aluWf 0 a.form a.d
  | .mulh a => aluWf 0 a.form a.d
  | .min a => aluWf 0 a.form a.d
  | .max a => aluWf 0 a.form a.d
  | .addp a => aluWf 0 a.form a.d
  | .subp a => aluWf 0 a.form a.d
  | .mulhn a => aluWf 1 a.form a.d
  | .div a => aluWf 1 a.form a.d
  | .divn a => aluWf 1 a.form a.d
  | .rem a => aluWf 1 a.form a.d
  | .remn a => aluWf 1 a.form a.d
  | .minn a => aluWf 1 a.form a.d
  | .maxn a => aluWf 1 a.form a.d
  | .rol a => aluWf 1 a.form a.d
  | .ror a => aluWf 1 a.form a.d
  | .clz a => dstOk a.d
  | .ctz a => dstOk a.d
  | .popc a => dstOk a.d
  | .brev a => dstOk a.d
  | .bswap a => dstOk a.d
  | .sext a => dstOk a.d && decide (a.w.toNat < 3)
  | .zext a => dstOk a.d && decide (a.w.toNat < 3)
  | .addi a => dstOk a.d && chunksOk a.imm.chunks
  | .subi a => dstOk a.d && chunksOk a.imm.chunks
  | .andi a => dstOk a.d && chunksOk a.imm.chunks
  | .ori a => dstOk a.d && chunksOk a.imm.chunks
  | .xori a => dstOk a.d && chunksOk a.imm.chunks
  | .shli a => dstOk a.d && chunksOk a.imm.chunks && inRange (a.imm.val false) 0 63
  | .shri a => dstOk a.d && chunksOk a.imm.chunks && inRange (a.imm.val false) 0 63
  | .sari a => dstOk a.d && chunksOk a.imm.chunks && inRange (a.imm.val false) 0 63
  | .muli a => dstOk a.d && chunksOk a.imm.chunks
  | .roli a => dstOk a.d && chunksOk a.imm.chunks && inRange (a.imm.val false) 0 63
  | .bfx a => dstOk a.d && decide (a.width.toNat + 1 + a.pos.toNat ≤ 64)
  | .bfi a => dstOk a.d && decide (a.width.toNat + 1 + a.pos.toNat ≤ 64)
  | .pfmt a => dstOk a.d && chunksOk a.imm.chunks && inRange (a.imm.val false) 0 63
  | .pblk a => dstOk a.d && chunksOk a.imm.chunks && inRange (a.imm.val false) 0 7
  | .pseg a => dstOk a.d && chunksOk a.imm.chunks && inRange (a.imm.val false) 0 7
  | .pclr a => dstOk a.d
  | .li a => dstOk a.d && chunksOk a.imm.chunks
  | .liLane a => zrOk a.d && chunksOk a.imm.chunks && inRange (a.imm.val false) 0 65535
  | .ceq _ => true
  | .cne _ => true
  | .clt _ => true
  | .cge _ => true
  | .cltn _ => true
  | .cgen _ => true
  | .ctst _ => true
  | .ctstn _ => true
  | .ceqi a => chunksOk a.imm.chunks
  | .cnei a => chunksOk a.imm.chunks
  | .clti a => chunksOk a.imm.chunks
  | .cgei a => chunksOk a.imm.chunks
  | .cltni a => chunksOk a.imm.chunks
  | .cgeni a => chunksOk a.imm.chunks
  | .plog _ => true
  | .pxfer a => gOk a.g
  | .ld a => zrOk a.d && gOk a.a && chunksOk a.off
  | .ldi a => a.xp && zrOk a.d && gOk a.a && chunksOk a.off && a.d != a.a
  | .ld8 a => a.xp && zrOk a.d && gOk a.a && chunksOk a.off
  | .ld16 a => a.xp && zrOk a.d && gOk a.a && chunksOk a.off
  | .ld32 a => a.xp && zrOk a.d && gOk a.a && chunksOk a.off
  | .ld64 a => a.xp && zrOk a.d && gOk a.a && chunksOk a.off
  | .ldn8 a => a.xp && zrOk a.d && gOk a.a && chunksOk a.off
  | .ldn16 a => a.xp && zrOk a.d && gOk a.a && chunksOk a.off
  | .ldn32 a => a.xp && zrOk a.d && gOk a.a && chunksOk a.off
  | .ldacq a => zrOk a.d && gOk a.a && chunksOk a.off && a.xp
  | .pref a => gOk a.a && chunksOk a.off
  | .ldrec a => gOk a.a && chunksOk a.off
  | .st a => storeSrcOk a.s && gOk a.a && chunksOk a.off
  | .sti a => storeSrcOk a.s && gOk a.a && chunksOk a.off && a.s != a.a
  | .st8 a => storeSrcOk a.s && gOk a.a && chunksOk a.off
  | .st16 a => storeSrcOk a.s && gOk a.a && chunksOk a.off
  | .st32 a => storeSrcOk a.s && gOk a.a && chunksOk a.off
  | .st64 a => storeSrcOk a.s && gOk a.a && chunksOk a.off
  | .strel a => storeSrcOk a.s && gOk a.a && chunksOk a.off && (a.xp || a.sc == .core)
  | .stnt a => storeSrcOk a.s && gOk a.a && chunksOk a.off
  | .aadd a => zrOk a.d && gOk a.a && chunksOk a.off && (a.xp || a.ord == ⟨false, false⟩)
  | .amin a => zrOk a.d && gOk a.a && chunksOk a.off && a.xp
  | .amax a => zrOk a.d && gOk a.a && chunksOk a.off && a.xp
  | .aminn a => zrOk a.d && gOk a.a && chunksOk a.off && a.xp
  | .amaxn a => zrOk a.d && gOk a.a && chunksOk a.off && a.xp
  | .aand a => zrOk a.d && gOk a.a && chunksOk a.off && a.xp
  | .aor a => zrOk a.d && gOk a.a && chunksOk a.off && a.xp
  | .axor a => zrOk a.d && gOk a.a && chunksOk a.off && a.xp
  | .aswap a => zrOk a.d && gOk a.a && chunksOk a.off && a.xp
  | .acas a => decide (a.d.toNat ≤ 8) && gOk a.a && chunksOk a.off && a.xp
  | .afadd a => zrOk a.d && gOk a.a && chunksOk a.off && a.xp
  | .afmin a => zrOk a.d && gOk a.a && chunksOk a.off && a.xp
  | .afmax a => zrOk a.d && gOk a.a && chunksOk a.off && a.xp
  | .migr a => gOk a.a && chunksOk a.off
  | .rupd a => (if a.op == 9#4 then decide (a.d.toNat ≤ 8) else zrOk a.d) && gOk a.a && chunksOk a.off && decide (a.op.toNat ≤ 12)
  | .spawn a => a.xp && zrOk a.d && gOk a.a && chunksOk a.off
  | .seqwait a => zrOk a.d && gOk a.a && chunksOk a.off && (a.xp || a.sc == .core)
  | .seqadv a => zrOk a.d && gOk a.a && chunksOk a.off && a.xp
  | .watch a => zrOk a.d && gOk a.a && chunksOk a.off
  | .waitw a => zrOk a.d && a.mask != 0#4
  | .barw _ => true
  | .fence _ => true
  | .send a => zrOk a.d && gOk a.a
  | .recv a => zrOk a.d
  | .recvn a => zrOk a.d
  | .recvs a => zrOk a.d && gOk a.a
  | .chstat a => zrOk a.d
  | .clean a => gOk a.a && chunksOk a.off
  | .shfence _ => true
  | .xpull a => gOk a.a && chunksOk a.off
  | .xfill a => gOk a.a && chunksOk a.off
  | .xstat a => a.xp && zrOk a.d && gOk a.a && chunksOk a.off
  | .vmov a => vopXregOk a.xr none (some a.s) none
  | .vadd a => vopXregOk a.xr none (some a.s) a.t && (a.ty.isSome || (a.t.isNone && !a.sat)) && !(a.sat && a.ty.any EType.isFloat)
  | .vsub a => vopXregOk a.xr none (some a.s) a.t && (a.ty.isSome || (a.t.isNone && !a.sat)) && !(a.sat && a.ty.any EType.isFloat)
  | .vmul a => vopXregOk a.xr none (some a.s) a.t && (a.ty.isSome || (a.t.isNone && !a.sat)) && !a.sat
  | .vfma a => vopXregOk a.xr none (some a.s) (some a.t)
  | .vmin a => vopXregOk a.xr none (some a.s) a.t && (a.ty.isSome || (a.t.isNone && !a.sat)) && !a.sat
  | .vmax a => vopXregOk a.xr none (some a.s) a.t && (a.ty.isSome || (a.t.isNone && !a.sat)) && !a.sat
  | .vand a => vopXregOk a.xr none (some a.s) a.t && (a.ty.isSome || (a.t.isNone && !a.sat)) && !a.sat
  | .vor a => vopXregOk a.xr none (some a.s) a.t && (a.ty.isSome || (a.t.isNone && !a.sat)) && !a.sat
  | .vxor a => vopXregOk a.xr none (some a.s) a.t && (a.ty.isSome || (a.t.isNone && !a.sat)) && !a.sat
  | .vshl a => vopXregOk a.xr none (some a.s) a.t && (a.ty.isSome || (a.t.isNone && !a.sat)) && !a.sat && !(a.ty.any EType.isFloat)
  | .vshr a => vopXregOk a.xr none (some a.s) a.t && (a.ty.isSome || (a.t.isNone && !a.sat)) && !a.sat && !(a.ty.any EType.isFloat)
  | .vabs a => vopXregOk a.xr none (some a.s) none
  | .vneg a => vopXregOk a.xr none (some a.s) none
  | .vcvt a => vopXregOk a.xr none (some a.s) none && (a.ty.isSome || (a.dst == .n8 && !a.sat)) && (!a.sat || (!a.dst.isFloat && !(a.ty.any EType.isFloat)))
  | .vcmp a => vopXregOk a.xr none (some a.s) (some a.t)
  | .vld a => vmemBaseOk a.a a.off && chunksOk a.off
  | .vst a => vmemBaseOk a.a a.off && chunksOk a.off
  | .vgath a => gOk a.a && chunksOk a.off && (a.ty.isSome || a.vi == 0#4)
  | .vscat a => gOk a.a && chunksOk a.off && (a.ty.isSome || a.vi == 0#4)
  | .vbcast _ => true
  | .vextr a => gOk a.d && (a.ty.isSome || a.lane == 0#5)
  | .vins a => gOk a.s && (a.ty.isSome || a.lane == 0#5)
  | .vshuf a => a.ty.isSome || a.t == 0#4
  | .vrsum _ => true
  | .vdot a => a.ty.isSome || a.t == 0#4
  | .vsel a => (a.ty.isSome || (a.t == 0#4 && !a.hi))
  | .vqnt a => (a.ty.isSome || (a.t == 0#4 && !a.hi)) && gOk a.t && !(a.ty.any fun t => t != .f16 && t != .bf16 && t != .f32)
  | .vdqnt a => gOk a.a && chunksOk a.off && (a.ty.isNone || a.ty == some .f32)
  | .vaccr a => a.ty.isSome || (a.tile == 0#2 && a.quarter == 0#2)
  | .vaccw a => a.ty.isSome || (a.tile == 0#2 && a.quarter == 0#2)
  | .vmovp a => a.ty.isSome || (!a.toPred && !a.bank)
  | .vrcp a => a.ty.isFloat
  | .vrsq a => a.ty.isFloat
  | .vsqrt a => a.ty.isFloat
  | .vexp2 a => a.ty.isFloat
  | .vlog2 a => a.ty.isFloat
  | .vsin a => a.ty.isFloat
  | .vcos a => a.ty.isFloat
  | .vtanh a => a.ty.isFloat
  | .vloop a => gOk a.g
  | .vsync _ => true
  | .vgang _ => true
  | .vsplit _ => true
  | .vsett _ => true
  | .br a => chunksOk a.off.chunks
  | .jmp a => chunksOk a.off.chunks
  | .jmpr a => gOk a.r
  | .call a => chunksOk a.off.chunks
  | .callr a => gOk a.r
  | .ret _ => true
  | .exit _ => true
  | .yield _ => true
  | .nop _ => true
  | .loop a => gOk a.g && chunksOk a.off.chunks
  | .getid a => dstOk a.d && decide (a.sel.toNat ≤ 6)
  | .clock a => dstOk a.r
  | .rand a => dstOk a.r
  | .brk _ => true
  | .rhome _ => true
  | .mma a => decide (a.a.toNat ≤ 13) && chunksOk a.k && !a.k.isEmpty && inRange (offsetVal a.k) 1 4095 && (a.xp || a.w == 0#3)
  | .mmai a => a.xp && gOk a.a && chunksOk a.k && !a.k.isEmpty && inRange (offsetVal a.k) 1 4095
  | .mzero _ => true
  | .mldc a => gOk a.a && chunksOk a.off
  | .mstc a => gOk a.a && chunksOk a.off
  | .wbld a => gOk a.a && chunksOk a.off
  | .wbinv _ => true
  | .macq _ => true
  | .mrel _ => true
  | .sbind a => gOk a.a && chunksOk a.off
  | .sunbind _ => true
  | .sstat a => zrOk a.d
  | .sdrain _ => true
  | .rwpop _ => true
  | .rwpush a => zrOk a.d && gOk a.a
  | .nalloc a => zrOk a.d && gOk a.a
  | .nfree a => gOk a.a
  | .nld a => zrOk a.d && gOk a.a && chunksOk a.w && !a.w.isEmpty && inRange (offsetVal a.w) 0 3
  | .nst a => zrOk a.d && gOk a.a && a.la == 0#4 && chunksOk a.w && !a.w.isEmpty && inRange (offsetVal a.w) 0 3
  | .pxchg a => zrOk a.d && gOk a.a
  | .plink a => zrOk a.d && gOk a.a
  | .nref a => zrOk a.d && gOk a.a && chunksOk a.w && !a.w.isEmpty && inRange (offsetVal a.w) 0 3
  | .nown a => zrOk a.d && gOk a.a
  | .rwdone _ => true
  | .trap a => decide (a.imm.chunks.length ≤ 2)
  | .mcall _ => true
  | .mret _ => true
  | .crrd a => zrOk a.g && crIndexOk a.lo a.hi
  | .crwr a => zrOk a.g && crIndexOk a.lo a.hi && !crReadOnly a.lo a.hi
  | .segset _ => true
  | .segget _ => true
  | .segld a => gOk a.a
  | .invpg a => gOk a.a && (a.xp || a.size == .p4k)
  | .invpgr a => gOk a.a && (a.xp || a.size == .p4k)
  | .protw _ => true
  | .spill a => gOk a.r
  | .fill a => gOk a.r
  | .rdsig a => zrOk a.r
  | .ndval a => zrOk a.d && (a.xp || !a.rand)
  | .halt _ => true
  | .barrelIssueCycle .. | .longLatencyResult .. | .tlbWalkComplete .. | .sliceExpiry .. | .priorityPreempt .. | .spillComplete .. | .fillComplete .. | .remoteWatchInsert .. | .remoteWatchWake .. | .watchPollTimer .. | .barrierStaggerResume .. | .channelFlitArrival .. | .channelWatchdogExpiry .. | .macqWatchdogExpiry .. | .bagPushWatchdogExpiry .. | .migrationArrival .. | .spawnArrival .. | .arrivalRetry .. | .excursionAtOwner .. | .excursionReturn .. | .remoteUpdateApply .. | .bursarAtomic .. | .copyCommandStart .. | .copyCommandComplete .. | .burstWindowClose .. | .sequencerEntryStart .. | .sequencerEntryComplete .. | .mmaStart .. | .mmaComplete .. | .weightSlotReload .. | .inputStreamFetch .. | .outputStreamLineWrite .. | .randValueReady .. | .forwardedValueArrival .. | .replicaCompareFlit .. | .externalAtomicResult .. | .pairRecordArrival .. | .stealRetryTimer .. | .netSweep .. | .epochAdopt .. | .faultReport .. | .launchStopAtCore .. | .launchComplete .. | .completionWrite .. | .queueTailWrite .. | .queueEnable .. | .queueDisable .. | .queueAbort .. | .configurationWrite .. | .launchRecordRead .. | .schedulerRound .. | .launchPlace .. | .graphNodeDispatch .. | .contextCreate .. | .contextDestroy .. | .contextInvalidate .. | .contextMigrate .. | .migrationFirstPassDone .. | .migrationFinalPassDone .. | .faultHeadWrite .. | .faultResolve .. | .checkpointTake .. | .checkpointPullStart .. | .checkpointComplete .. | .checkpointRestore .. | .coreFailureDetected .. | .clusterFailureDetected .. | .dieFailureDetected .. | .packageFailureDetected .. | .lossDeclaration .. | .coreRepair .. | .clusterRepair .. | .nodeAliasInstall .. | .quarantineSelfTest .. | .spareFill .. | .coreResetAfterHalt .. | .routerCycle .. | .fabricFallback .. | .requestResendTimeout .. | .congestionNotice .. | .windowGrowthTimer .. | .tierStarvationGrant .. | .linkAuthFailure .. | .linkTrainDown .. | .keyInstall .. | .keyActivate .. | .keySlotRetire .. | .powerControlTick .. | .issueThrottle .. | .droopAlarm .. | .thermalThrottle .. | .thermalTrip .. | .setPowerLimit .. | .powerGoodBoot .. | .lifeLogRecord .. | .getLifeLogRecord .. | .firmwareUpdate .. | .getVersion .. | .getCapabilities .. | .negotiateAlgorithms .. | .getDigests .. | .getCertificate .. | .challenge .. | .getMeasurements .. | .keyExchange .. | .finish .. | .endSession .. | .securedKeyInstallMessage .. | .storePerformed .. | .invpgCompletion .. | .powerLoss .. | .tdispStateRequest .. => true

end Sys2Proof
end

