-- ==== Sys2Proof/Decode.lean ====
section
/-! DEFINITION. The decoder and the encoder (spec/03_encoding_and_assembly.md R72-R97). A chain of 16-bit words is cut into prefixes and a
base word, the checks 1 to 4 of R79 are applied in their order, and the fields become the operands of an `Instr`. -/

namespace Sys2Proof

/-- The three ways decoding refuses an instruction (R79, checks 1 to 4). -/
inductive DecodeErr where
  | illegalOpcode
  | illegalPrefix
  | reservedField
  deriving DecidableEq, Repr

/-- A decoding step. -/
abbrev D := Except DecodeErr

/-- An instruction cut into its prefixes' payloads and its base word (R74). -/
structure Parts where
  pred : Option (BitVec 10)
  xreg : Option (BitVec 10)
  page : Option (BitVec 10)
  imms : List Chunk
  base : Half
  deriving DecidableEq, Repr

/-- Bits [15:12] of a word: its major opcode (R72). -/
def majorOf (w : Half) : BitVec 4 := w.extractLsb' 12 4

/-- Major 0xF marks a prefix (R72). -/
def isPrefix (w : Half) : Bool := majorOf w == 15#4

/-- The kind of a prefix word, bits [11:10] (R74). -/
def prefixKind (w : Half) : BitVec 2 := w.extractLsb' 10 2

/-- The payload of a prefix word, bits [9:0] (R74). -/
def payload (w : Half) : BitVec 10 := w.extractLsb' 0 10

/-- Takes the payload of the first word if it is a prefix of kind `k`. -/
def takeKind (k : BitVec 2) : List Half → Option (BitVec 10) × List Half
  | w :: ws => if prefixKind w == k then (some (payload w), ws) else (none, w :: ws)
  | [] => (none, [])

/-- The order and number of prefix kinds (R75): XPRED, XREG and XPAGE at most once, then at most three XIMM. -/
def parseChain (ps : List Half) (base : Half) : D Parts :=
  let (pred, r1) := takeKind 0#2 ps
  let (xreg, r2) := takeKind 1#2 r1
  let (page, r3) := takeKind 2#2 r2
  if decide (ps.length ≤ 4) && r3.all (fun w => prefixKind w == 3#2) && decide (r3.length ≤ 3) then
    .ok ⟨pred, xreg, page, r3.map payload, base⟩
  else .error .illegalPrefix

/-- What the words fetched so far amount to. -/
inductive Chain where
  | more                                              -- every word so far is a prefix, and a further word is needed
  | whole (ps : List Half) (base : Half)              -- prefixes and a base word
  | tooLong (fifth : Half)                            -- a fifth prefix word (R75)
  deriving DecidableEq, Repr

/-- Cuts a list of words into its leading prefixes and its base word; `n` prefixes have been seen already. -/
def cutChain : Nat → List Half → List Half → Chain
  | _, _, [] => .more
  | n, acc, w :: ws =>
    if isPrefix w then (if n = 4 then .tooLong w else cutChain (n + 1) (acc ++ [w]) ws)
    else .whole acc w

/-! ### Fields of the parts -/

/-- Bits [11:8] of the base word. -/
def Parts.d (p : Parts) : Reg := p.base.extractLsb' 8 4
/-- Bits [7:4] of the base word. -/
def Parts.s (p : Parts) : Reg := p.base.extractLsb' 4 4
/-- Bits [3:0] of the base word. -/
def Parts.f (p : Parts) : Reg := p.base.extractLsb' 0 4
/-- The 8-bit immediate of format I8, bits [7:0]. -/
def Parts.imm8 (p : Parts) : BitVec 8 := p.base.extractLsb' 0 8
/-- The 8-bit field of JMP, CALL, BREAK, TRAP and MCALL, bits [11:4]. -/
def Parts.immJ (p : Parts) : BitVec 8 := p.base.extractLsb' 4 8
/-- The XPAGE page, 0 when XPAGE is absent (R82). -/
def Parts.pageNo (p : Parts) : BitVec 4 := (p.page.getD 0#10).extractLsb' 6 4
/-- The XPAGE extra bits, 0 when XPAGE is absent (R82). -/
def Parts.ex (p : Parts) : BitVec 6 := (p.page.getD 0#10).extractLsb' 0 6
/-- `n` extra bits from bit `lo`. -/
def Parts.exb (p : Parts) (lo n : Nat) : BitVec n := p.ex.extractLsb' lo n
/-- XIMM chunk number `i`. -/
def Parts.imm (p : Parts) (i : Nat) : Chunk := p.imms.getD i 0#10

/-- Check 3 of R79: the prefix kinds an instruction takes, and how many XIMM words. -/
def Parts.accept (p : Parts) (pred xreg page : Bool) (lo hi : Nat) : D Unit :=
  if (pred || p.pred.isNone) && (xreg || p.xreg.isNone) && (page || p.page.isNone)
      && decide (lo ≤ p.imms.length) && decide (p.imms.length ≤ hi) then .ok ()
  else .error .illegalPrefix

/-- Check 4 of R79 on fields that must be zero. -/
def zeros (l : List Bool) : D Unit := if l.all id then .ok () else .error .reservedField

/-- XPRED: index [9:5], sense [4], [3:0] zero (R74). -/
def Parts.guard (p : Parts) : D (Option Guard) :=
  match p.pred with
  | none => .ok none
  | some b => if b.extractLsb' 0 4 == 0#4 then .ok (some ⟨b.extractLsb' 5 5, b.extractLsb' 4 1 == 1#1⟩) else .error .reservedField

/-- XREG: banks of d, s and t, and the half bit (R74). -/
def Parts.xr (p : Parts) : Option XReg :=
  p.xreg.map fun b => ⟨b.extractLsb' 7 3, b.extractLsb' 4 3, b.extractLsb' 1 3, b.extractLsb' 0 1 == 1#1⟩

/-- The operand shape of a binary INT (R83). -/
def Parts.aluForm (p : Parts) : AluForm :=
  if p.page.isNone then .bare else if p.exb 4 1 == 1#1 then .three (p.exb 0 4) else .two

/-- The destination field of a binary INT. -/
def Parts.aluD (p : Parts) : Reg := p.d
/-- The source field of a binary INT. -/
def Parts.aluS (p : Parts) : Reg := p.s

/-- The destination predicate of CMP, absent with XPAGE (R86). -/
def Parts.predDst (p : Parts) : Option (BitVec 5) := p.page.map fun b => b.extractLsb' 0 5

/-- The third register of a three-address VOP (R89). -/
def Parts.third (p : Parts) : Option Reg := if p.exb 4 1 == 1#1 then some (p.exb 0 4) else none

/-- Element-type codes (R24). -/
def etypeOf (c : BitVec 4) : D EType :=
  match c.toNat with
  | 0 => .ok .n8 | 1 => .ok .i8 | 2 => .ok .n16 | 3 => .ok .i16 | 4 => .ok .n32 | 5 => .ok .i32
  | 6 => .ok .n64 | 7 => .ok .i64 | 8 => .ok .f16 | 9 => .ok .bf16 | 10 => .ok .f32 | 11 => .ok .f64
  | _ => .error .reservedField

/-- The element type XPAGE gives, if there is one (R173). -/
def Parts.ty (p : Parts) : D (Option EType) :=
  match p.page with
  | none => .ok none
  | some b => (etypeOf (b.extractLsb' 6 4)).map some

/-- The element type of a function that exists only with XPAGE. -/
def Parts.tyReq (p : Parts) : D EType :=
  match p.page with
  | none => .error .reservedField
  | some b => etypeOf (b.extractLsb' 6 4)

/-- Scope codes (R87). -/
def scopeOf (c : BitVec 3) : D Scope :=
  match c.toNat with
  | 0 => .ok .core | 1 => .ok .cluster | 2 => .ok .die | 3 => .ok .package | 4 => .ok .system
  | _ => .error .reservedField

/-- The scope in extra[2:0]. -/
def Parts.scope (p : Parts) : D Scope := scopeOf (p.exb 0 3)

/-- The fence kind in extra[4:3] (R94). -/
def Parts.fenceKind (p : Parts) : D FenceKind :=
  match (p.exb 3 2).toNat with
  | 0 => .ok .all | 1 => .ok .loads | 2 => .ok .stores
  | _ => .error .reservedField

/-- VCMP conditions (R89). -/
def condOf (c : BitVec 4) : D VCond :=
  match c.toNat with
  | 0 => .ok .eq | 1 => .ok .ne | 2 => .ok .lt | 3 => .ok .ge
  | _ => .error .reservedField

/-- A one-hot tile mask (R201, R202). -/
def tileOfMask (m : BitVec 4) : D (BitVec 2) :=
  match m.toNat with
  | 1 => .ok 0#2 | 2 => .ok 1#2 | 4 => .ok 2#2 | 8 => .ok 3#2
  | _ => .error .reservedField

/-- WBINV's slot, or all with extra[3] (R209). -/
def wbinvOf (c : BitVec 4) : D (Option (BitVec 3)) :=
  if c.extractLsb' 3 1 == 0#1 then .ok (some (c.extractLsb' 0 3))
  else if c.extractLsb' 0 3 == 0#3 then .ok none else .error .reservedField

/-- Page-size codes (R97). -/
def sizeOf (c : BitVec 3) : D PageSize :=
  match c.toNat with
  | 0 => .ok .p4k | 1 => .ok .p64k | 2 => .ok .p2m | 3 => .ok .p64m | 4 => .ok .p512m
  | _ => .error .reservedField

/-! ### The opcode map (R82-R97) -/

/-- INT page 0 (R83). -/
def decodeInt0 (p : Parts) : D Instr :=
  match p.f.toNat with
  | 0 => do p.accept true true true 0 0; zeros [p.ex == 0#6]; let gd ← p.guard; pure (.mov { gd := gd, xr := p.xr, xp := p.page.isSome, d := p.d, s := p.s })
  | 1 => do p.accept true false true 0 0; zeros [p.exb 5 1 == 0#1, (p.exb 4 1 == 1#1 || p.exb 0 4 == 0#4)]; let gd ← p.guard; pure (.add { gd := gd, form := p.aluForm, d := p.aluD, s := p.aluS })
  | 2 => do p.accept true false true 0 0; zeros [p.exb 5 1 == 0#1, (p.exb 4 1 == 1#1 || p.exb 0 4 == 0#4)]; let gd ← p.guard; pure (.sub { gd := gd, form := p.aluForm, d := p.aluD, s := p.aluS })
  | 3 => do p.accept true false true 0 0; zeros [p.exb 5 1 == 0#1, (p.exb 4 1 == 1#1 || p.exb 0 4 == 0#4)]; let gd ← p.guard; pure (.and { gd := gd, form := p.aluForm, d := p.aluD, s := p.aluS })
  | 4 => do p.accept true false true 0 0; zeros [p.exb 5 1 == 0#1, (p.exb 4 1 == 1#1 || p.exb 0 4 == 0#4)]; let gd ← p.guard; pure (.or { gd := gd, form := p.aluForm, d := p.aluD, s := p.aluS })
  | 5 => do p.accept true false true 0 0; zeros [p.exb 5 1 == 0#1, (p.exb 4 1 == 1#1 || p.exb 0 4 == 0#4)]; let gd ← p.guard; pure (.xor { gd := gd, form := p.aluForm, d := p.aluD, s := p.aluS })
  | 6 => do p.accept true false true 0 0; zeros [p.exb 5 1 == 0#1, (p.exb 4 1 == 1#1 || p.exb 0 4 == 0#4)]; let gd ← p.guard; pure (.andn { gd := gd, form := p.aluForm, d := p.aluD, s := p.aluS })
  | 7 => do p.accept true false true 0 0; zeros [p.exb 5 1 == 0#1, (p.exb 4 1 == 1#1 || p.exb 0 4 == 0#4)]; let gd ← p.guard; pure (.shl { gd := gd, form := p.aluForm, d := p.aluD, s := p.aluS })
  | 8 => do p.accept true false true 0 0; zeros [p.exb 5 1 == 0#1, (p.exb 4 1 == 1#1 || p.exb 0 4 == 0#4)]; let gd ← p.guard; pure (.shr { gd := gd, form := p.aluForm, d := p.aluD, s := p.aluS })
  | 9 => do p.accept true false true 0 0; zeros [p.exb 5 1 == 0#1, (p.exb 4 1 == 1#1 || p.exb 0 4 == 0#4)]; let gd ← p.guard; pure (.sar { gd := gd, form := p.aluForm, d := p.aluD, s := p.aluS })
  | 10 => do p.accept true false true 0 0; zeros [p.exb 5 1 == 0#1, (p.exb 4 1 == 1#1 || p.exb 0 4 == 0#4)]; let gd ← p.guard; pure (.mul { gd := gd, form := p.aluForm, d := p.aluD, s := p.aluS })
  | 11 => do p.accept true false true 0 0; zeros [p.exb 5 1 == 0#1, (p.exb 4 1 == 1#1 || p.exb 0 4 == 0#4)]; let gd ← p.guard; pure (.mulh { gd := gd, form := p.aluForm, d := p.aluD, s := p.aluS })
  | 12 => do p.accept true false true 0 0; zeros [p.exb 5 1 == 0#1, (p.exb 4 1 == 1#1 || p.exb 0 4 == 0#4)]; let gd ← p.guard; pure (.min { gd := gd, form := p.aluForm, d := p.aluD, s := p.aluS })
  | 13 => do p.accept true false true 0 0; zeros [p.exb 5 1 == 0#1, (p.exb 4 1 == 1#1 || p.exb 0 4 == 0#4)]; let gd ← p.guard; pure (.max { gd := gd, form := p.aluForm, d := p.aluD, s := p.aluS })
  | 14 => do p.accept true false true 0 0; zeros [p.exb 5 1 == 0#1, (p.exb 4 1 == 1#1 || p.exb 0 4 == 0#4)]; let gd ← p.guard; pure (.addp { gd := gd, form := p.aluForm, d := p.aluD, s := p.aluS })
  | 15 => do p.accept true false true 0 0; zeros [p.exb 5 1 == 0#1, (p.exb 4 1 == 1#1 || p.exb 0 4 == 0#4)]; let gd ← p.guard; pure (.subp { gd := gd, form := p.aluForm, d := p.aluD, s := p.aluS })
  | _ => .error .illegalOpcode

/-- INT page 1 (R83). -/
def decodeInt1 (p : Parts) : D Instr :=
  match p.f.toNat with
  | 0 => do p.accept true false true 0 0; zeros [p.exb 5 1 == 0#1, (p.exb 4 1 == 1#1 || p.exb 0 4 == 0#4)]; let gd ← p.guard; pure (.mulhn { gd := gd, form := p.aluForm, d := p.aluD, s := p.aluS })
  | 1 => do p.accept true false true 0 0; zeros [p.exb 5 1 == 0#1, (p.exb 4 1 == 1#1 || p.exb 0 4 == 0#4)]; let gd ← p.guard; pure (.div { gd := gd, form := p.aluForm, d := p.aluD, s := p.aluS })
  | 2 => do p.accept true false true 0 0; zeros [p.exb 5 1 == 0#1, (p.exb 4 1 == 1#1 || p.exb 0 4 == 0#4)]; let gd ← p.guard; pure (.divn { gd := gd, form := p.aluForm, d := p.aluD, s := p.aluS })
  | 3 => do p.accept true false true 0 0; zeros [p.exb 5 1 == 0#1, (p.exb 4 1 == 1#1 || p.exb 0 4 == 0#4)]; let gd ← p.guard; pure (.rem { gd := gd, form := p.aluForm, d := p.aluD, s := p.aluS })
  | 4 => do p.accept true false true 0 0; zeros [p.exb 5 1 == 0#1, (p.exb 4 1 == 1#1 || p.exb 0 4 == 0#4)]; let gd ← p.guard; pure (.remn { gd := gd, form := p.aluForm, d := p.aluD, s := p.aluS })
  | 5 => do p.accept true false true 0 0; zeros [p.exb 5 1 == 0#1, (p.exb 4 1 == 1#1 || p.exb 0 4 == 0#4)]; let gd ← p.guard; pure (.minn { gd := gd, form := p.aluForm, d := p.aluD, s := p.aluS })
  | 6 => do p.accept true false true 0 0; zeros [p.exb 5 1 == 0#1, (p.exb 4 1 == 1#1 || p.exb 0 4 == 0#4)]; let gd ← p.guard; pure (.maxn { gd := gd, form := p.aluForm, d := p.aluD, s := p.aluS })
  | 7 => do p.accept true false true 0 0; zeros [p.exb 5 1 == 0#1, (p.exb 4 1 == 1#1 || p.exb 0 4 == 0#4)]; let gd ← p.guard; pure (.rol { gd := gd, form := p.aluForm, d := p.aluD, s := p.aluS })
  | 8 => do p.accept true false true 0 0; zeros [p.exb 5 1 == 0#1, (p.exb 4 1 == 1#1 || p.exb 0 4 == 0#4)]; let gd ← p.guard; pure (.ror { gd := gd, form := p.aluForm, d := p.aluD, s := p.aluS })
  | 9 => do p.accept true false true 0 0; zeros [p.ex == 0#6]; let gd ← p.guard; pure (.clz { gd := gd, d := p.d, s := p.s })
  | 10 => do p.accept true false true 0 0; zeros [p.ex == 0#6]; let gd ← p.guard; pure (.ctz { gd := gd, d := p.d, s := p.s })
  | 11 => do p.accept true false true 0 0; zeros [p.ex == 0#6]; let gd ← p.guard; pure (.popc { gd := gd, d := p.d, s := p.s })
  | 12 => do p.accept true false true 0 0; zeros [p.ex == 0#6]; let gd ← p.guard; pure (.brev { gd := gd, d := p.d, s := p.s })
  | 13 => do p.accept true false true 0 0; zeros [p.ex == 0#6]; let gd ← p.guard; pure (.bswap { gd := gd, d := p.d, s := p.s })
  | 14 => do p.accept true false true 0 0; zeros [p.exb 2 4 == 0#4]; let gd ← p.guard; pure (.sext { gd := gd, w := p.exb 0 2, d := p.d, s := p.s })
  | 15 => do p.accept true false true 0 0; zeros [p.exb 2 4 == 0#4]; let gd ← p.guard; pure (.zext { gd := gd, w := p.exb 0 2, d := p.d, s := p.s })
  | _ => .error .illegalOpcode

/-- INTI (R84). -/
def decodeInti (p : Parts) : D Instr :=
  match p.f.toNat with
  | 0 => do p.accept true false false 0 3; let gd ← p.guard; pure (.addi { gd := gd, d := p.d, imm := ⟨p.imms, p.s⟩ })
  | 1 => do p.accept true false false 0 3; let gd ← p.guard; pure (.subi { gd := gd, d := p.d, imm := ⟨p.imms, p.s⟩ })
  | 2 => do p.accept true false false 0 3; let gd ← p.guard; pure (.andi { gd := gd, d := p.d, imm := ⟨p.imms, p.s⟩ })
  | 3 => do p.accept true false false 0 3; let gd ← p.guard; pure (.ori { gd := gd, d := p.d, imm := ⟨p.imms, p.s⟩ })
  | 4 => do p.accept true false false 0 3; let gd ← p.guard; pure (.xori { gd := gd, d := p.d, imm := ⟨p.imms, p.s⟩ })
  | 5 => do p.accept true false false 0 3; let gd ← p.guard; pure (.shli { gd := gd, d := p.d, imm := ⟨p.imms, p.s⟩ })
  | 6 => do p.accept true false false 0 3; let gd ← p.guard; pure (.shri { gd := gd, d := p.d, imm := ⟨p.imms, p.s⟩ })
  | 7 => do p.accept true false false 0 3; let gd ← p.guard; pure (.sari { gd := gd, d := p.d, imm := ⟨p.imms, p.s⟩ })
  | 8 => do p.accept true false false 0 3; let gd ← p.guard; pure (.muli { gd := gd, d := p.d, imm := ⟨p.imms, p.s⟩ })
  | 9 => do p.accept true false false 0 3; let gd ← p.guard; pure (.roli { gd := gd, d := p.d, imm := ⟨p.imms, p.s⟩ })
  | 10 => do p.accept true false false 2 2; zeros [(p.imm 0).extractLsb' 6 4 == 0#4, (p.imm 1).extractLsb' 6 4 == 0#4]; let gd ← p.guard; pure (.bfx { gd := gd, d := p.d, s := p.s, width := (p.imm 0).extractLsb' 0 6, pos := (p.imm 1).extractLsb' 0 6 })
  | 11 => do p.accept true false false 2 2; zeros [(p.imm 0).extractLsb' 6 4 == 0#4, (p.imm 1).extractLsb' 6 4 == 0#4]; let gd ← p.guard; pure (.bfi { gd := gd, d := p.d, s := p.s, width := (p.imm 0).extractLsb' 0 6, pos := (p.imm 1).extractLsb' 0 6 })
  | 12 => do p.accept true false false 0 3; let gd ← p.guard; pure (.pfmt { gd := gd, d := p.d, imm := ⟨p.imms, p.s⟩ })
  | 13 => do p.accept true false false 0 3; let gd ← p.guard; pure (.pblk { gd := gd, d := p.d, imm := ⟨p.imms, p.s⟩ })
  | 14 => do p.accept true false false 0 3; let gd ← p.guard; pure (.pseg { gd := gd, d := p.d, imm := ⟨p.imms, p.s⟩ })
  | 15 => do p.accept true false false 0 0; zeros [p.s == 0#4]; let gd ← p.guard; pure (.pclr { gd := gd, d := p.d })
  | _ => .error .illegalOpcode

/-- LI (R85). -/
def decodeLi (p : Parts) : D Instr :=
  match p.pageNo.toNat with
  | 0 => do p.accept true false true 0 3; zeros [p.ex == 0#6]; let gd ← p.guard; pure (.li { gd := gd, xp := p.page.isSome, d := p.d, imm := ⟨p.imms, p.imm8⟩ })
  | 1 | 2 | 3 | 4 => do p.accept true false true 0 3; zeros [p.ex == 0#6]; let gd ← p.guard; pure (.liLane { gd := gd, lane := (p.pageNo - 1#4).extractLsb' 0 2, d := p.d, imm := ⟨p.imms, p.imm8⟩ })
  | _ => .error .illegalOpcode

/-- CMP (R86). -/
def decodeCmp (p : Parts) : D Instr :=
  match p.f.toNat with
  | 0 => do p.accept true false true 0 0; zeros [p.exb 5 1 == 0#1]; let gd ← p.guard; pure (.ceq { gd := gd, pd := p.predDst, d := p.d, s := p.s })
  | 1 => do p.accept true false true 0 0; zeros [p.exb 5 1 == 0#1]; let gd ← p.guard; pure (.cne { gd := gd, pd := p.predDst, d := p.d, s := p.s })
  | 2 => do p.accept true false true 0 0; zeros [p.exb 5 1 == 0#1]; let gd ← p.guard; pure (.clt { gd := gd, pd := p.predDst, d := p.d, s := p.s })
  | 3 => do p.accept true false true 0 0; zeros [p.exb 5 1 == 0#1]; let gd ← p.guard; pure (.cge { gd := gd, pd := p.predDst, d := p.d, s := p.s })
  | 4 => do p.accept true false true 0 0; zeros [p.exb 5 1 == 0#1]; let gd ← p.guard; pure (.cltn { gd := gd, pd := p.predDst, d := p.d, s := p.s })
  | 5 => do p.accept true false true 0 0; zeros [p.exb 5 1 == 0#1]; let gd ← p.guard; pure (.cgen { gd := gd, pd := p.predDst, d := p.d, s := p.s })
  | 6 => do p.accept true false true 0 0; zeros [p.exb 5 1 == 0#1]; let gd ← p.guard; pure (.ctst { gd := gd, pd := p.predDst, d := p.d, s := p.s })
  | 7 => do p.accept true false true 0 0; zeros [p.exb 5 1 == 0#1]; let gd ← p.guard; pure (.ctstn { gd := gd, pd := p.predDst, d := p.d, s := p.s })
  | 8 => do p.accept true false true 0 3; zeros [p.exb 5 1 == 0#1]; let gd ← p.guard; pure (.ceqi { gd := gd, pd := p.predDst, d := p.d, imm := ⟨p.imms, p.s⟩ })
  | 9 => do p.accept true false true 0 3; zeros [p.exb 5 1 == 0#1]; let gd ← p.guard; pure (.cnei { gd := gd, pd := p.predDst, d := p.d, imm := ⟨p.imms, p.s⟩ })
  | 10 => do p.accept true false true 0 3; zeros [p.exb 5 1 == 0#1]; let gd ← p.guard; pure (.clti { gd := gd, pd := p.predDst, d := p.d, imm := ⟨p.imms, p.s⟩ })
  | 11 => do p.accept true false true 0 3; zeros [p.exb 5 1 == 0#1]; let gd ← p.guard; pure (.cgei { gd := gd, pd := p.predDst, d := p.d, imm := ⟨p.imms, p.s⟩ })
  | 12 => do p.accept true false true 0 3; zeros [p.exb 5 1 == 0#1]; let gd ← p.guard; pure (.cltni { gd := gd, pd := p.predDst, d := p.d, imm := ⟨p.imms, p.s⟩ })
  | 13 => do p.accept true false true 0 3; zeros [p.exb 5 1 == 0#1]; let gd ← p.guard; pure (.cgeni { gd := gd, pd := p.predDst, d := p.d, imm := ⟨p.imms, p.s⟩ })
  | 14 => do p.accept true false true 1 1; zeros [p.exb 5 1 == 0#1, p.s == 0#4]; let gd ← p.guard; pure (.plog { gd := gd, pd := p.predDst, tt := p.d, pa := (p.imm 0).extractLsb' 5 5, pb := (p.imm 0).extractLsb' 0 5 })
  | 15 => do p.accept true false true 0 0; zeros [p.ex == 0#6, p.s.extractLsb' 2 2 == 0#2]; let gd ← p.guard; pure (.pxfer { gd := gd, xp := p.page.isSome, g := p.d, mode := p.s.extractLsb' 0 2 })
  | _ => .error .illegalOpcode

/-- LD (R87). -/
def decodeLd (p : Parts) : D Instr :=
  match p.pageNo.toNat with
  | 0 => do p.accept true false true 0 3; zeros [p.ex == 0#6]; let gd ← p.guard; pure (.ld { gd := gd, xp := p.page.isSome, d := p.d, a := p.s, la := p.f, off := p.imms })
  | 1 => do p.accept true false true 0 3; zeros [p.ex == 0#6]; let gd ← p.guard; pure (.ldi { gd := gd, xp := p.page.isSome, d := p.d, a := p.s, la := p.f, off := p.imms })
  | 2 => do p.accept true false true 0 3; zeros [p.ex == 0#6]; let gd ← p.guard; pure (.ld8 { gd := gd, xp := p.page.isSome, d := p.d, a := p.s, la := p.f, off := p.imms })
  | 3 => do p.accept true false true 0 3; zeros [p.ex == 0#6]; let gd ← p.guard; pure (.ld16 { gd := gd, xp := p.page.isSome, d := p.d, a := p.s, la := p.f, off := p.imms })
  | 4 => do p.accept true false true 0 3; zeros [p.ex == 0#6]; let gd ← p.guard; pure (.ld32 { gd := gd, xp := p.page.isSome, d := p.d, a := p.s, la := p.f, off := p.imms })
  | 5 => do p.accept true false true 0 3; zeros [p.ex == 0#6]; let gd ← p.guard; pure (.ld64 { gd := gd, xp := p.page.isSome, d := p.d, a := p.s, la := p.f, off := p.imms })
  | 6 => do p.accept true false true 0 3; zeros [p.ex == 0#6]; let gd ← p.guard; pure (.ldn8 { gd := gd, xp := p.page.isSome, d := p.d, a := p.s, la := p.f, off := p.imms })
  | 7 => do p.accept true false true 0 3; zeros [p.ex == 0#6]; let gd ← p.guard; pure (.ldn16 { gd := gd, xp := p.page.isSome, d := p.d, a := p.s, la := p.f, off := p.imms })
  | 8 => do p.accept true false true 0 3; zeros [p.ex == 0#6]; let gd ← p.guard; pure (.ldn32 { gd := gd, xp := p.page.isSome, d := p.d, a := p.s, la := p.f, off := p.imms })
  | 9 => do p.accept true false true 0 3; zeros [p.exb 3 3 == 0#3]; let gd ← p.guard; pure (.ldacq { gd := gd, xp := p.page.isSome, d := p.d, a := p.s, la := p.f, off := p.imms, sc := (← p.scope) })
  | 10 => do p.accept true false true 0 3; zeros [p.ex == 0#6, p.d == 0#4, p.f == 0#4]; let gd ← p.guard; pure (.pref { gd := gd, a := p.s, off := p.imms })
  | 11 => do p.accept true false true 0 3; zeros [p.ex == 0#6, p.d.extractLsb' 3 1 == 0#1]; let gd ← p.guard; pure (.ldrec { gd := gd, e := p.d.extractLsb' 0 3, a := p.s, la := p.f, off := p.imms })
  | _ => .error .illegalOpcode

/-- ST (R88). -/
def decodeSt (p : Parts) : D Instr :=
  match p.f.toNat with
  | 0 => do p.accept true false true 0 3; zeros [p.ex == 0#6]; let gd ← p.guard; pure (.st { gd := gd, xp := p.page.isSome, s := p.d, a := p.s, off := p.imms })
  | 1 => do p.accept true false true 0 3; zeros [p.ex == 0#6]; let gd ← p.guard; pure (.sti { gd := gd, xp := p.page.isSome, s := p.d, a := p.s, off := p.imms })
  | 2 => do p.accept true false true 0 3; zeros [p.ex == 0#6]; let gd ← p.guard; pure (.st8 { gd := gd, xp := p.page.isSome, s := p.d, a := p.s, off := p.imms })
  | 3 => do p.accept true false true 0 3; zeros [p.ex == 0#6]; let gd ← p.guard; pure (.st16 { gd := gd, xp := p.page.isSome, s := p.d, a := p.s, off := p.imms })
  | 4 => do p.accept true false true 0 3; zeros [p.ex == 0#6]; let gd ← p.guard; pure (.st32 { gd := gd, xp := p.page.isSome, s := p.d, a := p.s, off := p.imms })
  | 5 => do p.accept true false true 0 3; zeros [p.ex == 0#6]; let gd ← p.guard; pure (.st64 { gd := gd, xp := p.page.isSome, s := p.d, a := p.s, off := p.imms })
  | 6 => do p.accept true false true 0 3; zeros [p.exb 3 3 == 0#3]; let gd ← p.guard; pure (.strel { gd := gd, xp := p.page.isSome, s := p.d, a := p.s, off := p.imms, sc := (← p.scope) })
  | 7 => do p.accept true false true 0 3; zeros [p.ex == 0#6]; let gd ← p.guard; pure (.stnt { gd := gd, xp := p.page.isSome, s := p.d, a := p.s, off := p.imms })
  | _ => .error .illegalOpcode

/-- VOP (R89). -/
def decodeVop (p : Parts) : D Instr :=
  match p.f.toNat with
  | 0 => do p.accept true true true 0 0; zeros [p.ex == 0#6]; let gd ← p.guard; pure (.vmov { gd := gd, xr := p.xr, ty := (← p.ty), d := p.d, s := p.s })
  | 1 => do p.accept true true true 0 0; zeros [(p.exb 4 1 == 1#1 || p.exb 0 4 == 0#4)]; let gd ← p.guard; pure (.vadd { gd := gd, xr := p.xr, ty := (← p.ty), d := p.d, s := p.s, t := p.third, sat := p.exb 5 1 == 1#1 })
  | 2 => do p.accept true true true 0 0; zeros [(p.exb 4 1 == 1#1 || p.exb 0 4 == 0#4)]; let gd ← p.guard; pure (.vsub { gd := gd, xr := p.xr, ty := (← p.ty), d := p.d, s := p.s, t := p.third, sat := p.exb 5 1 == 1#1 })
  | 3 => do p.accept true true true 0 0; zeros [(p.exb 4 1 == 1#1 || p.exb 0 4 == 0#4)]; let gd ← p.guard; pure (.vmul { gd := gd, xr := p.xr, ty := (← p.ty), d := p.d, s := p.s, t := p.third, sat := p.exb 5 1 == 1#1 })
  | 4 => do p.accept true true true 0 0; zeros [p.exb 4 2 == 1#2]; let gd ← p.guard; pure (.vfma { gd := gd, xr := p.xr, ty := (← p.tyReq), d := p.d, s := p.s, t := p.exb 0 4 })
  | 5 => do p.accept true true true 0 0; zeros [(p.exb 4 1 == 1#1 || p.exb 0 4 == 0#4)]; let gd ← p.guard; pure (.vmin { gd := gd, xr := p.xr, ty := (← p.ty), d := p.d, s := p.s, t := p.third, sat := p.exb 5 1 == 1#1 })
  | 6 => do p.accept true true true 0 0; zeros [(p.exb 4 1 == 1#1 || p.exb 0 4 == 0#4)]; let gd ← p.guard; pure (.vmax { gd := gd, xr := p.xr, ty := (← p.ty), d := p.d, s := p.s, t := p.third, sat := p.exb 5 1 == 1#1 })
  | 7 => do p.accept true true true 0 0; zeros [(p.exb 4 1 == 1#1 || p.exb 0 4 == 0#4)]; let gd ← p.guard; pure (.vand { gd := gd, xr := p.xr, ty := (← p.ty), d := p.d, s := p.s, t := p.third, sat := p.exb 5 1 == 1#1 })
  | 8 => do p.accept true true true 0 0; zeros [(p.exb 4 1 == 1#1 || p.exb 0 4 == 0#4)]; let gd ← p.guard; pure (.vor { gd := gd, xr := p.xr, ty := (← p.ty), d := p.d, s := p.s, t := p.third, sat := p.exb 5 1 == 1#1 })
  | 9 => do p.accept true true true 0 0; zeros [(p.exb 4 1 == 1#1 || p.exb 0 4 == 0#4)]; let gd ← p.guard; pure (.vxor { gd := gd, xr := p.xr, ty := (← p.ty), d := p.d, s := p.s, t := p.third, sat := p.exb 5 1 == 1#1 })
  | 10 => do p.accept true true true 0 0; zeros [(p.exb 4 1 == 1#1 || p.exb 0 4 == 0#4)]; let gd ← p.guard; pure (.vshl { gd := gd, xr := p.xr, ty := (← p.ty), d := p.d, s := p.s, t := p.third, sat := p.exb 5 1 == 1#1 })
  | 11 => do p.accept true true true 0 0; zeros [(p.exb 4 1 == 1#1 || p.exb 0 4 == 0#4)]; let gd ← p.guard; pure (.vshr { gd := gd, xr := p.xr, ty := (← p.ty), d := p.d, s := p.s, t := p.third, sat := p.exb 5 1 == 1#1 })
  | 12 => do p.accept true true true 0 0; zeros [p.ex == 0#6]; let gd ← p.guard; pure (.vabs { gd := gd, xr := p.xr, ty := (← p.ty), d := p.d, s := p.s })
  | 13 => do p.accept true true true 0 0; zeros [p.ex == 0#6]; let gd ← p.guard; pure (.vneg { gd := gd, xr := p.xr, ty := (← p.ty), d := p.d, s := p.s })
  | 14 => do p.accept true true true 0 0; zeros [p.exb 4 1 == 0#1]; let gd ← p.guard; pure (.vcvt { gd := gd, xr := p.xr, ty := (← p.ty), d := p.d, s := p.s, dst := (← etypeOf (p.exb 0 4)), sat := p.exb 5 1 == 1#1 })
  | 15 => do p.accept true true true 0 0; zeros [p.exb 4 1 == 1#1]; let gd ← p.guard; pure (.vcmp { gd := gd, xr := p.xr, ty := (← p.tyReq), cond := (← condOf p.d), s := p.s, t := p.exb 0 4, bank := p.exb 5 1 == 1#1 })
  | _ => .error .illegalOpcode

/-- VX page 0 (R90). -/
def decodeVx0 (p : Parts) : D Instr :=
  match p.f.toNat with
  | 0 => do p.accept true false true 0 3; zeros [p.exb 0 5 == 0#5]; let gd ← p.guard; pure (.vld { gd := gd, ty := (← p.ty), v := p.d, a := p.s, off := p.imms })
  | 1 => do p.accept true false true 0 3; zeros [p.exb 0 5 == 0#5]; let gd ← p.guard; pure (.vst { gd := gd, ty := (← p.ty), v := p.d, a := p.s, off := p.imms })
  | 2 => do p.accept true false true 0 3; zeros [p.exb 4 1 == 0#1]; let gd ← p.guard; pure (.vgath { gd := gd, ty := (← p.ty), v := p.d, a := p.s, vi := p.exb 0 4, off := p.imms })
  | 3 => do p.accept true false true 0 3; zeros [p.exb 4 1 == 0#1]; let gd ← p.guard; pure (.vscat { gd := gd, ty := (← p.ty), v := p.d, a := p.s, vi := p.exb 0 4, off := p.imms })
  | 4 => do p.accept true false true 0 0; zeros [p.exb 0 5 == 0#5]; let gd ← p.guard; pure (.vbcast { gd := gd, ty := (← p.ty), d := p.d, s := p.s })
  | 5 => do p.accept true false true 0 0; let gd ← p.guard; pure (.vextr { gd := gd, ty := (← p.ty), d := p.d, s := p.s, lane := p.exb 0 5 })
  | 6 => do p.accept true false true 0 0; let gd ← p.guard; pure (.vins { gd := gd, ty := (← p.ty), d := p.d, s := p.s, lane := p.exb 0 5 })
  | 7 => do p.accept true false true 0 0; zeros [p.exb 4 1 == 0#1]; let gd ← p.guard; pure (.vshuf { gd := gd, ty := (← p.ty), d := p.d, s := p.s, t := p.exb 0 4 })
  | 8 => do p.accept true false true 0 0; zeros [p.exb 0 5 == 0#5]; let gd ← p.guard; pure (.vrsum { gd := gd, ty := (← p.ty), d := p.d, s := p.s })
  | 9 => do p.accept true false true 0 0; zeros [p.exb 4 1 == 0#1]; let gd ← p.guard; pure (.vdot { gd := gd, ty := (← p.ty), d := p.d, s := p.s, t := p.exb 0 4 })
  | 10 => do p.accept true false true 0 0; let gd ← p.guard; pure (.vsel { gd := gd, ty := (← p.ty), d := p.d, s := p.s, t := p.exb 0 4, hi := p.exb 4 1 == 1#1 })
  | 11 => do p.accept true false true 0 0; let gd ← p.guard; pure (.vqnt { gd := gd, ty := (← p.ty), d := p.d, s := p.s, t := p.exb 0 4, hi := p.exb 4 1 == 1#1 })
  | 12 => do p.accept true false true 0 3; zeros [p.exb 0 5 == 0#5]; let gd ← p.guard; pure (.vdqnt { gd := gd, ty := (← p.ty), v := p.d, a := p.s, off := p.imms })
  | 13 => do p.accept true false true 0 0; zeros [p.exb 4 1 == 0#1]; let gd ← p.guard; pure (.vaccr { gd := gd, ty := (← p.ty), v := p.d, row := p.s, tile := p.exb 0 2, quarter := p.exb 2 2 })
  | 14 => do p.accept true false true 0 0; zeros [p.exb 4 1 == 0#1]; let gd ← p.guard; pure (.vaccw { gd := gd, ty := (← p.ty), v := p.d, row := p.s, tile := p.exb 0 2, quarter := p.exb 2 2 })
  | 15 => do p.accept true false true 0 0; zeros [p.exb 0 3 == 0#3, p.s == 0#4]; let gd ← p.guard; pure (.vmovp { gd := gd, ty := (← p.ty), v := p.d, toPred := p.exb 4 1 == 1#1, bank := p.exb 3 1 == 1#1 })
  | _ => .error .illegalOpcode

/-- VX page 1 (R90). -/
def decodeVx1 (p : Parts) : D Instr :=
  match p.f.toNat with
  | 0 => do p.accept true false true 0 0; zeros [p.exb 0 5 == 0#5]; let gd ← p.guard; pure (.vrcp { gd := gd, ty := (← p.tyReq), d := p.d, s := p.s })
  | 1 => do p.accept true false true 0 0; zeros [p.exb 0 5 == 0#5]; let gd ← p.guard; pure (.vrsq { gd := gd, ty := (← p.tyReq), d := p.d, s := p.s })
  | 2 => do p.accept true false true 0 0; zeros [p.exb 0 5 == 0#5]; let gd ← p.guard; pure (.vsqrt { gd := gd, ty := (← p.tyReq), d := p.d, s := p.s })
  | 3 => do p.accept true false true 0 0; zeros [p.exb 0 5 == 0#5]; let gd ← p.guard; pure (.vexp2 { gd := gd, ty := (← p.tyReq), d := p.d, s := p.s })
  | 4 => do p.accept true false true 0 0; zeros [p.exb 0 5 == 0#5]; let gd ← p.guard; pure (.vlog2 { gd := gd, ty := (← p.tyReq), d := p.d, s := p.s })
  | 5 => do p.accept true false true 0 0; zeros [p.exb 0 5 == 0#5]; let gd ← p.guard; pure (.vsin { gd := gd, ty := (← p.tyReq), d := p.d, s := p.s })
  | 6 => do p.accept true false true 0 0; zeros [p.exb 0 5 == 0#5]; let gd ← p.guard; pure (.vcos { gd := gd, ty := (← p.tyReq), d := p.d, s := p.s })
  | 7 => do p.accept true false true 0 0; zeros [p.exb 0 5 == 0#5]; let gd ← p.guard; pure (.vtanh { gd := gd, ty := (← p.tyReq), d := p.d, s := p.s })
  | 8 => do p.accept true false true 0 0; zeros [p.exb 0 5 == 0#5]; let gd ← p.guard; pure (.vloop { gd := gd, ty := (← p.tyReq), g := p.d, len := p.s })
  | 9 => do p.accept true false true 0 0; zeros [p.exb 0 5 == 0#5, p.d == 0#4, p.s == 0#4]; let gd ← p.guard; pure (.vsync { gd := gd, ty := (← p.tyReq) })
  | 10 => do p.accept true false true 0 0; zeros [p.exb 0 5 == 0#5, p.d == 0#4, p.s == 0#4]; let gd ← p.guard; pure (.vgang { gd := gd, ty := (← p.tyReq) })
  | 11 => do p.accept true false true 0 0; zeros [p.exb 0 5 == 0#5, p.d == 0#4, p.s == 0#4]; let gd ← p.guard; pure (.vsplit { gd := gd, ty := (← p.tyReq) })
  | 12 => do p.accept true false true 0 0; zeros [p.exb 0 5 == 0#5, p.d == 0#4]; let gd ← p.guard; pure (.vsett { gd := gd, ty := (← p.tyReq), dst := (← etypeOf p.s) })
  | _ => .error .illegalOpcode

/-- BR (R91). -/
def decodeBr (p : Parts) : D Instr := do p.accept false false false 0 3; pure (.br { p := p.base.extractLsb' 7 5, neg := p.base.extractLsb' 6 1 == 1#1, off := ⟨p.imms, p.base.extractLsb' 0 6⟩ })

/-- CTL (R92). -/
def decodeCtl (p : Parts) : D Instr :=
  match p.f.toNat with
  | 0 => do p.accept true false true 0 3; zeros [p.ex == 0#6]; let gd ← p.guard; pure (.jmp { gd := gd, xp := p.page.isSome, off := ⟨p.imms, p.immJ⟩ })
  | 1 => do p.accept true false true 0 0; zeros [p.ex == 0#6, p.d == 0#4]; let gd ← p.guard; pure (.jmpr { gd := gd, xp := p.page.isSome, r := p.s })
  | 2 => do p.accept true false true 0 3; zeros [p.ex == 0#6]; let gd ← p.guard; pure (.call { gd := gd, xp := p.page.isSome, off := ⟨p.imms, p.immJ⟩ })
  | 3 => do p.accept true false true 0 0; zeros [p.ex == 0#6, p.d == 0#4]; let gd ← p.guard; pure (.callr { gd := gd, xp := p.page.isSome, r := p.s })
  | 4 => do p.accept true false true 0 0; zeros [p.ex == 0#6, p.d == 0#4, p.s == 0#4]; let gd ← p.guard; pure (.ret { gd := gd, xp := p.page.isSome })
  | 5 => do p.accept true false true 0 0; zeros [p.ex == 0#6, p.d == 0#4, p.s == 0#4]; let gd ← p.guard; pure (.exit { gd := gd, xp := p.page.isSome })
  | 6 => do p.accept true false true 0 0; zeros [p.ex == 0#6, p.d == 0#4, p.s == 0#4]; let gd ← p.guard; pure (.yield { gd := gd, xp := p.page.isSome })
  | 7 => do p.accept true false true 0 0; zeros [p.ex == 0#6, p.d == 0#4, p.s == 0#4]; let gd ← p.guard; pure (.nop { gd := gd, xp := p.page.isSome })
  | 8 => do p.accept true false true 0 3; zeros [p.ex == 0#6]; let gd ← p.guard; pure (.loop { gd := gd, xp := p.page.isSome, g := p.d, off := ⟨p.imms, p.s⟩ })
  | 9 => do p.accept true false true 0 0; zeros [p.ex == 0#6, p.s.extractLsb' 3 1 == 0#1]; let gd ← p.guard; pure (.getid { gd := gd, xp := p.page.isSome, d := p.d, sel := p.s.extractLsb' 0 3 })
  | 10 => do p.accept true false true 0 0; zeros [p.ex == 0#6, p.s == 0#4]; let gd ← p.guard; pure (.clock { gd := gd, xp := p.page.isSome, r := p.d })
  | 11 => do p.accept true false true 0 0; zeros [p.ex == 0#6, p.s == 0#4]; let gd ← p.guard; pure (.rand { gd := gd, xp := p.page.isSome, r := p.d })
  | 12 => do p.accept true false true 0 0; zeros [p.ex == 0#6]; let gd ← p.guard; pure (.brk { gd := gd, xp := p.page.isSome, code := p.immJ })
  | 13 => do p.accept true false true 0 0; zeros [p.ex == 0#6, p.d == 0#4, p.s == 0#4]; let gd ← p.guard; pure (.rhome { gd := gd, xp := p.page.isSome })
  | _ => .error .illegalOpcode

/-- RMT (R93). -/
def decodeRmt (p : Parts) : D Instr :=
  match p.pageNo.toNat with
  | 0 => do p.accept true false true 0 3; zeros [p.exb 0 4 == 0#4]; let gd ← p.guard; pure (.aadd { gd := gd, xp := p.page.isSome, d := p.d, a := p.s, la := p.f, off := p.imms, ord := ⟨p.exb 5 1 == 1#1, p.exb 4 1 == 1#1⟩ })
  | 1 => do p.accept true false true 0 3; zeros [p.exb 0 4 == 0#4]; let gd ← p.guard; pure (.amin { gd := gd, xp := p.page.isSome, d := p.d, a := p.s, la := p.f, off := p.imms, ord := ⟨p.exb 5 1 == 1#1, p.exb 4 1 == 1#1⟩ })
  | 2 => do p.accept true false true 0 3; zeros [p.exb 0 4 == 0#4]; let gd ← p.guard; pure (.amax { gd := gd, xp := p.page.isSome, d := p.d, a := p.s, la := p.f, off := p.imms, ord := ⟨p.exb 5 1 == 1#1, p.exb 4 1 == 1#1⟩ })
  | 3 => do p.accept true false true 0 3; zeros [p.exb 0 4 == 0#4]; let gd ← p.guard; pure (.aminn { gd := gd, xp := p.page.isSome, d := p.d, a := p.s, la := p.f, off := p.imms, ord := ⟨p.exb 5 1 == 1#1, p.exb 4 1 == 1#1⟩ })
  | 4 => do p.accept true false true 0 3; zeros [p.exb 0 4 == 0#4]; let gd ← p.guard; pure (.amaxn { gd := gd, xp := p.page.isSome, d := p.d, a := p.s, la := p.f, off := p.imms, ord := ⟨p.exb 5 1 == 1#1, p.exb 4 1 == 1#1⟩ })
  | 5 => do p.accept true false true 0 3; zeros [p.exb 0 4 == 0#4]; let gd ← p.guard; pure (.aand { gd := gd, xp := p.page.isSome, d := p.d, a := p.s, la := p.f, off := p.imms, ord := ⟨p.exb 5 1 == 1#1, p.exb 4 1 == 1#1⟩ })
  | 6 => do p.accept true false true 0 3; zeros [p.exb 0 4 == 0#4]; let gd ← p.guard; pure (.aor { gd := gd, xp := p.page.isSome, d := p.d, a := p.s, la := p.f, off := p.imms, ord := ⟨p.exb 5 1 == 1#1, p.exb 4 1 == 1#1⟩ })
  | 7 => do p.accept true false true 0 3; zeros [p.exb 0 4 == 0#4]; let gd ← p.guard; pure (.axor { gd := gd, xp := p.page.isSome, d := p.d, a := p.s, la := p.f, off := p.imms, ord := ⟨p.exb 5 1 == 1#1, p.exb 4 1 == 1#1⟩ })
  | 8 => do p.accept true false true 0 3; zeros [p.exb 0 4 == 0#4]; let gd ← p.guard; pure (.aswap { gd := gd, xp := p.page.isSome, d := p.d, a := p.s, la := p.f, off := p.imms, ord := ⟨p.exb 5 1 == 1#1, p.exb 4 1 == 1#1⟩ })
  | 9 => do p.accept true false true 0 3; zeros [p.exb 0 4 == 0#4]; let gd ← p.guard; pure (.acas { gd := gd, xp := p.page.isSome, d := p.d, a := p.s, la := p.f, off := p.imms, ord := ⟨p.exb 5 1 == 1#1, p.exb 4 1 == 1#1⟩ })
  | 10 => do p.accept true false true 0 3; zeros [p.exb 0 4 == 0#4]; let gd ← p.guard; pure (.afadd { gd := gd, xp := p.page.isSome, d := p.d, a := p.s, la := p.f, off := p.imms, ord := ⟨p.exb 5 1 == 1#1, p.exb 4 1 == 1#1⟩ })
  | 11 => do p.accept true false true 0 3; zeros [p.exb 0 4 == 0#4]; let gd ← p.guard; pure (.afmin { gd := gd, xp := p.page.isSome, d := p.d, a := p.s, la := p.f, off := p.imms, ord := ⟨p.exb 5 1 == 1#1, p.exb 4 1 == 1#1⟩ })
  | 12 => do p.accept true false true 0 3; zeros [p.exb 0 4 == 0#4]; let gd ← p.guard; pure (.afmax { gd := gd, xp := p.page.isSome, d := p.d, a := p.s, la := p.f, off := p.imms, ord := ⟨p.exb 5 1 == 1#1, p.exb 4 1 == 1#1⟩ })
  | 13 => do p.accept true false true 0 3; zeros [p.ex == 0#6, p.d == 0#4, p.f == 0#4]; let gd ← p.guard; pure (.migr { gd := gd, a := p.s, off := p.imms })
  | 14 => do p.accept true false true 0 3; zeros [p.exb 4 1 == 0#1]; let gd ← p.guard; pure (.rupd { gd := gd, op := p.exb 0 4, rel := p.exb 5 1 == 1#1, d := p.d, a := p.s, la := p.f, off := p.imms })
  | 15 => do p.accept true false true 0 3; zeros [p.ex == 0#6]; let gd ← p.guard; pure (.spawn { gd := gd, xp := p.page.isSome, d := p.d, a := p.s, la := p.f, off := p.imms })
  | _ => .error .illegalOpcode

/-- SYNC (R94). -/
def decodeSync (p : Parts) : D Instr :=
  match p.pageNo.toNat with
  | 0 => do p.accept true false true 0 3; zeros [p.exb 3 3 == 0#3]; let gd ← p.guard; pure (.seqwait { gd := gd, xp := p.page.isSome, d := p.d, a := p.s, la := p.f, off := p.imms, sc := (← p.scope) })
  | 1 => do p.accept true false true 0 3; zeros [p.exb 3 3 == 0#3]; let gd ← p.guard; pure (.seqadv { gd := gd, xp := p.page.isSome, d := p.d, a := p.s, la := p.f, off := p.imms, sc := (← p.scope) })
  | 2 => do p.accept true false true 0 3; zeros [p.exb 2 4 == 0#4]; let gd ← p.guard; pure (.watch { gd := gd, d := p.d, a := p.s, la := p.f, off := p.imms, w := p.exb 0 2 })
  | 3 => do p.accept true false true 0 0; zeros [p.exb 4 2 == 0#2, p.s == 0#4]; let gd ← p.guard; pure (.waitw { gd := gd, d := p.d, la := p.f, mask := p.exb 0 4 })
  | 4 => do p.accept true false true 0 0; zeros [p.exb 3 3 == 0#3, p.d == 0#4, p.s == 0#4, p.f == 0#4]; let gd ← p.guard; pure (.barw { gd := gd, sc := (← p.scope) })
  | 5 => do p.accept true false true 0 0; zeros [p.exb 5 1 == 0#1, p.d == 0#4, p.s == 0#4, p.f == 0#4]; let gd ← p.guard; pure (.fence { gd := gd, kind := (← p.fenceKind), sc := (← p.scope) })
  | 6 => do p.accept true false true 0 0; zeros [p.exb 3 3 == 0#3]; let gd ← p.guard; pure (.send { gd := gd, d := p.d, a := p.s, la := p.f, ch := p.exb 0 3 })
  | 7 => do p.accept true false true 0 0; zeros [p.exb 3 3 == 0#3, p.s == 0#4]; let gd ← p.guard; pure (.recv { gd := gd, d := p.d, la := p.f, ch := p.exb 0 3 })
  | 8 => do p.accept true false true 0 0; zeros [p.exb 3 3 == 0#3, p.s == 0#4]; let gd ← p.guard; pure (.recvn { gd := gd, d := p.d, la := p.f, ch := p.exb 0 3 })
  | 9 => do p.accept true false true 0 0; zeros [p.exb 3 3 == 0#3]; let gd ← p.guard; pure (.recvs { gd := gd, d := p.d, a := p.s, la := p.f, ch := p.exb 0 3 })
  | 10 => do p.accept true false true 0 0; zeros [p.exb 3 3 == 0#3, p.s == 0#4]; let gd ← p.guard; pure (.chstat { gd := gd, d := p.d, la := p.f, ch := p.exb 0 3 })
  | 11 => do p.accept true false true 0 3; zeros [p.exb 3 3 == 0#3, p.d == 0#4]; let gd ← p.guard; pure (.clean { gd := gd, a := p.s, la := p.f, off := p.imms, sc := (← p.scope) })
  | 12 => do p.accept true false true 0 0; zeros [p.ex == 0#6, p.d == 0#4, p.s == 0#4, p.f == 0#4]; let gd ← p.guard; pure (.shfence { gd := gd })
  | 13 => do p.accept true false true 0 3; zeros [p.ex == 0#6, p.d == 0#4]; let gd ← p.guard; pure (.xpull { gd := gd, a := p.s, la := p.f, off := p.imms })
  | 14 => do p.accept true false true 0 3; zeros [p.ex == 0#6, p.d == 0#4]; let gd ← p.guard; pure (.xfill { gd := gd, a := p.s, la := p.f, off := p.imms })
  | 15 => do p.accept true false true 0 3; zeros [p.ex == 0#6]; let gd ← p.guard; pure (.xstat { gd := gd, xp := p.page.isSome, d := p.d, a := p.s, la := p.f, off := p.imms })
  | _ => .error .illegalOpcode

/-- MX (R95). -/
def decodeMx (p : Parts) : D Instr :=
  match p.pageNo.toNat with
  | 0 => do p.accept true false true 1 3; zeros [p.exb 3 3 == 0#3, p.d.extractLsb' 2 2 == 0#2, p.f == 0#4]; let gd ← p.guard; pure (.mma { gd := gd, xp := p.page.isSome, tile := p.d.extractLsb' 0 2, a := p.s, w := p.exb 0 3, k := p.imms })
  | 1 => do p.accept true false true 1 3; zeros [p.exb 3 3 == 0#3, p.d.extractLsb' 2 2 == 0#2, p.f == 0#4]; let gd ← p.guard; pure (.mmai { gd := gd, xp := p.page.isSome, tile := p.d.extractLsb' 0 2, a := p.s, w := p.exb 0 3, k := p.imms })
  | 2 => do p.accept true false true 0 0; zeros [p.ex == 0#6, p.d.extractLsb' 2 2 == 0#2, p.s == 0#4, p.f == 0#4]; let gd ← p.guard; pure (.mzero { gd := gd, tile := p.d.extractLsb' 0 2 })
  | 3 => do p.accept true false true 0 3; zeros [p.ex == 0#6, p.d.extractLsb' 2 2 == 0#2]; let gd ← p.guard; pure (.mldc { gd := gd, tile := p.d.extractLsb' 0 2, a := p.s, la := p.f, off := p.imms })
  | 4 => do p.accept true false true 0 3; zeros [p.ex == 0#6, p.d.extractLsb' 2 2 == 0#2]; let gd ← p.guard; pure (.mstc { gd := gd, tile := p.d.extractLsb' 0 2, a := p.s, la := p.f, off := p.imms })
  | 5 => do p.accept true false true 0 3; zeros [p.exb 3 3 == 0#3, p.d == 0#4]; let gd ← p.guard; pure (.wbld { gd := gd, w := p.exb 0 3, a := p.s, la := p.f, off := p.imms })
  | 6 => do p.accept true false true 0 0; zeros [p.exb 4 2 == 0#2, p.d == 0#4, p.s == 0#4, p.f == 0#4]; let gd ← p.guard; pure (.wbinv { gd := gd, w := (← wbinvOf (p.exb 0 4)) })
  | 7 => do p.accept true false true 0 0; zeros [p.ex == 0#6, p.s == 0#4, p.f == 0#4]; let gd ← p.guard; pure (.macq { gd := gd, tile := (← tileOfMask p.d) })
  | 8 => do p.accept true false true 0 0; zeros [p.ex == 0#6, p.s == 0#4, p.f == 0#4]; let gd ← p.guard; pure (.mrel { gd := gd, tile := (← tileOfMask p.d) })
  | 9 => do p.accept true false true 0 3; zeros [p.ex == 0#6, p.d.extractLsb' 2 2 == 0#2]; let gd ← p.guard; pure (.sbind { gd := gd, n := p.d.extractLsb' 0 2, a := p.s, la := p.f, off := p.imms })
  | 10 => do p.accept true false true 0 0; zeros [p.ex == 0#6, p.d.extractLsb' 2 2 == 0#2, p.s == 0#4, p.f == 0#4]; let gd ← p.guard; pure (.sunbind { gd := gd, n := p.d.extractLsb' 0 2 })
  | 11 => do p.accept true false true 0 0; zeros [p.exb 2 4 == 0#4, p.s == 0#4]; let gd ← p.guard; pure (.sstat { gd := gd, n := p.exb 0 2, d := p.d, la := p.f })
  | 12 => do p.accept true false true 0 0; zeros [p.ex == 0#6, p.d.extractLsb' 2 2 == 0#2, p.s == 0#4, p.f == 0#4]; let gd ← p.guard; pure (.sdrain { gd := gd, n := p.d.extractLsb' 0 2 })
  | _ => .error .illegalOpcode

/-- NET (R96). -/
def decodeNet (p : Parts) : D Instr :=
  match p.pageNo.toNat with
  | 0 => do p.accept true false true 0 0; zeros [p.ex == 0#6, p.d == 0#4, p.s == 0#4, p.f == 0#4]; let gd ← p.guard; pure (.rwpop { gd := gd, xp := p.page.isSome })
  | 1 => do p.accept true false true 0 0; zeros [p.ex == 0#6]; let gd ← p.guard; pure (.rwpush { gd := gd, d := p.d, a := p.s, la := p.f })
  | 2 => do p.accept true false true 0 0; zeros [p.ex == 0#6]; let gd ← p.guard; pure (.nalloc { gd := gd, d := p.d, a := p.s, la := p.f })
  | 3 => do p.accept true false true 0 0; zeros [p.ex == 0#6, p.d == 0#4]; let gd ← p.guard; pure (.nfree { gd := gd, a := p.s, la := p.f })
  | 4 => do p.accept true false true 1 3; zeros [p.ex == 0#6]; let gd ← p.guard; pure (.nld { gd := gd, d := p.d, a := p.s, la := p.f, w := p.imms })
  | 5 => do p.accept true false true 1 3; zeros [p.ex == 0#6, p.f == 0#4]; let gd ← p.guard; pure (.nst { gd := gd, d := p.d, a := p.s, la := p.f, w := p.imms })
  | 6 => do p.accept true false true 0 0; zeros [p.ex == 0#6]; let gd ← p.guard; pure (.pxchg { gd := gd, d := p.d, a := p.s, la := p.f })
  | 7 => do p.accept true false true 0 0; zeros [p.ex == 0#6]; let gd ← p.guard; pure (.plink { gd := gd, d := p.d, a := p.s, la := p.f })
  | 8 => do p.accept true false true 1 3; zeros [p.ex == 0#6]; let gd ← p.guard; pure (.nref { gd := gd, d := p.d, a := p.s, la := p.f, w := p.imms })
  | 9 => do p.accept true false true 0 0; zeros [p.ex == 0#6]; let gd ← p.guard; pure (.nown { gd := gd, d := p.d, a := p.s, la := p.f })
  | 10 => do p.accept true false true 0 0; zeros [p.ex == 0#6, p.d == 0#4, p.s == 0#4]; let gd ← p.guard; pure (.rwdone { gd := gd, la := p.f })
  | _ => .error .illegalOpcode

/-- The upper index bits of a control register, extra[3:0] (R230). -/
def Parts.crHi (p : Parts) : Option (BitVec 4) := p.page.map (·.extractLsb' 0 4)

/-- SYS (R97). An unlisted control register, or a write of a read-only one, is an unassigned opcode (R37, check 2 of R79). -/
def decodeSys (p : Parts) : D Instr :=
  match p.f.toNat with
  | 0 => do p.accept true false true 0 2; zeros [p.ex == 0#6]; let gd ← p.guard; pure (.trap { gd := gd, xp := p.page.isSome, imm := ⟨p.imms, p.immJ⟩ })
  | 1 => do p.accept true false true 0 0; zeros [p.ex == 0#6]; let gd ← p.guard; pure (.mcall { gd := gd, xp := p.page.isSome, svc := p.immJ })
  | 2 => do p.accept true false true 0 0; zeros [p.ex == 0#6, p.d == 0#4, p.s == 0#4]; let gd ← p.guard; pure (.mret { gd := gd, xp := p.page.isSome })
  | 3 => do (if crIndexOk p.s p.crHi then pure () else .error .illegalOpcode); p.accept true false true 0 0; zeros [p.exb 4 2 == 0#2]; let gd ← p.guard; pure (.crrd { gd := gd, g := p.d, lo := p.s, hi := p.page.map (·.extractLsb' 0 4) })
  | 4 => do (if crIndexOk p.s p.crHi && !crReadOnly p.s p.crHi then pure () else .error .illegalOpcode); p.accept true false true 0 0; zeros [p.exb 4 2 == 0#2]; let gd ← p.guard; pure (.crwr { gd := gd, g := p.d, lo := p.s, hi := p.page.map (·.extractLsb' 0 4) })
  | 5 => do p.accept true false true 0 0; zeros [p.ex == 0#6, p.d.extractLsb' 3 1 == 0#1, p.s.extractLsb' 3 1 == 0#1]; let gd ← p.guard; pure (.segset { gd := gd, xp := p.page.isSome, f := p.d.extractLsb' 0 3, n := p.s.extractLsb' 0 3 })
  | 6 => do p.accept true false true 0 0; zeros [p.ex == 0#6, p.d.extractLsb' 3 1 == 0#1, p.s.extractLsb' 3 1 == 0#1]; let gd ← p.guard; pure (.segget { gd := gd, xp := p.page.isSome, f := p.d.extractLsb' 0 3, n := p.s.extractLsb' 0 3 })
  | 7 => do p.accept true false true 0 0; zeros [p.ex == 0#6, p.d.extractLsb' 3 1 == 0#1]; let gd ← p.guard; pure (.segld { gd := gd, xp := p.page.isSome, n := p.d.extractLsb' 0 3, a := p.s })
  | 8 => do p.accept true false true 0 0; zeros [p.exb 3 3 == 0#3, p.d == 0#4]; let gd ← p.guard; pure (.invpg { gd := gd, xp := p.page.isSome, a := p.s, size := (← sizeOf (p.exb 0 3)) })
  | 9 => do p.accept true false true 0 0; zeros [p.exb 3 3 == 0#3, p.d == 0#4]; let gd ← p.guard; pure (.invpgr { gd := gd, xp := p.page.isSome, a := p.s, size := (← sizeOf (p.exb 0 3)) })
  | 10 => do p.accept true false true 0 0; zeros [p.ex == 0#6, p.s.extractLsb' 3 1 == 0#1]; let gd ← p.guard; pure (.protw { gd := gd, xp := p.page.isSome, e := p.d, f := p.s.extractLsb' 0 3 })
  | 11 => do p.accept true false true 0 0; zeros [p.ex == 0#6, p.d == 0#4]; let gd ← p.guard; pure (.spill { gd := gd, xp := p.page.isSome, r := p.s })
  | 12 => do p.accept true false true 0 0; zeros [p.ex == 0#6, p.d == 0#4]; let gd ← p.guard; pure (.fill { gd := gd, xp := p.page.isSome, r := p.s })
  | 13 => do p.accept true false true 0 0; zeros [p.ex == 0#6, p.s == 0#4]; let gd ← p.guard; pure (.rdsig { gd := gd, xp := p.page.isSome, r := p.d })
  | 14 => do p.accept true false true 0 0; zeros [p.exb 1 5 == 0#5, p.s == 0#4]; let gd ← p.guard; pure (.ndval { gd := gd, xp := p.page.isSome, d := p.d, rand := p.exb 0 1 == 1#1 })
  | 15 => do p.accept true false true 0 0; zeros [p.ex == 0#6, p.d == 0#4, p.s == 0#4]; let gd ← p.guard; pure (.halt { gd := gd, xp := p.page.isSome })
  | _ => .error .illegalOpcode

/-- A major whose XPAGE page must be 0 (R82). -/
def page0 (p : Parts) (k : D Instr) : D Instr := if p.pageNo == 0#4 then k else .error .illegalOpcode

/-- Check 2 chooses the instruction by major, page or variant and function code; its arm applies checks 3 and 4 (R79). -/
def decodeMajor (p : Parts) : D Instr :=
  match (majorOf p.base).toNat with
  | 0 => if p.pageNo == 0#4 then decodeInt0 p else if p.pageNo == 1#4 then decodeInt1 p else .error .illegalOpcode
  | 1 => decodeInti p
  | 2 => decodeLi p
  | 3 => page0 p (decodeCmp p)
  | 4 => decodeLd p
  | 5 => page0 p (decodeSt p)
  | 6 => decodeVop p
  | 7 => if p.exb 5 1 == 1#1 then decodeVx1 p else decodeVx0 p
  | 8 => decodeBr p
  | 9 => page0 p (decodeCtl p)
  | 10 => decodeRmt p
  | 11 => decodeSync p
  | 12 => decodeMx p
  | 13 => decodeNet p
  | 14 => page0 p (decodeSys p)
  | _ => .error .illegalPrefix

/-- The decoder on parts: the fields, then the operand limits of check 4 (R79). -/
def decodeParts (p : Parts) : D Instr := do
  let i ← decodeMajor p
  if i.wf then pure i else .error .reservedField

/-- The outcome of decoding a chain of words: an instruction and its number of words, a refusal with the base word and the
prefix count that TRAP_INFO reports (R237), or the need for another word. -/
inductive Decoded where
  | instr (i : Instr) (words : Nat)
  | bad (e : DecodeErr) (base : Half) (prefixes : Nat)
  | more
  deriving DecidableEq, Repr

/-- Decodes the words at the PC, total on any words. DESIGN CHOICE: of a fifth prefix in a row (R75) the record names that word as the base word
with a count of 4 (notes/assumptions/67.md). -/
def decodeWords (ws : List Half) : Decoded :=
  match cutChain 0 [] ws with
  | .more => .more
  | .tooLong w => .bad .illegalPrefix w 4
  | .whole ps base =>
    match parseChain ps base >>= decodeParts with
    | .ok i => .instr i (ps.length + 1)
    | .error e => .bad e base ps.length

/-- Two bytes as a little-endian word (R16, R72). -/
def wordsOfBytes : List Byte → List Half
  | lo :: hi :: bs => (hi ++ lo) :: wordsOfBytes bs
  | _ => []

/-- Decodes bytes in address order. -/
def decodeBytes (bs : List Byte) : Decoded := decodeWords (wordsOfBytes bs)

/-! ### The encoder -/

/-- A base word from its four fields (R80). -/
def mkBase (maj a b c : BitVec 4) : Half := maj ++ a ++ b ++ c
/-- A base word of format I8. -/
def mkBase8 (maj a : BitVec 4) (i : BitVec 8) : Half := maj ++ a ++ i
/-- A base word with an 8-bit field in [11:4]. -/
def mkBaseJ (maj : BitVec 4) (i : BitVec 8) (c : BitVec 4) : Half := maj ++ i ++ c
/-- A base word of format B. -/
def mkBaseB (maj : BitVec 4) (p : BitVec 5) (neg : Bool) (off : BitVec 6) : Half := maj ++ p ++ BitVec.ofBool neg ++ off

/-- One bit. -/
def bit (b : Bool) : BitVec 1 := BitVec.ofBool b
/-- The XPRED payload (R74). -/
def guardBits (g : Guard) : BitVec 10 := g.idx ++ bit g.neg ++ 0#4
/-- The XREG payload (R74). -/
def xregBits (x : XReg) : BitVec 10 := x.d ++ x.s ++ x.t ++ bit x.hi
/-- The XPAGE payload (R74). -/
def pageBits (page : BitVec 4) (extra : BitVec 6) : BitVec 10 := page ++ extra
/-- An XPAGE that may be left out. -/
def optPage (xp : Bool) (page : BitVec 4) (extra : BitVec 6) : Option (BitVec 10) := if xp then some (pageBits page extra) else none
/-- The XPAGE of a binary INT (R83). -/
def aluPage (page : BitVec 4) : AluForm → Option (BitVec 10)
  | .bare => none
  | .two => some (pageBits page 0#6)
  | .three t => some (pageBits page (1#2 ++ t))
/-- The destination field of a binary INT. -/
def aluD (a : AluArgs) : Reg := a.d
/-- The source field of a binary INT. -/
def aluS (a : AluArgs) : Reg := a.s
/-- Element-type codes (R24). -/
def etypeCode : EType → BitVec 4
  | .n8 => 0#4 | .i8 => 1#4 | .n16 => 2#4 | .i16 => 3#4 | .n32 => 4#4 | .i32 => 5#4
  | .n64 => 6#4 | .i64 => 7#4 | .f16 => 8#4 | .bf16 => 9#4 | .f32 => 10#4 | .f64 => 11#4
/-- The XPAGE that carries an element type and extra bits. -/
def typePage (ty : Option EType) (extra : BitVec 6) : Option (BitVec 10) := ty.map fun t => pageBits (etypeCode t) extra
/-- The XPAGE of a binary VOP (R89). -/
def vopPage (ty : Option EType) (sat : Bool) (t : Option Reg) : Option (BitVec 10) :=
  typePage ty (match t with | none => bit sat ++ 0#5 | some t => bit sat ++ 1#1 ++ t)
/-- LI's page for a lane (R85). -/
def lanePage (lane : BitVec 2) : BitVec 4 := (0#2 ++ lane) + 1#4
/-- CMP's XPAGE (R86). -/
def predPage (pd : BitVec 5) : BitVec 10 := 0#5 ++ pd
/-- Scope codes (R87). -/
def scopeCode : Scope → BitVec 3
  | .core => 0#3 | .cluster => 1#3 | .die => 2#3 | .package => 3#3 | .system => 4#3
/-- A scope in extra[2:0]. -/
def scopeBits (s : Scope) : BitVec 6 := 0#3 ++ scopeCode s
/-- Fence kinds (R94). -/
def fenceBits : FenceKind → BitVec 2
  | .all => 0#2 | .loads => 1#2 | .stores => 2#2
/-- VCMP conditions (R89). -/
def condCode : VCond → BitVec 4
  | .eq => 0#4 | .ne => 1#4 | .lt => 2#4 | .ge => 3#4
/-- Atomic ordering in extra[5:4] (R93). -/
def ordBits (o : AOrder) : BitVec 6 := bit o.release ++ bit o.acquire ++ 0#4
/-- A one-hot tile mask (R201). -/
def oneHot (t : BitVec 2) : BitVec 4 := 1#4 <<< t.toNat
/-- WBINV's operand (R209). -/
def wbinvBits : Option (BitVec 3) → BitVec 6
  | some w => 0#3 ++ w
  | none => 8#6
/-- Page-size codes (R97). -/
def sizeCode : PageSize → BitVec 3
  | .p4k => 0#3 | .p64k => 1#3 | .p2m => 2#3 | .p64m => 3#3 | .p512m => 4#3
/-- CRRD's and CRWR's XPAGE (R230). -/
def crPage (hi : BitVec 4) : BitVec 10 := 0#6 ++ hi

/-- The prefixes and the base word of an instruction; an event row has none. -/
def encodeParts : Instr → Option Parts
  | .mov a => some ⟨a.gd.map guardBits, a.xr.map xregBits, optPage a.xp 0#4 0#6, [], mkBase 0#4 a.d a.s 0#4⟩
  | .add a => some ⟨a.gd.map guardBits, none, aluPage 0#4 a.form, [], mkBase 0#4 (aluD a) (aluS a) 1#4⟩
  | .sub a => some ⟨a.gd.map guardBits, none, aluPage 0#4 a.form, [], mkBase 0#4 (aluD a) (aluS a) 2#4⟩
  | .and a => some ⟨a.gd.map guardBits, none, aluPage 0#4 a.form, [], mkBase 0#4 (aluD a) (aluS a) 3#4⟩
  | .or a => some ⟨a.gd.map guardBits, none, aluPage 0#4 a.form, [], mkBase 0#4 (aluD a) (aluS a) 4#4⟩
  | .xor a => some ⟨a.gd.map guardBits, none, aluPage 0#4 a.form, [], mkBase 0#4 (aluD a) (aluS a) 5#4⟩
  | .andn a => some ⟨a.gd.map guardBits, none, aluPage 0#4 a.form, [], mkBase 0#4 (aluD a) (aluS a) 6#4⟩
  | .shl a => some ⟨a.gd.map guardBits, none, aluPage 0#4 a.form, [], mkBase 0#4 (aluD a) (aluS a) 7#4⟩
  | .shr a => some ⟨a.gd.map guardBits, none, aluPage 0#4 a.form, [], mkBase 0#4 (aluD a) (aluS a) 8#4⟩
  | .sar a => some ⟨a.gd.map guardBits, none, aluPage 0#4 a.form, [], mkBase 0#4 (aluD a) (aluS a) 9#4⟩
  | .mul a => some ⟨a.gd.map guardBits, none, aluPage 0#4 a.form, [], mkBase 0#4 (aluD a) (aluS a) 10#4⟩
  | .mulh a => some ⟨a.gd.map guardBits, none, aluPage 0#4 a.form, [], mkBase 0#4 (aluD a) (aluS a) 11#4⟩
  | .min a => some ⟨a.gd.map guardBits, none, aluPage 0#4 a.form, [], mkBase 0#4 (aluD a) (aluS a) 12#4⟩
  | .max a => some ⟨a.gd.map guardBits, none, aluPage 0#4 a.form, [], mkBase 0#4 (aluD a) (aluS a) 13#4⟩
  | .addp a => some ⟨a.gd.map guardBits, none, aluPage 0#4 a.form, [], mkBase 0#4 (aluD a) (aluS a) 14#4⟩
  | .subp a => some ⟨a.gd.map guardBits, none, aluPage 0#4 a.form, [], mkBase 0#4 (aluD a) (aluS a) 15#4⟩
  | .mulhn a => some ⟨a.gd.map guardBits, none, aluPage 1#4 a.form, [], mkBase 0#4 (aluD a) (aluS a) 0#4⟩
  | .div a => some ⟨a.gd.map guardBits, none, aluPage 1#4 a.form, [], mkBase 0#4 (aluD a) (aluS a) 1#4⟩
  | .divn a => some ⟨a.gd.map guardBits, none, aluPage 1#4 a.form, [], mkBase 0#4 (aluD a) (aluS a) 2#4⟩
  | .rem a => some ⟨a.gd.map guardBits, none, aluPage 1#4 a.form, [], mkBase 0#4 (aluD a) (aluS a) 3#4⟩
  | .remn a => some ⟨a.gd.map guardBits, none, aluPage 1#4 a.form, [], mkBase 0#4 (aluD a) (aluS a) 4#4⟩
  | .minn a => some ⟨a.gd.map guardBits, none, aluPage 1#4 a.form, [], mkBase 0#4 (aluD a) (aluS a) 5#4⟩
  | .maxn a => some ⟨a.gd.map guardBits, none, aluPage 1#4 a.form, [], mkBase 0#4 (aluD a) (aluS a) 6#4⟩
  | .rol a => some ⟨a.gd.map guardBits, none, aluPage 1#4 a.form, [], mkBase 0#4 (aluD a) (aluS a) 7#4⟩
  | .ror a => some ⟨a.gd.map guardBits, none, aluPage 1#4 a.form, [], mkBase 0#4 (aluD a) (aluS a) 8#4⟩
  | .clz a => some ⟨a.gd.map guardBits, none, some (pageBits 1#4 0#6), [], mkBase 0#4 a.d a.s 9#4⟩
  | .ctz a => some ⟨a.gd.map guardBits, none, some (pageBits 1#4 0#6), [], mkBase 0#4 a.d a.s 10#4⟩
  | .popc a => some ⟨a.gd.map guardBits, none, some (pageBits 1#4 0#6), [], mkBase 0#4 a.d a.s 11#4⟩
  | .brev a => some ⟨a.gd.map guardBits, none, some (pageBits 1#4 0#6), [], mkBase 0#4 a.d a.s 12#4⟩
  | .bswap a => some ⟨a.gd.map guardBits, none, some (pageBits 1#4 0#6), [], mkBase 0#4 a.d a.s 13#4⟩
  | .sext a => some ⟨a.gd.map guardBits, none, some (pageBits 1#4 (0#4 ++ a.w)), [], mkBase 0#4 a.d a.s 14#4⟩
  | .zext a => some ⟨a.gd.map guardBits, none, some (pageBits 1#4 (0#4 ++ a.w)), [], mkBase 0#4 a.d a.s 15#4⟩
  | .addi a => some ⟨a.gd.map guardBits, none, none, a.imm.chunks, mkBase 1#4 a.d a.imm.base 0#4⟩
  | .subi a => some ⟨a.gd.map guardBits, none, none, a.imm.chunks, mkBase 1#4 a.d a.imm.base 1#4⟩
  | .andi a => some ⟨a.gd.map guardBits, none, none, a.imm.chunks, mkBase 1#4 a.d a.imm.base 2#4⟩
  | .ori a => some ⟨a.gd.map guardBits, none, none, a.imm.chunks, mkBase 1#4 a.d a.imm.base 3#4⟩
  | .xori a => some ⟨a.gd.map guardBits, none, none, a.imm.chunks, mkBase 1#4 a.d a.imm.base 4#4⟩
  | .shli a => some ⟨a.gd.map guardBits, none, none, a.imm.chunks, mkBase 1#4 a.d a.imm.base 5#4⟩
  | .shri a => some ⟨a.gd.map guardBits, none, none, a.imm.chunks, mkBase 1#4 a.d a.imm.base 6#4⟩
  | .sari a => some ⟨a.gd.map guardBits, none, none, a.imm.chunks, mkBase 1#4 a.d a.imm.base 7#4⟩
  | .muli a => some ⟨a.gd.map guardBits, none, none, a.imm.chunks, mkBase 1#4 a.d a.imm.base 8#4⟩
  | .roli a => some ⟨a.gd.map guardBits, none, none, a.imm.chunks, mkBase 1#4 a.d a.imm.base 9#4⟩
  | .bfx a => some ⟨a.gd.map guardBits, none, none, [0#4 ++ a.width, 0#4 ++ a.pos], mkBase 1#4 a.d a.s 10#4⟩
  | .bfi a => some ⟨a.gd.map guardBits, none, none, [0#4 ++ a.width, 0#4 ++ a.pos], mkBase 1#4 a.d a.s 11#4⟩
  | .pfmt a => some ⟨a.gd.map guardBits, none, none, a.imm.chunks, mkBase 1#4 a.d a.imm.base 12#4⟩
  | .pblk a => some ⟨a.gd.map guardBits, none, none, a.imm.chunks, mkBase 1#4 a.d a.imm.base 13#4⟩
  | .pseg a => some ⟨a.gd.map guardBits, none, none, a.imm.chunks, mkBase 1#4 a.d a.imm.base 14#4⟩
  | .pclr a => some ⟨a.gd.map guardBits, none, none, [], mkBase 1#4 a.d 0#4 15#4⟩
  | .li a => some ⟨a.gd.map guardBits, none, optPage a.xp 0#4 0#6, a.imm.chunks, mkBase8 2#4 a.d a.imm.base⟩
  | .liLane a => some ⟨a.gd.map guardBits, none, some (pageBits (lanePage a.lane) 0#6), a.imm.chunks, mkBase8 2#4 a.d a.imm.base⟩
  | .ceq a => some ⟨a.gd.map guardBits, none, a.pd.map predPage, [], mkBase 3#4 a.d a.s 0#4⟩
  | .cne a => some ⟨a.gd.map guardBits, none, a.pd.map predPage, [], mkBase 3#4 a.d a.s 1#4⟩
  | .clt a => some ⟨a.gd.map guardBits, none, a.pd.map predPage, [], mkBase 3#4 a.d a.s 2#4⟩
  | .cge a => some ⟨a.gd.map guardBits, none, a.pd.map predPage, [], mkBase 3#4 a.d a.s 3#4⟩
  | .cltn a => some ⟨a.gd.map guardBits, none, a.pd.map predPage, [], mkBase 3#4 a.d a.s 4#4⟩
  | .cgen a => some ⟨a.gd.map guardBits, none, a.pd.map predPage, [], mkBase 3#4 a.d a.s 5#4⟩
  | .ctst a => some ⟨a.gd.map guardBits, none, a.pd.map predPage, [], mkBase 3#4 a.d a.s 6#4⟩
  | .ctstn a => some ⟨a.gd.map guardBits, none, a.pd.map predPage, [], mkBase 3#4 a.d a.s 7#4⟩
  | .ceqi a => some ⟨a.gd.map guardBits, none, a.pd.map predPage, a.imm.chunks, mkBase 3#4 a.d a.imm.base 8#4⟩
  | .cnei a => some ⟨a.gd.map guardBits, none, a.pd.map predPage, a.imm.chunks, mkBase 3#4 a.d a.imm.base 9#4⟩
  | .clti a => some ⟨a.gd.map guardBits, none, a.pd.map predPage, a.imm.chunks, mkBase 3#4 a.d a.imm.base 10#4⟩
  | .cgei a => some ⟨a.gd.map guardBits, none, a.pd.map predPage, a.imm.chunks, mkBase 3#4 a.d a.imm.base 11#4⟩
  | .cltni a => some ⟨a.gd.map guardBits, none, a.pd.map predPage, a.imm.chunks, mkBase 3#4 a.d a.imm.base 12#4⟩
  | .cgeni a => some ⟨a.gd.map guardBits, none, a.pd.map predPage, a.imm.chunks, mkBase 3#4 a.d a.imm.base 13#4⟩
  | .plog a => some ⟨a.gd.map guardBits, none, a.pd.map predPage, [a.pa ++ a.pb], mkBase 3#4 a.tt 0#4 14#4⟩
  | .pxfer a => some ⟨a.gd.map guardBits, none, optPage a.xp 0#4 0#6, [], mkBase 3#4 a.g (0#2 ++ a.mode) 15#4⟩
  | .ld a => some ⟨a.gd.map guardBits, none, optPage a.xp 0#4 0#6, a.off, mkBase 4#4 a.d a.a a.la⟩
  | .ldi a => some ⟨a.gd.map guardBits, none, some (pageBits 1#4 0#6), a.off, mkBase 4#4 a.d a.a a.la⟩
  | .ld8 a => some ⟨a.gd.map guardBits, none, some (pageBits 2#4 0#6), a.off, mkBase 4#4 a.d a.a a.la⟩
  | .ld16 a => some ⟨a.gd.map guardBits, none, some (pageBits 3#4 0#6), a.off, mkBase 4#4 a.d a.a a.la⟩
  | .ld32 a => some ⟨a.gd.map guardBits, none, some (pageBits 4#4 0#6), a.off, mkBase 4#4 a.d a.a a.la⟩
  | .ld64 a => some ⟨a.gd.map guardBits, none, some (pageBits 5#4 0#6), a.off, mkBase 4#4 a.d a.a a.la⟩
  | .ldn8 a => some ⟨a.gd.map guardBits, none, some (pageBits 6#4 0#6), a.off, mkBase 4#4 a.d a.a a.la⟩
  | .ldn16 a => some ⟨a.gd.map guardBits, none, some (pageBits 7#4 0#6), a.off, mkBase 4#4 a.d a.a a.la⟩
  | .ldn32 a => some ⟨a.gd.map guardBits, none, some (pageBits 8#4 0#6), a.off, mkBase 4#4 a.d a.a a.la⟩
  | .ldacq a => some ⟨a.gd.map guardBits, none, some (pageBits 9#4 (scopeBits a.sc)), a.off, mkBase 4#4 a.d a.a a.la⟩
  | .pref a => some ⟨a.gd.map guardBits, none, some (pageBits 10#4 0#6), a.off, mkBase 4#4 0#4 a.a 0#4⟩
  | .ldrec a => some ⟨a.gd.map guardBits, none, some (pageBits 11#4 0#6), a.off, mkBase 4#4 (0#1 ++ a.e) a.a a.la⟩
  | .st a => some ⟨a.gd.map guardBits, none, optPage a.xp 0#4 0#6, a.off, mkBase 5#4 a.s a.a 0#4⟩
  | .sti a => some ⟨a.gd.map guardBits, none, optPage a.xp 0#4 0#6, a.off, mkBase 5#4 a.s a.a 1#4⟩
  | .st8 a => some ⟨a.gd.map guardBits, none, optPage a.xp 0#4 0#6, a.off, mkBase 5#4 a.s a.a 2#4⟩
  | .st16 a => some ⟨a.gd.map guardBits, none, optPage a.xp 0#4 0#6, a.off, mkBase 5#4 a.s a.a 3#4⟩
  | .st32 a => some ⟨a.gd.map guardBits, none, optPage a.xp 0#4 0#6, a.off, mkBase 5#4 a.s a.a 4#4⟩
  | .st64 a => some ⟨a.gd.map guardBits, none, optPage a.xp 0#4 0#6, a.off, mkBase 5#4 a.s a.a 5#4⟩
  | .strel a => some ⟨a.gd.map guardBits, none, optPage a.xp 0#4 (scopeBits a.sc), a.off, mkBase 5#4 a.s a.a 6#4⟩
  | .stnt a => some ⟨a.gd.map guardBits, none, optPage a.xp 0#4 0#6, a.off, mkBase 5#4 a.s a.a 7#4⟩
  | .aadd a => some ⟨a.gd.map guardBits, none, optPage a.xp 0#4 (ordBits a.ord), a.off, mkBase 10#4 a.d a.a a.la⟩
  | .amin a => some ⟨a.gd.map guardBits, none, some (pageBits 1#4 (ordBits a.ord)), a.off, mkBase 10#4 a.d a.a a.la⟩
  | .amax a => some ⟨a.gd.map guardBits, none, some (pageBits 2#4 (ordBits a.ord)), a.off, mkBase 10#4 a.d a.a a.la⟩
  | .aminn a => some ⟨a.gd.map guardBits, none, some (pageBits 3#4 (ordBits a.ord)), a.off, mkBase 10#4 a.d a.a a.la⟩
  | .amaxn a => some ⟨a.gd.map guardBits, none, some (pageBits 4#4 (ordBits a.ord)), a.off, mkBase 10#4 a.d a.a a.la⟩
  | .aand a => some ⟨a.gd.map guardBits, none, some (pageBits 5#4 (ordBits a.ord)), a.off, mkBase 10#4 a.d a.a a.la⟩
  | .aor a => some ⟨a.gd.map guardBits, none, some (pageBits 6#4 (ordBits a.ord)), a.off, mkBase 10#4 a.d a.a a.la⟩
  | .axor a => some ⟨a.gd.map guardBits, none, some (pageBits 7#4 (ordBits a.ord)), a.off, mkBase 10#4 a.d a.a a.la⟩
  | .aswap a => some ⟨a.gd.map guardBits, none, some (pageBits 8#4 (ordBits a.ord)), a.off, mkBase 10#4 a.d a.a a.la⟩
  | .acas a => some ⟨a.gd.map guardBits, none, some (pageBits 9#4 (ordBits a.ord)), a.off, mkBase 10#4 a.d a.a a.la⟩
  | .afadd a => some ⟨a.gd.map guardBits, none, some (pageBits 10#4 (ordBits a.ord)), a.off, mkBase 10#4 a.d a.a a.la⟩
  | .afmin a => some ⟨a.gd.map guardBits, none, some (pageBits 11#4 (ordBits a.ord)), a.off, mkBase 10#4 a.d a.a a.la⟩
  | .afmax a => some ⟨a.gd.map guardBits, none, some (pageBits 12#4 (ordBits a.ord)), a.off, mkBase 10#4 a.d a.a a.la⟩
  | .migr a => some ⟨a.gd.map guardBits, none, some (pageBits 13#4 0#6), a.off, mkBase 10#4 0#4 a.a 0#4⟩
  | .rupd a => some ⟨a.gd.map guardBits, none, some (pageBits 14#4 (bit a.rel ++ 0#1 ++ a.op)), a.off, mkBase 10#4 a.d a.a a.la⟩
  | .spawn a => some ⟨a.gd.map guardBits, none, some (pageBits 15#4 0#6), a.off, mkBase 10#4 a.d a.a a.la⟩
  | .seqwait a => some ⟨a.gd.map guardBits, none, optPage a.xp 0#4 (scopeBits a.sc), a.off, mkBase 11#4 a.d a.a a.la⟩
  | .seqadv a => some ⟨a.gd.map guardBits, none, some (pageBits 1#4 (scopeBits a.sc)), a.off, mkBase 11#4 a.d a.a a.la⟩
  | .watch a => some ⟨a.gd.map guardBits, none, some (pageBits 2#4 (0#4 ++ a.w)), a.off, mkBase 11#4 a.d a.a a.la⟩
  | .waitw a => some ⟨a.gd.map guardBits, none, some (pageBits 3#4 (0#2 ++ a.mask)), [], mkBase 11#4 a.d 0#4 a.la⟩
  | .barw a => some ⟨a.gd.map guardBits, none, some (pageBits 4#4 (scopeBits a.sc)), [], mkBase 11#4 0#4 0#4 0#4⟩
  | .fence a => some ⟨a.gd.map guardBits, none, some (pageBits 5#4 (0#1 ++ fenceBits a.kind ++ scopeCode a.sc)), [], mkBase 11#4 0#4 0#4 0#4⟩
  | .send a => some ⟨a.gd.map guardBits, none, some (pageBits 6#4 (0#3 ++ a.ch)), [], mkBase 11#4 a.d a.a a.la⟩
  | .recv a => some ⟨a.gd.map guardBits, none, some (pageBits 7#4 (0#3 ++ a.ch)), [], mkBase 11#4 a.d 0#4 a.la⟩
  | .recvn a => some ⟨a.gd.map guardBits, none, some (pageBits 8#4 (0#3 ++ a.ch)), [], mkBase 11#4 a.d 0#4 a.la⟩
  | .recvs a => some ⟨a.gd.map guardBits, none, some (pageBits 9#4 (0#3 ++ a.ch)), [], mkBase 11#4 a.d a.a a.la⟩
  | .chstat a => some ⟨a.gd.map guardBits, none, some (pageBits 10#4 (0#3 ++ a.ch)), [], mkBase 11#4 a.d 0#4 a.la⟩
  | .clean a => some ⟨a.gd.map guardBits, none, some (pageBits 11#4 (scopeBits a.sc)), a.off, mkBase 11#4 0#4 a.a a.la⟩
  | .shfence a => some ⟨a.gd.map guardBits, none, some (pageBits 12#4 (0#6)), [], mkBase 11#4 0#4 0#4 0#4⟩
  | .xpull a => some ⟨a.gd.map guardBits, none, some (pageBits 13#4 (0#6)), a.off, mkBase 11#4 0#4 a.a a.la⟩
  | .xfill a => some ⟨a.gd.map guardBits, none, some (pageBits 14#4 (0#6)), a.off, mkBase 11#4 0#4 a.a a.la⟩
  | .xstat a => some ⟨a.gd.map guardBits, none, some (pageBits 15#4 (0#6)), a.off, mkBase 11#4 a.d a.a a.la⟩
  | .vmov a => some ⟨a.gd.map guardBits, a.xr.map xregBits, typePage a.ty 0#6, [], mkBase 6#4 a.d a.s 0#4⟩
  | .vadd a => some ⟨a.gd.map guardBits, a.xr.map xregBits, vopPage a.ty a.sat a.t, [], mkBase 6#4 a.d a.s 1#4⟩
  | .vsub a => some ⟨a.gd.map guardBits, a.xr.map xregBits, vopPage a.ty a.sat a.t, [], mkBase 6#4 a.d a.s 2#4⟩
  | .vmul a => some ⟨a.gd.map guardBits, a.xr.map xregBits, vopPage a.ty a.sat a.t, [], mkBase 6#4 a.d a.s 3#4⟩
  | .vfma a => some ⟨a.gd.map guardBits, a.xr.map xregBits, typePage (some a.ty) (1#2 ++ a.t), [], mkBase 6#4 a.d a.s 4#4⟩
  | .vmin a => some ⟨a.gd.map guardBits, a.xr.map xregBits, vopPage a.ty a.sat a.t, [], mkBase 6#4 a.d a.s 5#4⟩
  | .vmax a => some ⟨a.gd.map guardBits, a.xr.map xregBits, vopPage a.ty a.sat a.t, [], mkBase 6#4 a.d a.s 6#4⟩
  | .vand a => some ⟨a.gd.map guardBits, a.xr.map xregBits, vopPage a.ty a.sat a.t, [], mkBase 6#4 a.d a.s 7#4⟩
  | .vor a => some ⟨a.gd.map guardBits, a.xr.map xregBits, vopPage a.ty a.sat a.t, [], mkBase 6#4 a.d a.s 8#4⟩
  | .vxor a => some ⟨a.gd.map guardBits, a.xr.map xregBits, vopPage a.ty a.sat a.t, [], mkBase 6#4 a.d a.s 9#4⟩
  | .vshl a => some ⟨a.gd.map guardBits, a.xr.map xregBits, vopPage a.ty a.sat a.t, [], mkBase 6#4 a.d a.s 10#4⟩
  | .vshr a => some ⟨a.gd.map guardBits, a.xr.map xregBits, vopPage a.ty a.sat a.t, [], mkBase 6#4 a.d a.s 11#4⟩
  | .vabs a => some ⟨a.gd.map guardBits, a.xr.map xregBits, typePage a.ty 0#6, [], mkBase 6#4 a.d a.s 12#4⟩
  | .vneg a => some ⟨a.gd.map guardBits, a.xr.map xregBits, typePage a.ty 0#6, [], mkBase 6#4 a.d a.s 13#4⟩
  | .vcvt a => some ⟨a.gd.map guardBits, a.xr.map xregBits, typePage a.ty (bit a.sat ++ 0#1 ++ etypeCode a.dst), [], mkBase 6#4 a.d a.s 14#4⟩
  | .vcmp a => some ⟨a.gd.map guardBits, a.xr.map xregBits, typePage (some a.ty) (bit a.bank ++ 1#1 ++ a.t), [], mkBase 6#4 (condCode a.cond) a.s 15#4⟩
  | .vld a => some ⟨a.gd.map guardBits, none, typePage a.ty 0#6, a.off, mkBase 7#4 a.v a.a 0#4⟩
  | .vst a => some ⟨a.gd.map guardBits, none, typePage a.ty 0#6, a.off, mkBase 7#4 a.v a.a 1#4⟩
  | .vgath a => some ⟨a.gd.map guardBits, none, typePage a.ty (0#2 ++ a.vi), a.off, mkBase 7#4 a.v a.a 2#4⟩
  | .vscat a => some ⟨a.gd.map guardBits, none, typePage a.ty (0#2 ++ a.vi), a.off, mkBase 7#4 a.v a.a 3#4⟩
  | .vbcast a => some ⟨a.gd.map guardBits, none, typePage a.ty 0#6, [], mkBase 7#4 a.d a.s 4#4⟩
  | .vextr a => some ⟨a.gd.map guardBits, none, typePage a.ty (0#1 ++ a.lane), [], mkBase 7#4 a.d a.s 5#4⟩
  | .vins a => some ⟨a.gd.map guardBits, none, typePage a.ty (0#1 ++ a.lane), [], mkBase 7#4 a.d a.s 6#4⟩
  | .vshuf a => some ⟨a.gd.map guardBits, none, typePage a.ty (0#2 ++ a.t), [], mkBase 7#4 a.d a.s 7#4⟩
  | .vrsum a => some ⟨a.gd.map guardBits, none, typePage a.ty 0#6, [], mkBase 7#4 a.d a.s 8#4⟩
  | .vdot a => some ⟨a.gd.map guardBits, none, typePage a.ty (0#2 ++ a.t), [], mkBase 7#4 a.d a.s 9#4⟩
  | .vsel a => some ⟨a.gd.map guardBits, none, typePage a.ty (0#1 ++ bit a.hi ++ a.t), [], mkBase 7#4 a.d a.s 10#4⟩
  | .vqnt a => some ⟨a.gd.map guardBits, none, typePage a.ty (0#1 ++ bit a.hi ++ a.t), [], mkBase 7#4 a.d a.s 11#4⟩
  | .vdqnt a => some ⟨a.gd.map guardBits, none, typePage a.ty 0#6, a.off, mkBase 7#4 a.v a.a 12#4⟩
  | .vaccr a => some ⟨a.gd.map guardBits, none, typePage a.ty (0#2 ++ a.quarter ++ a.tile), [], mkBase 7#4 a.v a.row 13#4⟩
  | .vaccw a => some ⟨a.gd.map guardBits, none, typePage a.ty (0#2 ++ a.quarter ++ a.tile), [], mkBase 7#4 a.v a.row 14#4⟩
  | .vmovp a => some ⟨a.gd.map guardBits, none, typePage a.ty (0#1 ++ bit a.toPred ++ bit a.bank ++ 0#3), [], mkBase 7#4 a.v 0#4 15#4⟩
  | .vrcp a => some ⟨a.gd.map guardBits, none, typePage (some a.ty) 32#6, [], mkBase 7#4 a.d a.s 0#4⟩
  | .vrsq a => some ⟨a.gd.map guardBits, none, typePage (some a.ty) 32#6, [], mkBase 7#4 a.d a.s 1#4⟩
  | .vsqrt a => some ⟨a.gd.map guardBits, none, typePage (some a.ty) 32#6, [], mkBase 7#4 a.d a.s 2#4⟩
  | .vexp2 a => some ⟨a.gd.map guardBits, none, typePage (some a.ty) 32#6, [], mkBase 7#4 a.d a.s 3#4⟩
  | .vlog2 a => some ⟨a.gd.map guardBits, none, typePage (some a.ty) 32#6, [], mkBase 7#4 a.d a.s 4#4⟩
  | .vsin a => some ⟨a.gd.map guardBits, none, typePage (some a.ty) 32#6, [], mkBase 7#4 a.d a.s 5#4⟩
  | .vcos a => some ⟨a.gd.map guardBits, none, typePage (some a.ty) 32#6, [], mkBase 7#4 a.d a.s 6#4⟩
  | .vtanh a => some ⟨a.gd.map guardBits, none, typePage (some a.ty) 32#6, [], mkBase 7#4 a.d a.s 7#4⟩
  | .vloop a => some ⟨a.gd.map guardBits, none, typePage (some a.ty) 32#6, [], mkBase 7#4 a.g a.len 8#4⟩
  | .vsync a => some ⟨a.gd.map guardBits, none, typePage (some a.ty) 32#6, [], mkBase 7#4 0#4 0#4 9#4⟩
  | .vgang a => some ⟨a.gd.map guardBits, none, typePage (some a.ty) 32#6, [], mkBase 7#4 0#4 0#4 10#4⟩
  | .vsplit a => some ⟨a.gd.map guardBits, none, typePage (some a.ty) 32#6, [], mkBase 7#4 0#4 0#4 11#4⟩
  | .vsett a => some ⟨a.gd.map guardBits, none, typePage (some a.ty) 32#6, [], mkBase 7#4 0#4 (etypeCode a.dst) 12#4⟩
  | .br a => some ⟨none, none, none, a.off.chunks, mkBaseB 8#4 a.p a.neg a.off.base⟩
  | .jmp a => some ⟨a.gd.map guardBits, none, optPage a.xp 0#4 0#6, a.off.chunks, mkBaseJ 9#4 a.off.base 0#4⟩
  | .jmpr a => some ⟨a.gd.map guardBits, none, optPage a.xp 0#4 0#6, [], mkBase 9#4 0#4 a.r 1#4⟩
  | .call a => some ⟨a.gd.map guardBits, none, optPage a.xp 0#4 0#6, a.off.chunks, mkBaseJ 9#4 a.off.base 2#4⟩
  | .callr a => some ⟨a.gd.map guardBits, none, optPage a.xp 0#4 0#6, [], mkBase 9#4 0#4 a.r 3#4⟩
  | .ret a => some ⟨a.gd.map guardBits, none, optPage a.xp 0#4 0#6, [], mkBase 9#4 0#4 0#4 4#4⟩
  | .exit a => some ⟨a.gd.map guardBits, none, optPage a.xp 0#4 0#6, [], mkBase 9#4 0#4 0#4 5#4⟩
  | .yield a => some ⟨a.gd.map guardBits, none, optPage a.xp 0#4 0#6, [], mkBase 9#4 0#4 0#4 6#4⟩
  | .nop a => some ⟨a.gd.map guardBits, none, optPage a.xp 0#4 0#6, [], mkBase 9#4 0#4 0#4 7#4⟩
  | .loop a => some ⟨a.gd.map guardBits, none, optPage a.xp 0#4 0#6, a.off.chunks, mkBase 9#4 a.g a.off.base 8#4⟩
  | .getid a => some ⟨a.gd.map guardBits, none, optPage a.xp 0#4 0#6, [], mkBase 9#4 a.d (0#1 ++ a.sel) 9#4⟩
  | .clock a => some ⟨a.gd.map guardBits, none, optPage a.xp 0#4 0#6, [], mkBase 9#4 a.r 0#4 10#4⟩
  | .rand a => some ⟨a.gd.map guardBits, none, optPage a.xp 0#4 0#6, [], mkBase 9#4 a.r 0#4 11#4⟩
  | .brk a => some ⟨a.gd.map guardBits, none, optPage a.xp 0#4 0#6, [], mkBaseJ 9#4 a.code 12#4⟩
  | .rhome a => some ⟨a.gd.map guardBits, none, optPage a.xp 0#4 0#6, [], mkBase 9#4 0#4 0#4 13#4⟩
  | .mma a => some ⟨a.gd.map guardBits, none, optPage a.xp 0#4 (0#3 ++ a.w), a.k, mkBase 12#4 (0#2 ++ a.tile) a.a 0#4⟩
  | .mmai a => some ⟨a.gd.map guardBits, none, some (pageBits 1#4 (0#3 ++ a.w)), a.k, mkBase 12#4 (0#2 ++ a.tile) a.a 0#4⟩
  | .mzero a => some ⟨a.gd.map guardBits, none, some (pageBits 2#4 (0#6)), [], mkBase 12#4 (0#2 ++ a.tile) 0#4 0#4⟩
  | .mldc a => some ⟨a.gd.map guardBits, none, some (pageBits 3#4 (0#6)), a.off, mkBase 12#4 (0#2 ++ a.tile) a.a a.la⟩
  | .mstc a => some ⟨a.gd.map guardBits, none, some (pageBits 4#4 (0#6)), a.off, mkBase 12#4 (0#2 ++ a.tile) a.a a.la⟩
  | .wbld a => some ⟨a.gd.map guardBits, none, some (pageBits 5#4 (0#3 ++ a.w)), a.off, mkBase 12#4 0#4 a.a a.la⟩
  | .wbinv a => some ⟨a.gd.map guardBits, none, some (pageBits 6#4 (wbinvBits a.w)), [], mkBase 12#4 0#4 0#4 0#4⟩
  | .macq a => some ⟨a.gd.map guardBits, none, some (pageBits 7#4 (0#6)), [], mkBase 12#4 (oneHot a.tile) 0#4 0#4⟩
  | .mrel a => some ⟨a.gd.map guardBits, none, some (pageBits 8#4 (0#6)), [], mkBase 12#4 (oneHot a.tile) 0#4 0#4⟩
  | .sbind a => some ⟨a.gd.map guardBits, none, some (pageBits 9#4 (0#6)), a.off, mkBase 12#4 (0#2 ++ a.n) a.a a.la⟩
  | .sunbind a => some ⟨a.gd.map guardBits, none, some (pageBits 10#4 (0#6)), [], mkBase 12#4 (0#2 ++ a.n) 0#4 0#4⟩
  | .sstat a => some ⟨a.gd.map guardBits, none, some (pageBits 11#4 (0#4 ++ a.n)), [], mkBase 12#4 a.d 0#4 a.la⟩
  | .sdrain a => some ⟨a.gd.map guardBits, none, some (pageBits 12#4 (0#6)), [], mkBase 12#4 (0#2 ++ a.n) 0#4 0#4⟩
  | .rwpop a => some ⟨a.gd.map guardBits, none, optPage a.xp 0#4 0#6, [], mkBase 13#4 0#4 0#4 0#4⟩
  | .rwpush a => some ⟨a.gd.map guardBits, none, some (pageBits 1#4 0#6), [], mkBase 13#4 a.d a.a a.la⟩
  | .nalloc a => some ⟨a.gd.map guardBits, none, some (pageBits 2#4 0#6), [], mkBase 13#4 a.d a.a a.la⟩
  | .nfree a => some ⟨a.gd.map guardBits, none, some (pageBits 3#4 0#6), [], mkBase 13#4 0#4 a.a a.la⟩
  | .nld a => some ⟨a.gd.map guardBits, none, some (pageBits 4#4 0#6), a.w, mkBase 13#4 a.d a.a a.la⟩
  | .nst a => some ⟨a.gd.map guardBits, none, some (pageBits 5#4 0#6), a.w, mkBase 13#4 a.d a.a a.la⟩
  | .pxchg a => some ⟨a.gd.map guardBits, none, some (pageBits 6#4 0#6), [], mkBase 13#4 a.d a.a a.la⟩
  | .plink a => some ⟨a.gd.map guardBits, none, some (pageBits 7#4 0#6), [], mkBase 13#4 a.d a.a a.la⟩
  | .nref a => some ⟨a.gd.map guardBits, none, some (pageBits 8#4 0#6), a.w, mkBase 13#4 a.d a.a a.la⟩
  | .nown a => some ⟨a.gd.map guardBits, none, some (pageBits 9#4 0#6), [], mkBase 13#4 a.d a.a a.la⟩
  | .rwdone a => some ⟨a.gd.map guardBits, none, some (pageBits 10#4 0#6), [], mkBase 13#4 0#4 0#4 a.la⟩
  | .trap a => some ⟨a.gd.map guardBits, none, optPage a.xp 0#4 0#6, a.imm.chunks, mkBaseJ 14#4 a.imm.base 0#4⟩
  | .mcall a => some ⟨a.gd.map guardBits, none, optPage a.xp 0#4 0#6, [], mkBaseJ 14#4 a.svc 1#4⟩
  | .mret a => some ⟨a.gd.map guardBits, none, optPage a.xp 0#4 0#6, [], mkBase 14#4 0#4 0#4 2#4⟩
  | .crrd a => some ⟨a.gd.map guardBits, none, a.hi.map crPage, [], mkBase 14#4 a.g a.lo 3#4⟩
  | .crwr a => some ⟨a.gd.map guardBits, none, a.hi.map crPage, [], mkBase 14#4 a.g a.lo 4#4⟩
  | .segset a => some ⟨a.gd.map guardBits, none, optPage a.xp 0#4 0#6, [], mkBase 14#4 (0#1 ++ a.f) (0#1 ++ a.n) 5#4⟩
  | .segget a => some ⟨a.gd.map guardBits, none, optPage a.xp 0#4 0#6, [], mkBase 14#4 (0#1 ++ a.f) (0#1 ++ a.n) 6#4⟩
  | .segld a => some ⟨a.gd.map guardBits, none, optPage a.xp 0#4 0#6, [], mkBase 14#4 (0#1 ++ a.n) a.a 7#4⟩
  | .invpg a => some ⟨a.gd.map guardBits, none, optPage a.xp 0#4 (0#3 ++ sizeCode a.size), [], mkBase 14#4 0#4 a.a 8#4⟩
  | .invpgr a => some ⟨a.gd.map guardBits, none, optPage a.xp 0#4 (0#3 ++ sizeCode a.size), [], mkBase 14#4 0#4 a.a 9#4⟩
  | .protw a => some ⟨a.gd.map guardBits, none, optPage a.xp 0#4 0#6, [], mkBase 14#4 a.e (0#1 ++ a.f) 10#4⟩
  | .spill a => some ⟨a.gd.map guardBits, none, optPage a.xp 0#4 0#6, [], mkBase 14#4 0#4 a.r 11#4⟩
  | .fill a => some ⟨a.gd.map guardBits, none, optPage a.xp 0#4 0#6, [], mkBase 14#4 0#4 a.r 12#4⟩
  | .rdsig a => some ⟨a.gd.map guardBits, none, optPage a.xp 0#4 0#6, [], mkBase 14#4 a.r 0#4 13#4⟩
  | .ndval a => some ⟨a.gd.map guardBits, none, optPage a.xp 0#4 (0#5 ++ bit a.rand), [], mkBase 14#4 a.d 0#4 14#4⟩
  | .halt a => some ⟨a.gd.map guardBits, none, optPage a.xp 0#4 0#6, [], mkBase 14#4 0#4 0#4 15#4⟩
  | .barrelIssueCycle .. | .longLatencyResult .. | .tlbWalkComplete .. | .sliceExpiry .. | .priorityPreempt .. | .spillComplete .. | .fillComplete .. | .remoteWatchInsert .. | .remoteWatchWake .. | .watchPollTimer .. | .barrierStaggerResume .. | .channelFlitArrival .. | .channelWatchdogExpiry .. | .macqWatchdogExpiry .. | .bagPushWatchdogExpiry .. | .migrationArrival .. | .spawnArrival .. | .arrivalRetry .. | .excursionAtOwner .. | .excursionReturn .. | .remoteUpdateApply .. | .bursarAtomic .. | .copyCommandStart .. | .copyCommandComplete .. | .burstWindowClose .. | .sequencerEntryStart .. | .sequencerEntryComplete .. | .mmaStart .. | .mmaComplete .. | .weightSlotReload .. | .inputStreamFetch .. | .outputStreamLineWrite .. | .randValueReady .. | .forwardedValueArrival .. | .replicaCompareFlit .. | .externalAtomicResult .. | .pairRecordArrival .. | .stealRetryTimer .. | .netSweep .. | .epochAdopt .. | .faultReport .. | .launchStopAtCore .. | .launchComplete .. | .completionWrite .. | .queueTailWrite .. | .queueEnable .. | .queueDisable .. | .queueAbort .. | .configurationWrite .. | .launchRecordRead .. | .schedulerRound .. | .launchPlace .. | .graphNodeDispatch .. | .contextCreate .. | .contextDestroy .. | .contextInvalidate .. | .contextMigrate .. | .migrationFirstPassDone .. | .migrationFinalPassDone .. | .faultHeadWrite .. | .faultResolve .. | .checkpointTake .. | .checkpointPullStart .. | .checkpointComplete .. | .checkpointRestore .. | .coreFailureDetected .. | .clusterFailureDetected .. | .dieFailureDetected .. | .packageFailureDetected .. | .lossDeclaration .. | .coreRepair .. | .clusterRepair .. | .nodeAliasInstall .. | .quarantineSelfTest .. | .spareFill .. | .coreResetAfterHalt .. | .routerCycle .. | .fabricFallback .. | .requestResendTimeout .. | .congestionNotice .. | .windowGrowthTimer .. | .tierStarvationGrant .. | .linkAuthFailure .. | .linkTrainDown .. | .keyInstall .. | .keyActivate .. | .keySlotRetire .. | .powerControlTick .. | .issueThrottle .. | .droopAlarm .. | .thermalThrottle .. | .thermalTrip .. | .setPowerLimit .. | .powerGoodBoot .. | .lifeLogRecord .. | .getLifeLogRecord .. | .firmwareUpdate .. | .getVersion .. | .getCapabilities .. | .negotiateAlgorithms .. | .getDigests .. | .getCertificate .. | .challenge .. | .getMeasurements .. | .keyExchange .. | .finish .. | .endSession .. | .securedKeyInstallMessage .. | .storePerformed .. | .invpgCompletion .. | .powerLoss .. | .tdispStateRequest .. => none

/-- A prefix word (R74). -/
def prefixWord (kind : BitVec 2) (b : BitVec 10) : Half := 15#4 ++ kind ++ b

/-- The prefix words of an instruction in canonical order (R75). -/
def Parts.prefixes (p : Parts) : List Half :=
  (p.pred.map (prefixWord 0#2)).toList ++ (p.xreg.map (prefixWord 1#2)).toList ++ (p.page.map (prefixWord 2#2)).toList
    ++ p.imms.map (prefixWord 3#2)

/-- The words of an instruction in memory order. -/
def Parts.words (p : Parts) : List Half := p.prefixes ++ [p.base]

/-- The words of a well-formed instruction; none for an event row. -/
def encode (i : Instr) : List Half := ((encodeParts i).map Parts.words).getD []

/-- A word as two bytes, little-endian (R16). -/
def bytesOfWord (w : Half) : List Byte := [w.extractLsb' 0 8, w.extractLsb' 8 8]

/-- The bytes of an instruction in address order. -/
def encodeBytes (i : Instr) : List Byte := (encode i).flatMap bytesOfWord

/-- The number of words of an instruction. -/
def wordCount (i : Instr) : Nat := (encode i).length

/-- TRAP_INFO of the decoding causes: the base word in [15:0] and the prefix count in [18:16] (R237). -/
def infoOfInstr (i : Instr) : Word :=
  match encodeParts i with
  | some p => (BitVec.ofNat 64 p.prefixes.length <<< 16) ||| p.base.setWidth 64
  | none => 0#64

/-- The words of an instruction given as one number. With a prefix in the low half the low half is the first word; otherwise a
32-bit row has its first word, a prefix, in the high half, as the table's match and mask write it; a single word stands alone. -/
def wordsOfTable (nbits w : Nat) : List Half :=
  let lo := BitVec.ofNat 16 w
  let hi := BitVec.ofNat 16 (w / 65536)
  if nbits ≤ 16 then [lo] else if isPrefix hi && !isPrefix lo then [hi, lo] else [lo, hi]

/-- The instruction the decoder reads from a table row's bits; operand words past the row's bits are zero. -/
def decodeTableWord (nbits w : Nat) : Option Instr :=
  match decodeWords (wordsOfTable nbits w ++ [0#16, 0#16, 0#16, 0#16]) with
  | .instr i _ => some i
  | _ => none

end Sys2Proof
end

