-- ==== Sys2Proof/Config.lean ====
section
/-! DEFINITION. What an implementation fixes and the free values: constants without a body, so that nothing can evaluate them and a
statement holds for every value of them. Each is applied to the model's own counter `tick` (notes/assumptions/3.md) and to what it
depends on. -/

namespace Sys2Proof.Config

/-- Which of several events that are due happens first (notes/assumptions/3.md). -/
opaque pick : Nat → Nat

/-- A choice the spec leaves to the device at one step, numbered within the step. -/
opaque choice : Nat → Nat → Nat

/-- How many clk pass at a step besides those the model counts (notes/assumptions/5.md). -/
opaque extraClk : Nat → Nat

/-- A byte of contents that the spec calls undefined (R236, R263). -/
opaque freeByte : Nat → Nat → Byte

/-- A word whose value the spec leaves open (R213). -/
opaque freeWord : Nat → Nat → Word

/-- The entry point of the prefect for a monitor service (R229, R386). -/
opaque monitorEntry : Nat → Word

/-- The three words of the prefect's segment registers (R229). -/
opaque monitorSeg : Nat → Nat → Word

/-- The version of the prefect (R394). -/
opaque prefectVersion : Word

/-- The unique device secret (R400). -/
opaque deviceSecret : Nat → BitVec 384

/-- A number the standards a key or a signature follows derive from secrets: a P-384 signature, a shared secret, a certificate. -/
opaque derived : Nat → List Nat → BitVec 768

/-- The bytes of a certificate, of which the spec gives only what it certifies (R400). -/
opaque certificate : Nat → List Nat → List Byte

/-- Whether a package is the module, whose power limit is fixed, or the package part (R434). -/
opaque isModule : Nat → Bool

/-- An uncorrectable error of a step: a line of 32 bytes, and whether it shows as wrong data (R390, R418). -/
opaque dataError : Nat → Option (Nat × Bool)

/-- How many records the life log's ring holds (R433, R436: 8 MiB; the spec gives no size for a record). -/
opaque logCapacity : Nat

/-- The channel offset of a cluster's slate pool, which its prefect reserves at boot (R382). -/
opaque slatePool : Nat → Nat

/-- Whether an address that the host gave names CXL memory (R361: a ring's address is a host or a CXL address; the spec does not say which
addresses are which). -/
opaque inCxl : Nat → Bool

/-- Whether the memory behind the package's bus answers a copy to an address of it (R381). -/
opaque busAnswers : Nat → Nat → Bool

/-- The set of a last-level TLB that holds the page of a context and a cluster at an address (R378). -/
opaque tlbSet : Nat → Nat → Nat → Nat

end Sys2Proof.Config
end

