-- ==== Sys2Proof/Machine/Flags.lean ====
section
/-! DEFINITION. Floating-point flags and the fields of the predicate word (spec/01_grain_state.md R23-R25,
spec/02_numbers_and_arithmetic.md R53-R56). -/

namespace Sys2Proof.Machine

/-- A set of flags in the bit order of the predicate word, NX lowest (R23). -/
abbrev FFlags := BitVec 5

/-- Inexact. -/
def fNX : FFlags := 1#5
/-- Underflow. -/
def fUF : FFlags := 2#5
/-- Overflow. -/
def fOF : FFlags := 4#5
/-- Division by zero. -/
def fDZ : FFlags := 8#5
/-- Invalid operation. -/
def fNV : FFlags := 16#5

/-- A flag when a condition holds. -/
def fIf (b : Bool) (f : FFlags) : FFlags := if b then f else 0#5

/-- Rounding modes (R53). -/
inductive Rm where
  | rne | rtz | rdn | rup
  deriving DecidableEq, Repr

/-- Rounding-mode codes of bits [38:37] (R23). -/
def rmOf (b : BitVec 2) : Rm :=
  match b.toNat with
  | 0 => .rne
  | 1 => .rtz
  | 2 => .rdn
  | _ => .rup

/-- The mode and FTZ an operation computes under (R25, R53, R56). -/
structure FEnv where
  rm : Rm
  ftz : Bool
  deriving DecidableEq, Repr

/-- Round to nearest even without flushing: the matrix array, dequantisation (R52, R53). -/
def FEnv.nearest : FEnv := ⟨.rne, false⟩

/-! ### The predicate word -/

/-- Predicate `i`; p31 reads as 1 (R23). -/
def predOf (pw : Word) (i : BitVec 5) : Bool := i == 31#5 || pw.getLsbD i.toNat

/-- Writes predicate `i`; a write to p31 is discarded (R23). -/
def setPred (pw : Word) (i : BitVec 5) (b : Bool) : Word :=
  if i = 31#5 then pw
  else if b then pw ||| (1#64 <<< i.toNat) else pw &&& ~~~(1#64 <<< i.toNat)

/-- The mode and FTZ of a predicate word (R23). -/
def envOf (pw : Word) : FEnv := ⟨rmOf (pw.extractLsb' 37 2), pw.getLsbD 39⟩

/-- The sticky flags (R23). -/
def flagsOf (pw : Word) : FFlags := pw.extractLsb' 32 5

/-- ORs flags into the sticky bits (R55). -/
def orFlags (pw : Word) (f : FFlags) : Word := pw ||| (f.setWidth 64 <<< 32)

/-- Element-type codes of vtype and XPAGE (R24). -/
def etypeOfCode (c : BitVec 4) : Option EType :=
  match c.toNat with
  | 0 => some .n8 | 1 => some .i8 | 2 => some .n16 | 3 => some .i16
  | 4 => some .n32 | 5 => some .i32 | 6 => some .n64 | 7 => some .i64
  | 8 => some .f16 | 9 => some .bf16 | 10 => some .f32 | 11 => some .f64
  | _ => none

/-- The code of an element type (R24). -/
def etypeNum : EType → BitVec 4
  | .n8 => 0#4 | .i8 => 1#4 | .n16 => 2#4 | .i16 => 3#4
  | .n32 => 4#4 | .i32 => 5#4 | .n64 => 6#4 | .i64 => 7#4
  | .f16 => 8#4 | .bf16 => 9#4 | .f32 => 10#4 | .f64 => 11#4

/-- The default element type (R23); a reserved code never stands there (R24) and reads as f32. -/
def vtypeOf (pw : Word) : EType := (etypeOfCode (pw.extractLsb' 40 4)).getD .f32

/-- Writes vtype (R193). -/
def setVtype (pw : Word) (t : EType) : Word :=
  (pw &&& ~~~(0xF#64 <<< 40)) ||| ((etypeNum t).setWidth 64 <<< 40)

/-- A bit of the predicate word. -/
def setBit (pw : Word) (i : Nat) (b : Bool) : Word :=
  if b then pw ||| (1#64 <<< i) else pw &&& ~~~(1#64 <<< i)

/-- VDIRTY (R25). -/
def vdirtyOf (pw : Word) : Bool := pw.getLsbD 44
/-- SDIRTY (R25). -/
def sdirtyOf (pw : Word) : Bool := pw.getLsbD 45
/-- Ganged (R23). -/
def gangedOf (pw : Word) : Bool := pw.getLsbD 46

/-- The predicate word a grain starts with: zero except vtype f32 (R19). -/
def pwStart : Word := 0xA#64 <<< 40

end Sys2Proof.Machine
end

