-- ==== Sys2Proof/Machine/Float.lean ====
section
/-! DEFINITION. Floating-point arithmetic on bit patterns (spec/02_numbers_and_arithmetic.md R44-R46, R53-R61, R69). Exact values
are a sign, a natural magnitude and a binary exponent; every result is rounded once. -/

namespace Sys2Proof.Machine

/-! ### Formats (R44) -/

/-- Bits of an element type (R24). -/
def etBits : EType → Nat
  | .n8 | .i8 => 8
  | .n16 | .i16 | .f16 | .bf16 => 16
  | .n32 | .i32 | .f32 => 32
  | .n64 | .i64 | .f64 => 64

/-- Bytes of an element type. -/
def etBytes (t : EType) : Nat := etBits t / 8

/-- Signed integer types (R42). -/
def etSigned : EType → Bool
  | .i8 | .i16 | .i32 | .i64 => true
  | _ => false

/-- Fraction bits of a floating-point type (R44); 0 of an integer type. -/
def fracBits : EType → Nat
  | .f16 => 10 | .bf16 => 7 | .f32 => 23 | .f64 => 52 | _ => 0

/-- Exponent bits (R44). -/
def expBits : EType → Nat
  | .f16 => 5 | .bf16 => 8 | .f32 => 8 | .f64 => 11 | _ => 0

/-- Exponent bias (R44). -/
def expBias (t : EType) : Nat := 2 ^ (expBits t - 1) - 1

/-- The exponent field of infinities and NaNs. -/
def expMax (t : EType) : Nat := 2 ^ expBits t - 1

/-- The canonical NaN (R44). -/
def canonNaN (t : EType) : Nat := expMax t * 2 ^ fracBits t + 2 ^ (fracBits t - 1)

/-- The sign bit's weight. -/
def signWeight (t : EType) : Nat := 2 ^ (expBits t + fracBits t)

/-- The sign of a pattern. -/
def signOf (t : EType) (x : Nat) : Bool := x.testBit (expBits t + fracBits t)

/-- A pattern with a sign put before its exponent and fraction. -/
def withSign (t : EType) (neg : Bool) (mag : Nat) : Nat := (if neg then signWeight t else 0) + mag

/-- An infinity. -/
def infOf (t : EType) (neg : Bool) : Nat := withSign t neg (expMax t * 2 ^ fracBits t)

/-- A zero. -/
def zeroOf (t : EType) (neg : Bool) : Nat := withSign t neg 0

/-- The exponent field of a pattern. -/
def expField (t : EType) (x : Nat) : Nat := x / 2 ^ fracBits t % 2 ^ expBits t

/-- The fraction field of a pattern. -/
def fracField (t : EType) (x : Nat) : Nat := x % 2 ^ fracBits t

/-- NaN patterns (R44). -/
def isNaN (t : EType) (x : Nat) : Bool := expField t x == expMax t && fracField t x != 0

/-- Signalling NaN patterns (R44). -/
def isSNaN (t : EType) (x : Nat) : Bool := isNaN t x && !(x.testBit (fracBits t - 1))

/-- Subnormal patterns. -/
def isSubnormal (t : EType) (x : Nat) : Bool := expField t x == 0 && fracField t x != 0

/-- R46: the NaN with its most significant fraction bit set. -/
def quieten (t : EType) (x : Nat) : Nat := if x.testBit (fracBits t - 1) then x else x + 2 ^ (fracBits t - 1)

/-- What a pattern stands for: a NaN, an infinity, or sign × m × 2^e. -/
inductive FVal where
  | nan
  | inf (neg : Bool)
  | fin (neg : Bool) (m : Nat) (e : Int)
  deriving DecidableEq, Repr

/-- The value of a pattern (R44). -/
def unpack (t : EType) (x : Nat) : FVal :=
  let neg := signOf t x
  let ex := expField t x
  let fr := fracField t x
  if ex = expMax t then (if fr = 0 then .inf neg else .nan)
  else if ex = 0 then .fin neg fr (1 - (expBias t : Int) - fracBits t)
  else .fin neg (fr + 2 ^ fracBits t) ((ex : Int) - expBias t - fracBits t)

/-! ### Rounding (R53, R54) -/

/-- Whether a magnitude with remainder `r` of `d` (0 ≤ r < d) and truncated part `n` is rounded up. -/
def roundsUp (rm : Rm) (neg : Bool) (n r d : Nat) : Bool :=
  match rm with
  | .rne => decide (d < 2 * r) || (decide (d = 2 * r) && n % 2 == 1)
  | .rtz => false
  | .rdn => neg && r != 0
  | .rup => !neg && r != 0

/-- `m` × 2^(e - q) rounded to an integer, with whether it was inexact. -/
def roundAt (rm : Rm) (neg : Bool) (m : Nat) (e q : Int) : Nat × Bool :=
  if q ≤ e then (m * 2 ^ (e - q).toNat, false)
  else
    let d := 2 ^ (q - e).toNat
    let n := m / d
    let r := m % d
    (if roundsUp rm neg n r d then n + 1 else n, r != 0)

/-- The largest finite magnitude. -/
def maxFinite (t : EType) : Nat := expMax t * 2 ^ fracBits t - 1

/-- Overflow (R54). -/
def overflowTo (t : EType) (rm : Rm) (neg : Bool) : Nat :=
  let toInf := match rm with
    | .rne => true
    | .rtz => false
    | .rdn => neg
    | .rup => !neg
  if toInf then infOf t neg else withSign t neg (maxFinite t)

/-- Rounds sign × m × 2^e, m > 0, once to the format under `env`, with flags (R53, R54, R56). -/
def roundTo (t : EType) (env : FEnv) (neg : Bool) (m : Nat) (e : Int) : Nat × FFlags :=
  if m = 0 then (zeroOf t neg, 0#5)
  else
    let lead : Int := (Nat.log2 m : Int) + e
    let emin : Int := 1 - (expBias t : Int)
    let q : Int := max lead emin - fracBits t
    let (n, inexact) := roundAt env.rm neg m e q
    let full := 2 ^ (fracBits t + 1)
    let (n, q) := if n = full then (n / 2, q + 1) else (n, q)
    let tiny := decide (lead < emin) &&
      !(decide (lead = emin - 1) && (roundAt env.rm neg m e (lead - fracBits t)).1 == full)
    if n < 2 ^ fracBits t then
      if env.ftz && n != 0 then (zeroOf t neg, fUF ||| fNX)
      else (withSign t neg n, fIf inexact fNX ||| fIf (tiny && inexact) fUF)
    else
      let biased := (q + fracBits t + expBias t).toNat
      if expMax t ≤ biased then (overflowTo t env.rm neg, fOF ||| fNX)
      else (withSign t neg (biased * 2 ^ fracBits t + (n - 2 ^ fracBits t)),
        fIf inexact fNX ||| fIf (tiny && inexact) fUF)

/-- R56: a subnormal input is read as a zero of its sign. -/
def flushIn (t : EType) (env : FEnv) (x : Nat) : Nat :=
  if env.ftz && isSubnormal t x then zeroOf t (signOf t x) else x

/-- R57: the first NaN of the operands, quietened, with NV when any is signalling. -/
def nanOf (t : EType) (xs : List Nat) : Option (Nat × FFlags) :=
  match xs.find? (isNaN t) with
  | some x => some (quieten t x, fIf (xs.any (isSNaN t)) fNV)
  | none => none

/-- R57: an invalid operation without a NaN operand. -/
def invalidOp (t : EType) : Nat × FFlags := (canonNaN t, fNV)

/-- A signed magnitude as an integer multiple of 2^q, q ≤ e. -/
def scaled (neg : Bool) (m : Nat) (e q : Int) : Int :=
  let v : Int := (m * 2 ^ (e - q).toNat : Nat)
  if neg then -v else v

/-- The exact sum of two finite values, rounded once; a zero sum has the operands' common sign, else the sign of the mode (IEEE 754). -/
def sumRound (t : EType) (env : FEnv) (n1 : Bool) (m1 : Nat) (e1 : Int) (n2 : Bool) (m2 : Nat) (e2 : Int) : Nat × FFlags :=
  if m1 = 0 ∧ m2 = 0 then (zeroOf t (if n1 = n2 then n1 else env.rm == .rdn), 0#5)
  else
    let q := min e1 e2
    let v := scaled n1 m1 e1 q + scaled n2 m2 e2 q
    if v = 0 then (zeroOf t (env.rm == .rdn), 0#5)
    else roundTo t env (decide (v < 0)) v.natAbs q

/-- Addition (R53-R57). -/
def fadd (t : EType) (env : FEnv) (a b : Nat) : Nat × FFlags :=
  let a := flushIn t env a
  let b := flushIn t env b
  match nanOf t [a, b] with
  | some r => r
  | none =>
    match unpack t a, unpack t b with
    | .inf s1, .inf s2 => if s1 = s2 then (infOf t s1, 0#5) else invalidOp t
    | .inf s1, _ => (infOf t s1, 0#5)
    | _, .inf s2 => (infOf t s2, 0#5)
    | .fin n1 m1 e1, .fin n2 m2 e2 => sumRound t env n1 m1 e1 n2 m2 e2
    | _, _ => invalidOp t

/-- The sign bit inverted (R56). -/
def fneg (t : EType) (x : Nat) : Nat := Nat.xor x (signWeight t)

/-- The sign bit cleared (R56). -/
def fabs (t : EType) (x : Nat) : Nat := x % signWeight t

/-- Subtraction: addition of b with its sign inverted, a NaN b keeping its own sign (R57). -/
def fsub (t : EType) (env : FEnv) (a b : Nat) : Nat × FFlags :=
  if isNaN t b then fadd t env a b else fadd t env a (fneg t b)

/-- Multiplication (R53-R57). -/
def fmul (t : EType) (env : FEnv) (a b : Nat) : Nat × FFlags :=
  let a := flushIn t env a
  let b := flushIn t env b
  match nanOf t [a, b] with
  | some r => r
  | none =>
    match unpack t a, unpack t b with
    | .inf s1, .inf s2 => (infOf t (s1 != s2), 0#5)
    | .inf s1, .fin s2 m _ => if m = 0 then invalidOp t else (infOf t (s1 != s2), 0#5)
    | .fin s1 m _, .inf s2 => if m = 0 then invalidOp t else (infOf t (s1 != s2), 0#5)
    | .fin s1 m1 e1, .fin s2 m2 e2 => roundTo t env (s1 != s2) (m1 * m2) (e1 + e2)
    | _, _ => invalidOp t

/-- a × b + c with one rounding (R58). -/
def ffma (t : EType) (env : FEnv) (a b c : Nat) : Nat × FFlags :=
  let a := flushIn t env a
  let b := flushIn t env b
  let c := flushIn t env c
  let invalid := match unpack t a, unpack t b with
    | .inf _, .fin _ m _ => m == 0
    | .fin _ m _, .inf _ => m == 0
    | _, _ => false
  match nanOf t [a, b, c] with
  | some (r, f) => (r, f ||| fIf invalid fNV)
  | none =>
    if invalid then invalidOp t
    else
      match unpack t a, unpack t b, unpack t c with
      | .fin s1 m1 e1, .fin s2 m2 e2, .fin s3 m3 e3 => sumRound t env (s1 != s2) (m1 * m2) (e1 + e2) s3 m3 e3
      | .fin .., .fin .., .inf s3 => (infOf t s3, 0#5)
      | x, y, z =>
        let sp := signOf t a != signOf t b
        match x, y, z with
        | _, _, .inf s3 => if sp = s3 then (infOf t s3, 0#5) else invalidOp t
        | _, _, _ => (infOf t sp, 0#5)

/-- Order of two patterns that are no NaNs: a < b, with -0 below +0 when `zeros`. -/
def flt (t : EType) (zeros : Bool) (a b : Nat) : Bool :=
  let sa := signOf t a
  let sb := signOf t b
  let ma := fabs t a
  let mb := fabs t b
  if ma = 0 ∧ mb = 0 then zeros && sa && !sb
  else match sa, sb with
    | true, false => true
    | false, true => false
    | false, false => decide (ma < mb)
    | true, true => decide (mb < ma)

/-- The lesser operand (R59). -/
def fmin (t : EType) (env : FEnv) (a b : Nat) : Nat × FFlags :=
  let a := flushIn t env a
  let b := flushIn t env b
  match nanOf t [a, b] with
  | some r => r
  | none => (if flt t true b a then b else a, 0#5)

/-- The greater operand (R59). -/
def fmax (t : EType) (env : FEnv) (a b : Nat) : Nat × FFlags :=
  let a := flushIn t env a
  let b := flushIn t env b
  match nanOf t [a, b] with
  | some r => r
  | none => (if flt t true a b then b else a, 0#5)

/-- VCMP's conditions (R60, R184): the result and the flags. -/
def fcmp (t : EType) (env : FEnv) (c : VCond) (a b : Nat) : Bool × FFlags :=
  let a := flushIn t env a
  let b := flushIn t env b
  let f := fIf (isSNaN t a || isSNaN t b) fNV
  let un := isNaN t a || isNaN t b
  let lt := flt t false a b
  let eq := !lt && !flt t false b a
  match c with
  | .eq => (!un && eq, f)
  | .ne => (un || !eq, f)
  | .lt => (!un && lt, f)
  | .ge => (!un && !lt, f)

/-! ### Conversions (R61) -/

/-- A NaN carried to another format: sign and the upper fraction bits, quietened. -/
def nanCarry (src dst : EType) (x : Nat) : Nat :=
  let x := quieten src x
  let fr := fracField src x
  let fr' := if fracBits src ≤ fracBits dst then fr * 2 ^ (fracBits dst - fracBits src)
    else fr / 2 ^ (fracBits src - fracBits dst)
  withSign dst (signOf src x) (expMax dst * 2 ^ fracBits dst + fr')

/-- Float to float. -/
def cvtFF (src dst : EType) (env : FEnv) (x : Nat) : Nat × FFlags :=
  let x := flushIn src env x
  match unpack src x with
  | .nan => (nanCarry src dst x, fIf (isSNaN src x) fNV)
  | .inf s => (infOf dst s, 0#5)
  | .fin s m e => roundTo dst env s m e

/-- The least and greatest values of an integer type. -/
def intRange (t : EType) : Int × Int :=
  if etSigned t then (-(2 ^ (etBits t - 1) : Nat), (2 ^ (etBits t - 1) : Nat) - 1)
  else (0, (2 ^ etBits t : Nat) - 1)

/-- An integer as the pattern of its type, modulo 2^w (R42). -/
def intBits (w : Nat) (v : Int) : Nat := (v % (2 ^ w : Nat)).toNat

/-- The integer a pattern of an integer type stands for (R42). -/
def intVal (t : EType) (x : Nat) : Int :=
  if etSigned t then signExtend x (etBits t) else (x % 2 ^ etBits t : Nat)

/-- `v` clamped to the range of `t`. -/
def satTo (t : EType) (v : Int) : Int := max (intRange t).1 (min v (intRange t).2)

/-- Float to integer: rounded, then saturated; a NaN gives 0 (R61). -/
def cvtFI (src dst : EType) (env : FEnv) (x : Nat) : Nat × FFlags :=
  let x := flushIn src env x
  match unpack src x with
  | .nan => (0, fNV)
  | .inf s => (intBits (etBits dst) (if s then (intRange dst).1 else (intRange dst).2), fNV)
  | .fin s m e =>
    let (n, inexact) := roundAt env.rm s m e 0
    let v : Int := if s then -(n : Int) else n
    let c := satTo dst v
    (intBits (etBits dst) c, if c = v then fIf inexact fNX else fNV)

/-- Integer to float: rounded once (R61). DEDUCED: OF is impossible there, so an integer beyond f16's range gives its rounded value with NX
only (notes/assumptions/66.md). -/
def cvtIF (src dst : EType) (env : FEnv) (x : Nat) : Nat × FFlags :=
  let v := intVal src x
  let r := roundTo dst env (decide (v < 0)) v.natAbs 0
  (r.1, r.2 &&& ~~~fOF)

/-- Integer to integer: truncated or extended, or saturated when `sat` (R61, R183). -/
def cvtII (src dst : EType) (sat : Bool) (x : Nat) : Nat × FFlags :=
  let v := intVal src x
  (intBits (etBits dst) (if sat then satTo dst v else v), 0#5)

/-- VCVT of one element (R61, R183). -/
def cvtElem (src dst : EType) (env : FEnv) (sat : Bool) (x : Nat) : Nat × FFlags :=
  match src.isFloat, dst.isFloat with
  | true, true => cvtFF src dst env x
  | true, false => cvtFI src dst env x
  | false, true => cvtIF src dst env x
  | false, false => cvtII src dst sat x

/-! ### Floating-point atomics (R69, R70) -/

/-- The operations of R69. -/
inductive FAtomic where
  | add | min | max
  deriving DecidableEq, Repr

/-- R69: the new value and its flags. The memory's NaN comes before the operand's. -/
def fatomic (op : FAtomic) (t : EType) (rm : Rm) (old v : Nat) : Nat × FFlags :=
  match op with
  | .add => fadd t ⟨rm, false⟩ old v
  | .min => fmin t ⟨rm, false⟩ old v
  | .max => fmax t ⟨rm, false⟩ old v

end Sys2Proof.Machine
end

