-- ==== Sys2Proof/Machine/Quant.lean ====
section
/-! DEFINITION. Quantised blocks and the sums of the matrix array (spec/02_numbers_and_arithmetic.md R46-R52, R62-R66). -/

namespace Sys2Proof.Machine

/-- The quantised formats (R48). -/
inductive QFmt where
  | q8 | q4 | q8s | q4s
  deriving DecidableEq, Repr

/-- Format codes 0x10 to 0x13 (R29). -/
def qfmtOf (code : Nat) : Option QFmt :=
  match code with
  | 16 => some .q8 | 17 => some .q4 | 18 => some .q8s | 19 => some .q4s
  | _ => none

/-- Formats with four-bit codes. -/
def QFmt.nibbles : QFmt → Bool
  | .q4 | .q4s => true
  | _ => false

/-- Sparse formats (R50). -/
def QFmt.sparse : QFmt → Bool
  | .q8s | .q4s => true
  | _ => false

/-- Elements of a group (R47). -/
def groupSize (log : Nat) : Nat := 4 * 2 ^ log

/-- Bytes of a group (R48). -/
def groupBytes (q : QFmt) (g : Nat) : Nat :=
  match q with
  | .q8 => g
  | .q4 => g / 2
  | .q8s => 5 * g / 8
  | .q4s => 3 * g / 8

/-- Bytes of a block (R48). -/
def blockBytes (q : QFmt) (log : Nat) : Nat := 32 + 8 * groupBytes q (groupSize log)

/-- A decoded group: the FP16 scale, the zero point and the codes, none for an element that is not kept (R49, R50). -/
structure QGroup where
  scale : Nat
  zero : Nat
  codes : List (Option Nat)
  deriving DecidableEq, Repr

/-- Byte `i` of a list, 0 past its end. -/
def byteAt (bs : List Byte) (i : Nat) : Nat := (bs.getD i 0#8).toNat

/-- Code `i` of packed codes (R48). -/
def packedCode (nib : Bool) (bs : List Byte) (i : Nat) : Nat :=
  if nib then byteAt bs (i / 2) / (if i % 2 = 0 then 1 else 16) % 16 else byteAt bs i

/-- The mask of set `s` (R50). -/
def maskOf (bs : List Byte) (s : Nat) : Nat := byteAt bs (s / 2) / (if s % 2 = 0 then 1 else 16) % 16

/-- Bits set below bit `i` of a mask. -/
def bitsBelow (m i : Nat) : Nat := ((List.range i).filter m.testBit).length

/-- The codes of one group's data (R48, R50). -/
def groupCodes (q : QFmt) (g : Nat) (data : List Byte) : List (Option Nat) :=
  if q.sparse then
    let kept := data.drop (g / 8)
    (List.range g).map fun j =>
      let m := maskOf data (j / 4)
      if m.testBit (j % 4) then some (packedCode q.nibbles kept (2 * (j / 4) + bitsBelow m (j % 4))) else none
  else (List.range g).map fun j => some (packedCode q.nibbles data j)

/-- R51: whether a group's header and masks are valid. -/
def groupValid (q : QFmt) (g : Nat) (hdr data : List Byte) : Bool :=
  byteAt hdr 3 == 0 && (!q.nibbles || byteAt hdr 2 / 16 == 0)
    && (!q.sparse || (List.range (g / 4)).all fun s => bitsBelow (maskOf data s) 4 == 2)

/-- R48-R51: the eight groups of a block, or none when it is invalid. -/
def decodeBlock (q : QFmt) (log : Nat) (bytes : List Byte) : Option (List QGroup) :=
  let g := groupSize log
  let gb := groupBytes q g
  let grp := fun k => ((bytes.drop (4 * k)).take 4, (bytes.drop (32 + gb * k)).take gb)
  if (List.range 8).all fun k => groupValid q g (grp k).1 (grp k).2 then
    some ((List.range 8).map fun k =>
      { scale := byteAt (grp k).1 0 + 256 * byteAt (grp k).1 1, zero := byteAt (grp k).1 2, codes := groupCodes q g (grp k).2 })
  else none

/-- R52: fp32(scale) × (code - zero), exactly. DEDUCED: a difference of 0 is +0 (notes/assumptions/66.md). An element that is not kept is +0.0 (R50). -/
def dequant (scale zero : Nat) (code : Option Nat) : Nat × FFlags :=
  match code with
  | none => (0, 0#5)
  | some c =>
    let s := cvtFF .f16 .f32 FEnv.nearest scale
    let d : Int := (c : Int) - zero
    let r := fmul .f32 FEnv.nearest s.1 (roundTo .f32 FEnv.nearest (decide (d < 0)) d.natAbs 0).1
    (r.1, s.2 ||| r.2)

/-- R62: the code of an element, with its flags. -/
def quantElem (t : EType) (env : FEnv) (x scale zero : Nat) (q4 : Bool) : Nat × FFlags :=
  let top : Int := if q4 then 15 else 255
  let x := flushIn t env x
  match unpack .f16 scale with
  | .nan | .inf _ => (zero, fNV)
  | .fin ss ms es =>
    if ms = 0 then (zero, fNV)
    else match unpack t x with
      | .nan => (zero, fNV)
      | .inf sx => (if sx != ss then 0 else top.toNat, fNV)
      | .fin sx mx ex =>
        let neg := sx != ss
        let num := if 0 ≤ ex - es then mx * 2 ^ (ex - es).toNat else mx
        let den := if 0 ≤ ex - es then ms else ms * 2 ^ (es - ex).toNat
        let n := num / den
        let r := num % den
        let k : Int := if roundsUp env.rm neg n r den then n + 1 else n
        let v : Int := zero + (if neg then -k else k)
        let c := max 0 (min v top)
        (c.toNat, if c = v then fIf (r != 0) fNX else fNV)

/-! ### Sums in the matrix array (R63, R64) -/

/-- A NaN becomes the canonical NaN of f32. -/
def canon32 (x : Nat) : Nat := if isNaN .f32 x then canonNaN .f32 else x

/-- R63: an exact product, with NV for an invalid one or a signalling operand. -/
def exactProduct (ta : EType) (a : Nat) (tb : EType) (b : Nat) : FVal × FFlags :=
  let snan := fIf (isSNaN ta a || isSNaN tb b) fNV
  match unpack ta a, unpack tb b with
  | .nan, _ => (.nan, snan)
  | _, .nan => (.nan, snan)
  | .inf s1, .inf s2 => (.inf (s1 != s2), 0#5)
  | .inf s1, .fin s2 m _ => if m = 0 then (.nan, fNV) else (.inf (s1 != s2), 0#5)
  | .fin s1 m _, .inf s2 => if m = 0 then (.nan, fNV) else (.inf (s1 != s2), 0#5)
  | .fin s1 m1 e1, .fin s2 m2 e2 => (.fin (s1 != s2) (m1 * m2) (e1 + e2), 0#5)

/-- Leading positions of the nonzero products. -/
def leadOf : FVal → Option Int
  | .fin _ m e => if m = 0 then none else some ((Nat.log2 m : Int) + e)
  | _ => none

/-- A product truncated to a multiple of 2^u toward zero, and whether bits were lost. -/
def truncProduct (u : Int) : FVal → Int × Bool
  | .fin neg m e =>
    let n := if u ≤ e then m * 2 ^ (e - u).toNat else m / 2 ^ (u - e).toNat
    let lost := !decide (u ≤ e) && m % 2 ^ (u - e).toNat != 0
    (if neg then -(n : Int) else n, lost)
  | _ => (0, false)

/-- A zero product with its sign set. -/
def isNegZero : FVal → Bool
  | .fin neg m _ => neg && m == 0
  | _ => false

/-- R63: the sum of a group of products padded to sixteen, with the flags of R64. DEDUCED: UF comes from the rounding alone, not from the
truncation (notes/assumptions/66.md). -/
def groupSum (ps : List FVal) : Nat × FFlags :=
  let pinf := ps.contains (.inf false)
  let ninf := ps.contains (.inf true)
  if ps.contains .nan then (canonNaN .f32, fIf (pinf && ninf) fNV)
  else if pinf && ninf then (canonNaN .f32, fNV)
  else if pinf || ninf then (infOf .f32 ninf, 0#5)
  else match (ps.filterMap leadOf).max? with
    | none => (zeroOf .f32 (decide (16 ≤ ps.length) && ps.all isNegZero), 0#5)
    | some e =>
      let ts := ps.map (truncProduct (e - 31))
      let t := (ts.map Prod.fst).sum
      let lost := fIf (ts.any Prod.snd) fNX
      let r := roundTo .f32 FEnv.nearest (decide (t < 0)) t.natAbs (e - 31)
      (r.1, r.2 ||| lost)

/-- R63: c := c + s, a NaN made canonical. -/
def accumulate (c s : Nat) : Nat × FFlags :=
  let r := fadd .f32 FEnv.nearest c s
  (canon32 r.1, r.2)

/-- The elements of a list in groups of sixteen, at most `fuel` groups. -/
def chunks16 {α : Type} : Nat → List α → List (List α)
  | 0, _ => []
  | fuel + 1, xs => if xs.isEmpty then [] else xs.take 16 :: chunks16 fuel (xs.drop 16)

/-- R63: one output element of an MMA over pairs of A and B elements in ascending k. -/
def mmaElem (ta tb : EType) (c : Nat) (ab : List (Nat × Nat)) : Nat × FFlags :=
  (chunks16 ab.length ab).foldl (fun (acc : Nat × FFlags) grp =>
    let ps := grp.map fun x => exactProduct ta x.1 tb x.2
    let s := groupSum (ps.map Prod.fst)
    let r := accumulate acc.1 s.1
    (r.1, ps.foldl (fun f p => f ||| p.2) (acc.2 ||| s.2 ||| r.2))) (c, 0#5)

/-- R65: t × sa × sb rounded once, special scales as R63's special cases. DEDUCED: a zero t gives +0 whatever the scales' signs
(notes/assumptions/66.md). -/
def scaledSum (t : Int) (sa sb : Nat) : Nat × FFlags :=
  match exactProduct .f16 sa .f16 sb with
  | (.nan, f) => (canonNaN .f32, f)
  | (.inf s, f) => if t = 0 then (canonNaN .f32, f ||| fNV) else (infOf .f32 (s != decide (t < 0)), f)
  | (.fin s m e, f) =>
    let r := roundTo .f32 FEnv.nearest (if t = 0 then false else s != decide (t < 0)) (t.natAbs * m) e
    (r.1, f ||| r.2)

/-- R65: the exact integer sum of one pair of groups. -/
def intGroupSum (a b : QGroup) : Int :=
  ((a.codes.zip b.codes).map fun x =>
    match x.1, x.2 with
    | some p, some q => ((p : Int) - a.zero) * ((q : Int) - b.zero)
    | _, _ => 0).sum

/-- R65: one output element of an MMAI over pairs of groups in ascending k. -/
def mmaiElem (c : Nat) (ab : List (QGroup × QGroup)) : Nat × FFlags :=
  ab.foldl (fun (acc : Nat × FFlags) g =>
    let s := scaledSum (intGroupSum g.1 g.2) g.1.scale g.2.scale
    let r := accumulate acc.1 s.1
    (r.1, acc.2 ||| s.2 ||| r.2)) (c, 0#5)

end Sys2Proof.Machine
end

