-- ==== Sys2Proof/Machine/Special.lean ====
section
/-! DEFINITION. The special functions of spec/02_numbers_and_arithmetic.md R71. VRCP, VRSQ and VSQRT are computed exactly with a
sticky bit. The transcendental functions are enclosed between two fixed-point numbers, and the precision is doubled until both
ends round to the same pattern; their inexact values never stand on a rounding boundary. -/

namespace Sys2Proof.Machine

/-- ⌊√n⌋ found bit by bit below 2^k. -/
def isqrtBits (n : Nat) : Nat → Nat → Nat
  | 0, r => r
  | k + 1, r =>
    let r' := r + 2 ^ k
    isqrtBits n k (if r' * r' ≤ n then r' else r)

/-- ⌊√n⌋. -/
def isqrt (n : Nat) : Nat := isqrtBits n (Nat.log2 n / 2 + 1) 0

/-- A magnitude with its lowest bit set when something was lost below it. -/
def jam (n : Nat) (lost : Bool) : Nat := 2 * n + (if lost then 1 else 0)

/-! ### Exact algebraic functions -/

/-- 1 ÷ (m × 2^e), rounded to nearest even. -/
def rcpRound (t : EType) (ftz neg : Bool) (m : Nat) (e : Int) : Nat × FFlags :=
  let k := Nat.log2 m + 130
  let q := 2 ^ k / m
  roundTo t ⟨.rne, ftz⟩ neg (jam q (2 ^ k % m != 0)) (-(k : Int) - e - 1)

/-- √(m × 2^e), rounded under the mode. -/
def sqrtRound (t : EType) (env : FEnv) (m : Nat) (e : Int) : Nat × FFlags :=
  let m := if e % 2 = 0 then m else 2 * m
  let e := if e % 2 = 0 then e else e - 1
  let n := m * 2 ^ 260
  let r := isqrt n
  roundTo t env false (jam r (r * r != n)) (e / 2 - 131)

/-- 1 ÷ √(m × 2^e), rounded to nearest even. -/
def rsqRound (t : EType) (ftz : Bool) (m : Nat) (e : Int) : Nat × FFlags :=
  let m := if e % 2 = 0 then m else 2 * m
  let e := if e % 2 = 0 then e else e - 1
  let k := Nat.log2 m + 260
  let r := isqrt (2 ^ (2 * k) / m)
  roundTo t ⟨.rne, ftz⟩ false (jam r (r * r * m != 2 ^ (2 * k))) (-(k : Int) - e / 2 - 1)

/-! ### Fixed-point series: integers scaled by 2^p, each term truncated -/

/-- Σ z^(2k+1) ÷ (2k+1) with alternating signs when `alt`; `zz` is z². -/
def oddSeries (p : Nat) (alt : Bool) (zz : Int) : Nat → Nat → Int → Int → Int
  | 0, _, _, acc => acc
  | fuel + 1, k, pow, acc =>
    let term := pow / (2 * k + 1 : Nat)
    let acc := if alt && k % 2 == 1 then acc - term else acc + term
    oddSeries p alt zz fuel (k + 1) (pow * zz / (2 ^ p : Nat)) acc

/-- ln 2 = 2 artanh(1/3). -/
def ln2Fix (p : Nat) : Int :=
  let z : Int := (2 ^ p : Nat) / 3
  2 * oddSeries p false (z * z / (2 ^ p : Nat)) (p / 3 + 4) 0 z 0

/-- π = 16 arctan(1/5) - 4 arctan(1/239). -/
def piFix (p : Nat) : Int :=
  let z1 : Int := (2 ^ p : Nat) / 5
  let z2 : Int := (2 ^ p : Nat) / 239
  16 * oddSeries p true (z1 * z1 / (2 ^ p : Nat)) (p / 4 + 4) 0 z1 0
    - 4 * oddSeries p true (z2 * z2 / (2 ^ p : Nat)) (p / 15 + 4) 0 z2 0

/-- Σ y^k ÷ k! for 0 ≤ y < 1. -/
def expSeries (p : Nat) (y : Int) : Nat → Nat → Int → Int → Int
  | 0, _, _, acc => acc
  | fuel + 1, k, term, acc =>
    expSeries p y fuel (k + 1) (term * y / (2 ^ p : Nat) / (k + 1 : Nat)) (acc + term)

/-- e^y for 0 ≤ y < 1. -/
def expFix (p : Nat) (y : Int) : Int := expSeries p y (p / 2 + 8) 0 (2 ^ p : Nat) 0

/-- Σ (-1)^k r^(2k+c) ÷ (2k+c)! with `c` = 1 for the sine and 0 for the cosine. -/
def trigSeries (p : Nat) (rr : Int) : Nat → Nat → Int → Int → Int
  | 0, _, _, acc => acc
  | fuel + 1, k, term, acc =>
    trigSeries p rr fuel (k + 2) (-(term * rr / (2 ^ p : Nat) / ((k + 1) * (k + 2) : Nat))) (acc + term)

/-- sin r for 0 ≤ r < 2. -/
def sinFix (p : Nat) (r : Int) : Int := trigSeries p (r * r / (2 ^ p : Nat)) (p / 4 + 8) 1 r 0

/-- cos r for 0 ≤ r < 2. -/
def cosFix (p : Nat) (r : Int) : Int := trigSeries p (r * r / (2 ^ p : Nat)) (p / 4 + 8) 0 (2 ^ p : Nat) 0

/-- m × 2^e scaled by 2^p, truncated. -/
def fixOf (p : Nat) (m : Nat) (e : Int) : Int :=
  if 0 ≤ e + p then (m * 2 ^ (e + p).toNat : Nat) else (m / 2 ^ (-(e + p)).toNat : Nat)

/-! ### Enclosures: a centre scaled by 2^p; the true value lies within 2^(p/2 - 16) of it -/

/-- 2^x for x = ±m × 2^e with |x| < 2^12: the fraction's power at precision p and the integer exponent. -/
def exp2Enc (p : Nat) (neg : Bool) (m : Nat) (e : Int) : Int × Int :=
  let x := fixOf p m e
  let x := if neg then -x else x
  let n := x / (2 ^ p : Nat)
  let f := x - n * (2 ^ p : Nat)
  (expFix p (f * ln2Fix p / (2 ^ p : Nat)), n)

/-- log2(m × 2^e). -/
def log2Enc (p : Nat) (m : Nat) (e : Int) : Int :=
  let b := Nat.log2 m
  let one : Int := (2 ^ p : Nat)
  let f := fixOf p m (-(b : Int))
  let big := decide (3 * one < 2 * f)
  let f := if big then f / 2 else f
  let n : Int := e + b + (if big then 1 else 0)
  let z := (f - one) * one / (f + one)
  let ln := 2 * oddSeries p false (z * z / one) (p / 4 + 8) 0 z 0
  n * one + ln * one / ln2Fix p

/-- The quadrant and the remainder of m × 2^e modulo π/2. -/
def reduceTrig (p : Nat) (m : Nat) (e : Int) : Nat × Int :=
  let q := p + (Nat.log2 m + e).toNat + 8
  let x := fixOf q m e
  let h := piFix q / 2
  let k := x / h
  ((k % 4).toNat, (x - k * h) / (2 ^ (q - p) : Nat))

/-- sin (or cos) of m × 2^e. -/
def trigEnc (p : Nat) (isCos : Bool) (m : Nat) (e : Int) : Int :=
  let (k, r) := reduceTrig p m e
  match (k + (if isCos then 1 else 0)) % 4 with
  | 0 => sinFix p r
  | 1 => cosFix p r
  | 2 => -sinFix p r
  | _ => -cosFix p r

/-- tanh(m × 2^e) for values below 32. -/
def tanhEnc (p : Nat) (m : Nat) (e : Int) : Int :=
  let one : Int := (2 ^ p : Nat)
  let a := 2 * fixOf p m e
  let l := ln2Fix p
  let n := a / l
  let t := one * one / expFix p (a - n * l) / (2 ^ n.toNat : Nat)
  (one - t) * one / (one + t)

/-- The transcendental functions. -/
inductive SFun where
  | exp2 | log2 | sin | cos | tanh
  deriving DecidableEq, Repr

/-- A centre and the exponent of its unit, for a positive or negative argument. -/
def encFun (fn : SFun) (p : Nat) (neg : Bool) (m : Nat) (e : Int) : Int × Int :=
  match fn with
  | .exp2 => let (v, n) := exp2Enc p neg m e; (v, n - p)
  | .log2 => (log2Enc p m e, -(p : Int))
  | .sin => (if neg then -trigEnc p false m e else trigEnc p false m e, -(p : Int))
  | .cos => (trigEnc p true m e, -(p : Int))
  | .tanh => (if neg then -tanhEnc p m e else tanhEnc p m e, -(p : Int))

/-- Rounds the two ends of an enclosure; the answer stands when they agree. -/
def roundEnds (t : EType) (ftz : Bool) (v q : Int) (err : Nat) : Option (Nat × FFlags) :=
  let lo := v - err
  let hi := v + err
  if lo = 0 ∨ hi = 0 then none
  else
    let a := roundTo t ⟨.rne, ftz⟩ (decide (lo < 0)) lo.natAbs q
    let b := roundTo t ⟨.rne, ftz⟩ (decide (hi < 0)) hi.natAbs q
    if a.1 = b.1 ∧ (a.2 ||| fNX) = (b.2 ||| fNX) then some (a.1, a.2 ||| fNX) else none

/-- Doubles the precision until the ends agree. The last precision stands without a check: no input is known to need it. -/
def roundFun (t : EType) (ftz : Bool) (fn : SFun) (neg : Bool) (m : Nat) (e : Int) : Nat → Nat → Nat × FFlags
  | 0, p => let (v, q) := encFun fn p neg m e
    let r := roundTo t ⟨.rne, ftz⟩ (decide (v < 0)) v.natAbs q
    (r.1, r.2 ||| fNX)
  | fuel + 1, p =>
    let (v, q) := encFun fn p neg m e
    match roundEnds t ftz v q (2 ^ (p / 2 - 16)) with
    | some r => r
    | none => roundFun t ftz fn neg m e fuel (2 * p)

/-- The value of a function at a finite argument that is not one of R71's exact cases. -/
def transcendental (t : EType) (ftz : Bool) (fn : SFun) (neg : Bool) (m : Nat) (e : Int) : Nat × FFlags :=
  roundFun t ftz fn neg m e 6 192

/-- A value just below sign × m × 2^e in magnitude, closer than any rounding boundary. -/
def justBelow (t : EType) (ftz neg : Bool) (m : Nat) (e : Int) : Nat × FFlags :=
  roundTo t ⟨.rne, ftz⟩ neg (m * 2 ^ 70 - 1) (e - 70)

/-! ### The functions on f32 and f64 patterns (R71) -/

/-- VRCP. -/
def rcpWide (t : EType) (ftz : Bool) (x : Nat) : Nat × FFlags :=
  match unpack t x with
  | .nan => invalidOp t
  | .inf s => (zeroOf t s, 0#5)
  | .fin s m e => if m = 0 then (infOf t s, fDZ) else rcpRound t ftz s m e

/-- VRSQ. -/
def rsqWide (t : EType) (ftz : Bool) (x : Nat) : Nat × FFlags :=
  match unpack t x with
  | .nan => invalidOp t
  | .inf s => if s then invalidOp t else (0, 0#5)
  | .fin s m e => if m = 0 then (infOf t s, fDZ) else if s then invalidOp t else rsqRound t ftz m e

/-- VSQRT, under the given mode. -/
def sqrtWide (t : EType) (env : FEnv) (x : Nat) : Nat × FFlags :=
  match unpack t x with
  | .nan => invalidOp t
  | .inf s => if s then invalidOp t else (infOf t false, 0#5)
  | .fin s m e => if m = 0 then (zeroOf t s, 0#5) else if s then invalidOp t else sqrtRound t env m e

/-- m × 2^e as an integer when it is one. -/
def asInt (m : Nat) (e : Int) : Option Nat :=
  if 0 ≤ e then some (m * 2 ^ e.toNat)
  else if m % 2 ^ (-e).toNat = 0 then some (m / 2 ^ (-e).toNat) else none

/-- VEXP2. -/
def exp2Wide (t : EType) (ftz : Bool) (x : Nat) : Nat × FFlags :=
  match unpack t x with
  | .nan => invalidOp t
  | .inf s => if s then (0, 0#5) else (infOf t false, 0#5)
  | .fin s m e =>
    if m = 0 then roundTo t ⟨.rne, ftz⟩ false 1 0
    else if 12 ≤ (Nat.log2 m : Int) + e then
      (if s then roundTo t ⟨.rne, ftz⟩ false 3 (-8192) else (infOf t false, fOF ||| fNX))
    else match asInt m e with
      | some n => roundTo t ⟨.rne, ftz⟩ false 1 (if s then -(n : Int) else n)
      | none => transcendental t ftz .exp2 s m e

/-- VLOG2. -/
def log2Wide (t : EType) (ftz : Bool) (x : Nat) : Nat × FFlags :=
  match unpack t x with
  | .nan => invalidOp t
  | .inf s => if s then invalidOp t else (infOf t false, 0#5)
  | .fin s m e =>
    if m = 0 then (infOf t true, fDZ)
    else if s then invalidOp t
    else if m = 2 ^ Nat.log2 m then
      (let n : Int := e + Nat.log2 m
       roundTo t ⟨.rne, ftz⟩ (decide (n < 0)) n.natAbs 0)
    else transcendental t ftz .log2 false m e

/-- VSIN and VCOS. -/
def trigWide (t : EType) (ftz isCos : Bool) (x : Nat) : Nat × FFlags :=
  match unpack t x with
  | .nan => invalidOp t
  | .inf _ => invalidOp t
  | .fin s m e =>
    if m = 0 then (if isCos then roundTo t ⟨.rne, ftz⟩ false 1 0 else (zeroOf t s, 0#5))
    else if (Nat.log2 m : Int) + e < -33 then
      (if isCos then justBelow t ftz false 1 0 else justBelow t ftz s m e)
    else transcendental t ftz (if isCos then .cos else .sin) s m e

/-- VTANH. -/
def tanhWide (t : EType) (ftz : Bool) (x : Nat) : Nat × FFlags :=
  match unpack t x with
  | .nan => invalidOp t
  | .inf s => roundTo t ⟨.rne, ftz⟩ s 1 0
  | .fin s m e =>
    if m = 0 then (zeroOf t s, 0#5)
    else if (Nat.log2 m : Int) + e < -33 then justBelow t ftz s m e
    else if 5 ≤ (Nat.log2 m : Int) + e then justBelow t ftz s 1 0
    else transcendental t ftz .tanh s m e

/-- The eight special functions (R192). -/
inductive Special where
  | rcp | rsq | sqrt | exp2 | log2 | sin | cos | tanh
  deriving DecidableEq, Repr

/-- A special function on an f32 or f64 pattern. -/
def specialWide (fn : Special) (t : EType) (env : FEnv) (x : Nat) : Nat × FFlags :=
  match fn with
  | .rcp => rcpWide t env.ftz x
  | .rsq => rsqWide t env.ftz x
  | .sqrt => sqrtWide t env x
  | .exp2 => exp2Wide t env.ftz x
  | .log2 => log2Wide t env.ftz x
  | .sin => trigWide t env.ftz false x
  | .cos => trigWide t env.ftz true x
  | .tanh => tanhWide t env.ftz x

/-- R71: f16 and bf16 are computed as in f32 from the input widened exactly, and the f32 result is rounded once more under the mode. -/
def special (fn : Special) (t : EType) (env : FEnv) (x : Nat) : Nat × FFlags :=
  let x := flushIn t env x
  match nanOf t [x] with
  | some r => r
  | none =>
    match t with
    | .f16 | .bf16 =>
      let w := specialWide fn .f32 env (cvtFF t .f32 FEnv.nearest x).1
      let n := cvtFF .f32 t env w.1
      (n.1, w.2 ||| n.2)
    | _ => specialWide fn t env x

end Sys2Proof.Machine
end

