-- ==== Sys2Proof/Machine/Lanes.lean ====
section
/-! DEFINITION. Lane arithmetic of the vector unit (spec/06_vector_instructions.md R173, R181-R184, R188-R190, R192;
spec/02_numbers_and_arithmetic.md R67, R68). A register of 128 bits, or of 256 while ganged, is a natural number here. -/

namespace Sys2Proof.Machine

/-- The lanes of a register of `tot` bits, lane 0 lowest (R26). -/
def lanesOf (tot w x : Nat) : List Nat := (List.range (tot / w)).map fun i => x / 2 ^ (w * i) % 2 ^ w

/-- Lanes put back into a register. -/
def ofLanes (w : Nat) : List Nat → Nat
  | [] => 0
  | x :: xs => x % 2 ^ w + 2 ^ w * ofLanes w xs

/-- One value in every lane (R174, R188). -/
def splat (tot w x : Nat) : Nat := ofLanes w (List.replicate (tot / w) x)

/-- The flags of a list of lane results. -/
def orAll (fs : List FFlags) : FFlags := fs.foldl (· ||| ·) 0#5

/-- Lane results collected into a register and their flags. -/
def collect (w : Nat) (rs : List (Nat × FFlags)) : Nat × FFlags := (ofLanes w (rs.map Prod.fst), orAll (rs.map Prod.snd))

/-- The binary lane operations of R182. -/
inductive LaneOp where
  | add | sub | mul | min | max | and | or | xor | shl | shr
  deriving DecidableEq, Repr

/-- An integer lane of R182: wrapped, or clamped with `sat`. -/
def intLane (op : LaneOp) (t : EType) (sat : Bool) (x y : Nat) : Nat :=
  let w := etBits t
  let a := intVal t x
  let b := intVal t y
  match op with
  | .add => intBits w (if sat then satTo t (a + b) else a + b)
  | .sub => intBits w (if sat then satTo t (a - b) else a - b)
  | .mul => x * y % 2 ^ w
  | .min => if b < a then y else x
  | .max => if a < b then y else x
  | .and => Nat.land x y
  | .or => Nat.lor x y
  | .xor => Nat.xor x y
  | .shl => x * 2 ^ (y % w) % 2 ^ w
  | .shr => intBits w (a / (2 ^ (y % w) : Nat))

/-- A binary lane operation (R182). -/
def laneOp (op : LaneOp) (t : EType) (env : FEnv) (sat : Bool) (x y : Nat) : Nat × FFlags :=
  if t.isFloat then
    match op with
    | .add => fadd t env x y
    | .sub => fsub t env x y
    | .mul => fmul t env x y
    | .min => fmin t env x y
    | .max => fmax t env x y
    | _ => (intLane op t sat x y, 0#5)
  else (intLane op t sat x y, 0#5)

/-- VFMA's lane: s × t + d (R182, R58). -/
def laneFma (t : EType) (env : FEnv) (x y z : Nat) : Nat × FFlags :=
  if t.isFloat then ffma t env x y z else ((x * y + z) % 2 ^ etBits t, 0#5)

/-- VABS's lane. -/
def laneAbs (t : EType) (x : Nat) : Nat :=
  if t.isFloat then fabs t x else intBits (etBits t) ((intVal t x).natAbs : Int)

/-- VNEG's lane. -/
def laneNeg (t : EType) (x : Nat) : Nat :=
  if t.isFloat then fneg t x else intBits (etBits t) (-(intVal t x))

/-- VCMP's lane (R184). -/
def laneCmp (t : EType) (env : FEnv) (c : VCond) (x y : Nat) : Bool × FFlags :=
  if t.isFloat then fcmp t env c x y
  else
    let a := intVal t x
    let b := intVal t y
    (match c with
     | .eq => decide (a = b)
     | .ne => decide (a ≠ b)
     | .lt => decide (a < b)
     | .ge => decide (b ≤ a), 0#5)

/-- VCVT over a register: narrowing keeps every lane, widening converts the low ones (R183). -/
def cvtLanes (tot : Nat) (src dst : EType) (env : FEnv) (sat : Bool) (x : Nat) : Nat × FFlags :=
  let xs := lanesOf tot (etBits src) x
  let xs := if etBits src < etBits dst then xs.take (tot / etBits dst) else xs
  collect (etBits dst) (xs.map (cvtElem src dst env sat))

/-- One level of the fixed tree: neighbouring halves are added (R67). -/
def treeSum (add : Nat → Nat → Nat × FFlags) : Nat → List (Nat × FFlags) → Nat × FFlags
  | 0, xs => (xs.headD (0, 0#5))
  | fuel + 1, xs =>
    if xs.length ≤ 1 then xs.headD (0, 0#5)
    else
      let a := treeSum add fuel (xs.take (xs.length / 2))
      let b := treeSum add fuel (xs.drop (xs.length / 2))
      let r := add a.1 b.1
      (r.1, a.2 ||| b.2 ||| r.2)

/-- The sum of lanes in a float type by the fixed tree. -/
def floatTree (t : EType) (env : FEnv) (xs : List (Nat × FFlags)) : Nat × FFlags := treeSum (fadd t env) 6 xs

/-- VRSUM (R189). -/
def rsum (tot : Nat) (t : EType) (env : FEnv) (x : Nat) : Nat × FFlags :=
  let xs := lanesOf tot (etBits t) x
  if t.isFloat then floatTree t env (xs.map fun v => (v, 0#5))
  else (intBits 64 ((xs.map (intVal t)).sum), 0#5)

/-- The type VDOT's products and sums are formed in (R68). -/
def dotType : EType → EType
  | .f16 | .bf16 => .f32
  | t => t

/-- VDOT's product of two lanes (R68, R189). The products of f16 and bf16 are taken in f32; FTZ flushes inputs in the element type. DEDUCED: a
bf16 product that f32 does not hold exactly is rounded under the grain's mode with its flags and FTZ (notes/assumptions/66.md). -/
def dotProduct (t : EType) (env : FEnv) (x y : Nat) : Nat × FFlags :=
  match t with
  | .f16 | .bf16 =>
    let a := cvtFF t .f32 env x
    let b := cvtFF t .f32 env y
    let r := fmul .f32 env a.1 b.1
    (r.1, a.2 ||| b.2 ||| r.2)
  | _ => fmul t env x y

/-- VDOT (R68, R189). -/
def dot (tot : Nat) (t : EType) (env : FEnv) (x y : Nat) : Nat × FFlags :=
  let ps := (lanesOf tot (etBits t) x).zip (lanesOf tot (etBits t) y)
  if t.isFloat then floatTree (dotType t) env (ps.map fun p => dotProduct t env p.1 p.2)
  else (intBits 64 ((ps.map fun p => intVal t p.1 * intVal t p.2).sum), 0#5)

/-- VSHUF (R188). -/
def shuffle (tot w x idx : Nat) : Nat :=
  let xs := lanesOf tot w x
  ofLanes w ((lanesOf tot w idx).map fun i => xs.getD i 0)

/-- The predicate that goes with lane `i` of a bank (R184). -/
def lanePred (preds : Nat) (bank : Bool) (i : Nat) : Bool :=
  let j := (if bank then 16 else 0) + i
  j == 31 || preds.testBit j

/-- VSEL (R188). -/
def selectLanes (tot w : Nat) (preds : Nat) (bank : Bool) (x y : Nat) : Nat :=
  let ps := (lanesOf tot w x).zip (lanesOf tot w y)
  ofLanes w (ps.zipIdx.map fun p => if lanePred preds bank p.2 then p.1.1 else p.1.2)

/-- VMOVP from predicates (R188). -/
def predLanes (tot w : Nat) (preds : Nat) (bank : Bool) : Nat :=
  ofLanes w ((List.range (tot / w)).map fun i => if lanePred preds bank i then 2 ^ w - 1 else 0)

/-- Lane results as predicate bits of a bank: the bits written and their values; p31 takes no write (R184, R188). -/
def predBits (bank : Bool) (bs : List Bool) : Nat × Nat :=
  let off := if bank then 16 else 0
  let mask := (2 ^ bs.length - 1) * 2 ^ off
  let vals := (bs.zipIdx.map fun b => if b.1 then 2 ^ (off + b.2) else 0).sum
  (Nat.land mask (2 ^ 31 - 1), Nat.land vals (2 ^ 31 - 1))

/-- VQNT (R190): codes packed in the low bits. -/
def quantLanes (tot : Nat) (t : EType) (env : FEnv) (header : Nat) (q4 : Bool) (x : Nat) : Nat × FFlags :=
  let sc := header % 65536
  let z := header / 65536 % 256
  collect (if q4 then 4 else 8) ((lanesOf tot (etBits t) x).map fun v => quantElem t env v sc z q4)

/-- A general value extended to 64 bits as R22 does. -/
def extend22 (t : EType) (x : Nat) : Word :=
  if etSigned t then BitVec.ofInt 64 (intVal t x) else BitVec.ofNat 64 (x % 2 ^ etBits t)

/-- What a sequencer entry computes from registers alone. -/
inductive VecFn where
  | mov
  | bin (op : LaneOp) (sat : Bool)
  | fma
  | abs
  | neg
  | cvt (dst : EType) (sat : Bool)
  | cmp (c : VCond) (bank : Bool)
  | bcast
  | ins (lane : Nat)
  | extr (lane : Nat)
  | shuf
  | sel (bank : Bool)
  | predsToLanes (bank : Bool)
  | lanesToPreds (bank : Bool)
  | rsum
  | dot
  | qnt (header : Nat) (q4 : Bool)
  | special (fn : Special)
  deriving DecidableEq, Repr

/-- What an entry leaves: a v register's value, a g register's value, or predicate bits. -/
inductive VecOut where
  | v (x : Nat)
  | g (x : Word)
  | preds (mask vals : Nat)
  deriving DecidableEq, Repr

/-- The result of an entry over registers of `tot` bits: `s` and `t` are the sources, `d` the old destination, `preds` the predicates
captured at issue. -/
def vecFn (fn : VecFn) (tot : Nat) (ty : EType) (env : FEnv) (preds s t d : Nat) : VecOut × FFlags :=
  let w := etBits ty
  let ls := lanesOf tot w
  let lift := fun (r : Nat × FFlags) => (VecOut.v r.1, r.2)
  match fn with
  | .mov => (.v s, 0#5)
  | .bin op sat => lift (collect w (((ls s).zip (ls t)).map fun p => laneOp op ty env sat p.1 p.2))
  | .fma => lift (collect w (((ls s).zip ((ls t).zip (ls d))).map fun p => laneFma ty env p.1 p.2.1 p.2.2))
  | .abs => (.v (ofLanes w ((ls s).map (laneAbs ty))), 0#5)
  | .neg => (.v (ofLanes w ((ls s).map (laneNeg ty))), 0#5)
  | .cvt dst sat => lift (cvtLanes tot ty dst env sat s)
  | .cmp c bank =>
    let rs := ((ls s).zip (ls t)).map fun p => laneCmp ty env c p.1 p.2
    let b := predBits bank (rs.map Prod.fst)
    (.preds b.1 b.2, orAll (rs.map Prod.snd))
  | .bcast => (.v s, 0#5)
  | .ins lane => (.v (ofLanes w ((ls d).set lane (s % 2 ^ w))), 0#5)
  | .extr lane => (.g (extend22 ty ((ls s).getD lane 0)), 0#5)
  | .shuf => (.v (shuffle tot w s t), 0#5)
  | .sel bank => (.v (selectLanes tot w preds bank s t), 0#5)
  | .predsToLanes bank => (.v (predLanes tot w preds bank), 0#5)
  | .lanesToPreds bank =>
    let b := predBits bank ((ls s).map fun x => x != 0)
    (.preds b.1 b.2, 0#5)
  | .rsum => lift (rsum tot ty env s)
  | .dot => lift (dot tot ty env s t)
  | .qnt h q4 => lift (quantLanes tot ty env h q4 s)
  | .special fn => lift (collect w ((ls s).map (special fn ty env)))

end Sys2Proof.Machine
end

