-- ==== Sys2Proof/Machine/Types.lean ====
section
/-! DEFINITION. The data of the state of grains, cores and clusters (spec/01_grain_state.md R19-R41 and the chapters each structure
names). Everything is plain data. -/

namespace Sys2Proof.Machine

/-! ### Sparse maps and memory -/

/-- A sparse map by key; an absent key stands at a default (notes/assumptions/2.md). -/
abbrev PMap (α : Type) := List (Nat × α)

/-- The entry of a key. -/
def PMap.get? {α : Type} (k : Nat) : PMap α → Option α
  | [] => none
  | (k', v) :: r => if k' = k then some v else PMap.get? k r

/-- Writes an entry, keeping rising keys in order. -/
def PMap.set {α : Type} (k : Nat) (v : α) : PMap α → PMap α
  | [] => [(k, v)]
  | (k', v') :: r => if k' = k then (k, v) :: r else if k < k' then (k, v) :: (k', v') :: r else (k', v') :: PMap.set k v r

/-- Removes a key. -/
def PMap.erase {α : Type} (k : Nat) (m : PMap α) : PMap α := m.filter fun e => e.1 != k

/-- Memory: the bytes that differ from what an unlisted address reads as, addresses rising (notes/assumptions/1.md). -/
abbrev Memory := List Host.Cell

/-- What an address that is not listed reads as (notes/assumptions/1.md). DESIGN CHOICE. -/
def Memory.unlisted : Byte := 0#8

/-- Addresses rise strictly from `lo` and no entry equals the unlisted byte. -/
def Memory.wfFrom (lo : Nat) : Memory → Bool
  | [] => true
  | (a, b) :: r => decide (lo ≤ a) && b != Memory.unlisted && Memory.wfFrom (a + 1) r

/-- The canonical form of memory. -/
def Memory.wf (m : Memory) : Bool := Memory.wfFrom 0 m

/-! ### Causes, waits -/

/-- Fault causes (R237). -/
inductive Cause where
  | illegalOpcode | illegalPrefix | reservedField | lookaheadViolation | segBounds | segRights | farStore | formatInvalid
  | misaligned | peerLost | uncorrectable | divideByZero | streamMisuse | accNotOwned | wbufInvalid | migrateDenied
  | channelStall | netPortInvalid | nodeArenaEmpty | ruleMissing | replicaMismatch | replicaVote | detConflict
  | nondetForbidden | privilege | protection | brk | trapInstr | watchdog
  deriving DecidableEq, Repr

/-- Cause codes 0x01 to 0x1D (R237). -/
def Cause.code : Cause → Nat
  | .illegalOpcode => 1 | .illegalPrefix => 2 | .reservedField => 3 | .lookaheadViolation => 4 | .segBounds => 5
  | .segRights => 6 | .farStore => 7 | .formatInvalid => 8 | .misaligned => 9 | .peerLost => 10 | .uncorrectable => 11
  | .divideByZero => 12 | .streamMisuse => 13 | .accNotOwned => 14 | .wbufInvalid => 15 | .migrateDenied => 16
  | .channelStall => 17 | .netPortInvalid => 18 | .nodeArenaEmpty => 19 | .ruleMissing => 20 | .replicaMismatch => 21
  | .replicaVote => 22 | .detConflict => 23 | .nondetForbidden => 24 | .privilege => 25 | .protection => 26
  | .brk => 27 | .trapInstr => 28 | .watchdog => 29

/-- Why a slot is parked (R249). The grain tries its instruction again when the slot becomes ready; `fault` is a grain that a fault has
stopped (R259), which nothing makes ready again. -/
inductive Wait where
  | window | fifth | outstanding | sequencer | predicates | lane | stream | stores | pageFault | walk | tile | array
  | channel | barrier | seqword | watch | pair | entropy | forwarded | release | drain | engineLine | arrival | monitorOp | slot
  | fault
  deriving DecidableEq, Repr

/-- Slot states (R249); `halted` is a slot that HALT removed (R236), `stopping` one whose launch was stopped while stores of it are still
performed (R259). -/
inductive SlotState where
  | empty
  | ready
  | parked (w : Wait)
  | gated
  | oddHalf
  | monitor
  | filling
  | halted
  | stopping
  deriving DecidableEq, Repr

/-- What a lookahead window guards (R39, R130): a g register, p0 or a tile. -/
inductive Res where
  | g (r : Reg)
  | p0
  | tile (t : BitVec 2)
  deriving DecidableEq, Repr

/-- A lookahead window (R39): the operation, its pending destination, the count and the positions already issued. -/
structure Window where
  op : Nat
  dst : List Res
  k : Nat
  pos : Nat
  deriving DecidableEq, Repr

/-! ### Segments (R30) -/

/-- A segment descriptor's three words (R30). -/
structure Seg where
  w0 : Word
  w1 : Word
  w2 : Word
  deriving DecidableEq, Repr

/-- An empty segment. -/
def Seg.empty : Seg := ⟨0#64, 0#64, 0#64⟩

/-! ### Long-latency operations (R39, R40, R130) -/

/-- How a loaded value is extended to 64 bits (R22, R135). -/
inductive Ext where
  | zero | sign
  deriving DecidableEq, Repr

/-- Integer and floating-point atomics (R141). -/
inductive AtomOp where
  | add | min | max | minn | maxn | and | or | xor | swap | cas | fadd | fmin | fmax
  deriving DecidableEq, Repr

/-- What an acquire cleans (R133): nothing, by comparing the sequence value, or unconditionally. -/
inductive Clean where
  | none | compare | always
  deriving DecidableEq, Repr

/-- A resolved access: the pointer that formed it after its offset, the global address, the size, and the context it is translated
in. -/
structure Acc where
  ptr : Word
  addr : Nat
  named : Nat
  size : Nat
  ctx : BitVec 12
  deriving DecidableEq, Repr

/-- An atomic request as it travels to the owner (R142); `tag` is the ordinal of the comparison that an external request of a replicated launch
passed (R330). -/
structure AtomReq where
  op : AtomOp
  acc : Acc
  signed : Bool
  fmt : EType
  x : Word
  y : Word
  rm : Rm
  acquire : Bool
  launch : Nat
  tag : Option Nat
  deriving DecidableEq, Repr

/-- What an atomic brings back (R141). -/
structure AtomRes where
  old : Word
  ok : Bool
  flags : FFlags
  deriving DecidableEq, Repr

/-- A step of the exchange sequence of PLINK (R224) or the single exchange of PXCHG (R223). -/
inductive NetStep where
  | pxchg
  | linkFirst
  | linkSecond (e : Word)
  | linkBack (e : Word)
  | connect1 (x y : Word)
  | connect2 (x y : Word)
  | push (x y : Word) (at_ : Nat)
  deriving DecidableEq, Repr

/-- A remote update (R148, R255): `ident` is the identity of the update (R326), `ext` its tag outside the replica (R330), `rank` that of the
grain that issued it (R260). -/
structure Update where
  req : AtomReq
  from_ : Loc
  ident : Nat
  release : Bool
  ext : Bool
  rank : Word
  deriving DecidableEq, Repr

/-- The kinds of outstanding operations and pending waits of a grain (R130, R253). The times of a SEND and of a push are the clk at which their
watchdogs expire, as CHAN_WATCHDOG stood at the issue (R230). -/
inductive PendKind where
  /-- A load: the value is fixed when `val` is set, else when the result arrives. -/
  | load (acc : Acc) (ext : Ext) (d : Reg) (clean : Clean) (plain : Bool) (val : Option Word)
  | ldrec (acc : Acc) (e : BitVec 3)
  | atomic (req : AtomReq) (d : Reg) (atOwner : Bool) (res : Option AtomRes)
  | packet (target : Nat)
  | seqwait (acc : Acc) (d : Reg) (thr : Word) (sc : Scope)
  | seqadd (acc : Acc) (x : Word)
  | watch (reg : Fin 5)
  | waitw (d : Reg) (mask : BitVec 4)
  | send (core : Nat) (ch : BitVec 3) (until_ : Nat)
  | recv (d : Reg) (ch : BitVec 3) (sender : Option Nat)
  | clean (acc : Acc)
  | command (id : Nat)
  | xstat (d : Reg) (block : Nat)
  | mldc (acc : Acc) (tile : BitVec 2)
  | wbld (acc : Acc) (slot : BitVec 3)
  | net (step : NetStep) (d : Option Reg) (q n : Word) (odd : Bool)
  | push (x y : Word) (at_ : Nat)
  deriving DecidableEq, Repr

/-- An outstanding operation or pending wait. -/
structure Pend where
  id : Nat
  pc : Word
  kind : PendKind
  deriving DecidableEq, Repr

/-! ### The vector sequencer (R176) -/

/-- Sources of a sequencer entry: a v register, or a value in every lane. -/
inductive VSrc where
  | reg (r : Reg)
  | value (x : Word)
  deriving DecidableEq, Repr

/-- What an entry does: a function of registers, a tile transfer, or a stream transfer of a VLOOP replay (R191, R197). -/
inductive SeqOp where
  | fn (f : VecFn)
  | accr (tile : BitVec 2) (row : BitVec 4) (q : BitVec 2)
  | accw (tile : BitVec 2) (row : BitVec 4) (q : BitVec 2)
  | vld (stream : BitVec 2)
  | vst (stream : BitVec 2)
  deriving DecidableEq, Repr

/-- A sequencer entry with all it captured at issue (R176, R195). `out` is its result once it has started; `d` is the v or g
destination. For an entry of a VLOOP's body `loop` is the loop and the entry's place in the order of its passes, 16 to a pass, and `again`
the passes after this one that it still has to run. -/
structure SeqEntry where
  pc : Word
  op : SeqOp
  ty : EType
  env : FEnv
  preds : BitVec 32
  d : Reg
  s : VSrc
  t : VSrc
  loop : Option (Nat × Nat)
  again : Nat
  started : Bool
  out : VecOut
  flags : FFlags
  deriving DecidableEq, Repr

/-- A VLOOP whose body issues in pass 1 (R195): its number among the loops the sequencer holds, the instructions of the body still to issue,
the place of the next one, and the count c. With none left the last instruction issued was the last of the body. -/
structure VLoop where
  id : Nat
  left : Nat
  place : Nat
  count : Nat
  deriving DecidableEq, Repr

/-! ### Streams (R215-R218, R274) -/

/-- A fetched input element, or the failure found when it was read (R216). -/
inductive StreamElem where
  | value (x : Word)
  | failed (c : Cause) (addr : Nat)
  deriving DecidableEq, Repr

/-- A stream register: its binding, position and buffer. `base` is the global address that SBIND resolved through its segment; where a request
for an element goes, the replica map and steering say for each element (R32, R322, R323). -/
structure Stream where
  bound : Bool
  output : Bool
  fmt : EType
  base : Nat
  ptr : Word
  c0 : Nat
  c1 : Nat
  c2 : Nat
  s0 : Int
  s1 : Int
  s2 : Int
  pos : Nat
  walked : Nat
  fetched : List StreamElem
  appended : List Word
  deriving DecidableEq, Repr

/-- A stream that is not bound (R19). -/
def Stream.unbound : Stream :=
  { bound := false, output := false, fmt := .n8, base := 0, ptr := 0#64, c0 := 0, c1 := 0, c2 := 0, s0 := 0, s1 := 0, s2 := 0,
    pos := 0, walked := 0, fetched := [], appended := [] }

/-! ### Watches (R153, R155, R272) -/

/-- A local watch register; `value` is the word's value at the wake, `lost` that the word's owner was lost. -/
structure Watch where
  armed : Bool
  fired : Bool
  addr : Nat
  named : Nat
  thr : Word
  polling : Bool
  lost : Bool
  deriving DecidableEq, Repr

/-- A watch register that is not armed. -/
def Watch.off : Watch := ⟨false, false, 0, 0, 0#64, false, false⟩

/-! ### The grain (R19) -/

/-- Barrier participation of a parked grain (R157). -/
structure BarWait where
  sc : Scope
  epoch : Nat
  deriving DecidableEq, Repr

/-- One grain (R19 and the rules each field names in INVENTORY.md). `taken` is a pair record that RWPOP has taken while its header reads wait
(R226); `extUpdates` are the last external updates compared, which a new primary sends again (R330); `sent` is a read
at issue whose request has left: instruction, pointer and owner's address (R439). -/
structure Grain where
  pc : Word
  g : Vector Word 10
  pw : Word
  v : Vector VWord 16
  vh : Vector VWord 16
  streams : Vector Stream 4
  sg : Vector Seg 8
  segSet : Word
  ctx : BitVec 12
  cls : BitVec 2
  launch : Nat
  rank : Word
  stage : Word
  sheaf : Word
  ear : Word
  index : Word
  replica : Nat
  home : Nat
  created : Nat
  spawned : Bool
  ident : Nat
  spawns : Nat
  rupds : Nat
  sig : Word
  ordinal : Nat
  ndCount : Nat
  epochs : Vector Nat 5
  barrier : Option BarWait
  watches : Vector Watch 5
  windows : List Window
  pend : List Pend
  nextOp : Nat
  seq : List SeqEntry
  vloop : Option VLoop
  sends : PMap Nat
  recvs : PMap Nat
  pair : Option (Word × Word)
  taken : Option (Word × Word)
  tileWait : Option Nat
  skip : Nat
  forwarded : PMap Word
  cmpSent : List Nat
  cmpFlits : List CmpFlit
  resent : PMap Nat
  extUpdates : List Update
  sent : Option (Word × Word × Nat)
  deriving DecidableEq, Repr

/-- A slot's grain before any grain stands in it (notes/assumptions/2.md). -/
def Grain.blank : Grain :=
  { pc := 0#64, g := Vector.replicate 10 0#64, pw := pwStart, v := Vector.replicate 16 0#128, vh := Vector.replicate 16 0#128,
    streams := Vector.replicate 4 Stream.unbound, sg := Vector.replicate 8 Seg.empty, segSet := 0#64, ctx := 0#12, cls := 0#2,
    launch := 0, rank := 0#64, stage := 0#64, sheaf := 0#64, ear := 0#64, index := 0#64, replica := 0, home := 0, created := 0,
    spawned := false, ident := 0, spawns := 0, rupds := 0, sig := 0#64, ordinal := 0, ndCount := 0,
    epochs := Vector.replicate 5 0, barrier := none, watches := Vector.replicate 5 Watch.off, windows := [], pend := [],
    nextOp := 0, seq := [], vloop := none, sends := [], recvs := [], pair := none, taken := none, tileWait := none, skip := 0, forwarded := [],
    cmpSent := [], cmpFlits := [], resent := [], extUpdates := [], sent := none }

/-! ### Slots and cores -/

/-- A monitor service (R394, R395) with the accesses checked at its MCALL. -/
inductive Svc where
  | version
  | measure
  | sealBuf (src dst : Acc) (aad : Word)
  | openBuf (src dst : Acc) (aad : Word)
  deriving DecidableEq, Repr

/-- A slot's monitor save (R229): the return PC, the segment registers, the MCALL's own PC and the service called. -/
structure MSave where
  pc : Word
  sg : Vector Seg 8
  call : Word
  svc : Svc
  deriving DecidableEq, Repr

/-- One barrel slot (R249, R250, R252). `sliceEnd` is the clk at which the slice reaches the SLICE_CYCLES of its start (R230); `invDone` says
that the INVPG or INVPGR it waits for has completed (R231). -/
structure Slot where
  st : SlotState
  grain : Grain
  since : Nat
  sliceEnd : Nat
  lastIssue : Option Nat
  msave : Option MSave
  expired : Bool
  invDone : Bool
  deriving DecidableEq, Repr

/-- An empty slot. -/
def Slot.blank : Slot := ⟨.empty, Grain.blank, 0, 0, none, none, false, false⟩

/-- An entry of the shared store buffer (R131, R139). `ptr` is the pointer that formed the address, `alloc` says whether the L1 takes the line
(R138: STNT does not), `faulted` that the store waits for its page (R277). -/
structure BufStore where
  id : Nat
  slot : Fin 16
  ctx : BitVec 12
  launch : Nat
  pc : Word
  addr : Nat
  ptr : Word
  bytes : List Byte
  alloc : Bool
  faulted : Bool
  deriving DecidableEq, Repr

/-- An accumulator tile (R27): its owner, 256 FP32 elements in row order, absent elements being +0, and the grains that wait for it in the
order they began to wait (R202). -/
structure Tile where
  owner : Option (Fin 16)
  data : List (BitVec 32)
  waiters : List GrainKey
  deriving DecidableEq, Repr

/-- Weight-slot states (R207). -/
inductive WState where
  | empty | loading | valid | invalidated
  deriving DecidableEq, Repr

/-- A weight-buffer slot (R207): with its record, the WBLDs that wait to take effect in order of issue (R208), the slots whose MMA waits for a
reload that stands before those or has yet to use its image, and the slots whose reload failed (R210, R298). `source` is where the image
was read last, and `far` the far address that names it, which the replica map and steering apply to at each reload (R322, R323). -/
structure WSlot where
  st : WState
  ctx : BitVec 12
  source : Nat
  far : Option Nat
  length : Nat
  image : List Byte
  loads : List (Fin 16 × Nat)
  reload : List (Fin 16)
  failed : List (Fin 16)
  deriving DecidableEq, Repr

/-- An empty weight-buffer slot. -/
def WSlot.empty : WSlot := ⟨.empty, 0#12, 0, none, 0, [], [], [], []⟩

/-- The A operand of a queued array operation. -/
inductive AOperand where
  | memory (acc : Acc)
  | stream (n : BitVec 2)
  deriving DecidableEq, Repr

/-- An operation queued at the matrix array (R214). -/
structure ArrayOp where
  slot : Fin 16
  pc : Word
  tile : BitVec 2
  a : AOperand
  fmt : Nat
  log : Nat
  w : BitVec 3
  k : Nat
  integer : Bool
  ctx : BitVec 12
  launch : Nat
  elems : List Word
  started : Bool
  deriving DecidableEq, Repr

/-- A line of the L1 (R266, R270), the context whose mapping filled it and the physical line it holds (R285: a read returns a write to its own
location); `remote` holds the source-table index, the generation and the fill time. -/
structure L1Line where
  addr : Nat
  named : Nat
  ctx : BitVec 12
  phys : Nat
  data : List Byte
  remote : Option (Fin 16 × BitVec 8 × Nat)
  deriving DecidableEq, Repr

/-- A line of the instruction cache (R3): the context and the address it was fetched at, and its 32 bytes. -/
structure CodeLine where
  ctx : BitVec 12
  addr : Nat
  data : List Byte
  deriving DecidableEq, Repr

/-- A context's weight save on a core (R384, R392): its records and its sealed image. -/
structure WSave where
  slots : List WSlot
  image : List Byte
  deriving DecidableEq, Repr

/-- A source-table entry (R270). -/
structure SrcEntry where
  owner : Option Nat
  value : Word
  gen : BitVec 8
  used : Nat
  deriving DecidableEq, Repr

/-- A shape-record cache entry (R248): the address, the context and the launch that filled it and the 192 bytes. -/
structure ShapeEntry where
  addr : Nat
  ctx : BitVec 12
  launch : Nat
  data : List Byte
  deriving DecidableEq, Repr

/-- A channel flit (R161); `key` is the grain that sent it. -/
structure Flit where
  data : Word
  ctx : BitVec 12
  launch : Nat
  sender : Nat
  num : Nat
  spawned : Bool
  cluster : Nat
  key : GrainKey
  deriving DecidableEq, Repr

/-- A receive channel (R162, R163): queued flits, flits waiting for room with the sender's place and operation, flits in flight, and the
receives in the order they began to wait, each by its grain and operation. -/
structure Channel where
  flits : List Flit
  waiting : List (Flit × Loc × Nat)
  inFlight : List (Flit × Loc × Nat)
  receivers : List (GrainKey × Nat)
  deriving DecidableEq, Repr

/-- A run-queue entry (R251). A spilled grain's slate holds the grain itself, its tile and the wakes that arrived meanwhile. -/
inductive RunKind where
  | unstarted (rank : Nat)
  | spilled (slate : Nat)
  | arrived (g : Grain)
  deriving DecidableEq, Repr

/-- A run-queue entry with its class and launch. -/
structure RunEntry where
  kind : RunKind
  cls : BitVec 2
  launch : Nat
  deriving DecidableEq, Repr

/-- A protection entry (R234). -/
structure Prot where
  valid : Bool
  base : Word
  limit : Nat
  rights : BitVec 3
  ctx : BitVec 12
  deriving DecidableEq, Repr

/-- An entry that admits nothing. -/
def Prot.off : Prot := ⟨false, 0#64, 0, 0#3, 0#12⟩

/-- Core status (R236, R418, R432). -/
inductive CoreStatus where
  | inReset | running | closing | failed
  deriving DecidableEq, Repr

/-- One core (R3, R4). `droop` is the cycle until which a droop alarm stalls its array (R434); `filling` is the slot that the spill engine
fills, with the run-queue entry it took (R251). -/
structure Core where
  status : CoreStatus
  cycle : Nat
  served : Fin 16
  slots : Vector Slot 16
  tiles : Vector Tile 4
  wslots : Vector WSlot 8
  wholder : BitVec 12
  wsaves : PMap WSave
  arrayQ : List ArrayOp
  l1Split : BitVec 3
  l1 : List L1Line
  icache : List CodeLine
  srcTab : Vector SrcEntry 16
  shape : Vector (Option ShapeEntry) 8
  chans : Vector Channel 8
  runQ : List RunEntry
  buffer : List BufStore
  nextStore : Nat
  prot : Vector Prot 16
  staggerStep : BitVec 8
  sliceCycles : BitVec 32
  chanWatchdog : BitVec 32
  trapCause : Word
  trapInfo : Word
  randReady : Option Word
  randAt : Option Nat
  spilling : Option (Fin 16)
  filling : Option (Fin 16 × RunEntry)
  halts : List Nat
  partitions : PMap Nat
  droop : Nat
  lost : List HwUnit
  vecServed : Fin 16
  deriving DecidableEq, Repr

/-- A core at its reset values (R37; notes/assumptions/2.md for the values the spec does not give). -/
def Core.reset : Core :=
  { status := .inReset, cycle := 0, served := 15, slots := Vector.replicate 16 Slot.blank,
    tiles := Vector.replicate 4 ⟨none, [], []⟩, wslots := Vector.replicate 8 WSlot.empty, wholder := 0#12, wsaves := [],
    arrayQ := [], l1Split := 0#3, l1 := [], icache := [], srcTab := Vector.replicate 16 ⟨none, 0#64, 0#8, 0⟩, shape := Vector.replicate 8 none,
    chans := Vector.replicate 8 ⟨[], [], [], []⟩, runQ := [], buffer := [], nextStore := 0, prot := Vector.replicate 16 Prot.off,
    staggerStep := 0#8, sliceCycles := 0x40000#32, chanWatchdog := 0x100000#32, trapCause := 0#64,
    trapInfo := 0#64, randReady := none, randAt := none, spilling := none, filling := none, halts := [],
    partitions := [], droop := 0, lost := [], vecServed := 15 }

end Sys2Proof.Machine
end

