-- ==== Sys2Proof/Machine/Event.lean ====
section
/-! DEFINITION. Events that are due, as the state keeps them: one constructor for each event row of spec/opcode_table.json, with the
operands of the row's constructor of `Instr`. A type of its own, because the agenda of a run holds events and never instructions. -/

namespace Sys2Proof.Machine

/-- An event of spec/opcode_table.json. -/
inductive Event where
  /-- BARREL_ISSUE_CYCLE (R250). -/
  | barrelIssueCycle (core : Nat)
  /-- LONG_LATENCY_RESULT (R39). -/
  | longLatencyResult (loc : Loc) (op : Nat)
  /-- TLB_WALK_COMPLETE (R378). -/
  | tlbWalkComplete (cl : Nat) (ctx : BitVec 12) (va : BitVec 38)
  /-- SLICE_EXPIRY (R252). -/
  | sliceExpiry (loc : Loc)
  /-- PRIORITY_PREEMPT (R368). -/
  | priorityPreempt (core : Nat)
  /-- SPILL_COMPLETE (R383). -/
  | spillComplete (loc : Loc)
  /-- FILL_COMPLETE (R383). -/
  | fillComplete (loc : Loc)
  /-- REMOTE_WATCH_INSERT (R273). -/
  | remoteWatchInsert (loc : Loc) (reg : Fin 5)
  /-- REMOTE_WATCH_WAKE (R273). -/
  | remoteWatchWake (loc : Loc) (reg : Fin 5) (v : Word)
  /-- WATCH_POLL_TIMER (R153). -/
  | watchPollTimer (loc : Loc) (reg : Fin 5)
  /-- BARRIER_STAGGER_RESUME (R158). -/
  | barrierStaggerResume (launch : Nat) (sc : Scope) (core : Nat)
  /-- CHANNEL_FLIT_ARRIVAL (R163). -/
  | channelFlitArrival (core : Nat) (ch : BitVec 3)
  /-- CHANNEL_WATCHDOG_EXPIRY (R162). -/
  | channelWatchdogExpiry (loc : Loc) (op : Nat)
  /-- MACQ_WATCHDOG_EXPIRY (R202). -/
  | macqWatchdogExpiry (loc : Loc)
  /-- BAG_PUSH_WATCHDOG_EXPIRY (R225). -/
  | bagPushWatchdogExpiry (loc : Loc) (op : Nat)
  /-- MIGRATION_ARRIVAL (R254). -/
  | migrationArrival (loc : Loc)
  /-- SPAWN_ARRIVAL (R254). -/
  | spawnArrival (core : Nat)
  /-- ARRIVAL_RETRY (R254). -/
  | arrivalRetry (core : Nat)
  /-- EXCURSION_AT_OWNER (R142). -/
  | excursionAtOwner (loc : Loc) (op : Nat)
  /-- EXCURSION_RETURN (R142). -/
  | excursionReturn (loc : Loc) (op : Nat)
  /-- REMOTE_UPDATE_APPLY (R255). -/
  | remoteUpdateApply (cl : Nat)
  /-- BURSAR_ATOMIC (R408). -/
  | bursarAtomic (die : Nat) (slot : Fin 16)
  /-- COPY_COMMAND_START (R276). -/
  | copyCommandStart (cl : Nat)
  /-- COPY_COMMAND_COMPLETE (R167). -/
  | copyCommandComplete (cl : Nat) (id : Nat)
  /-- BURST_WINDOW_CLOSE (R269). -/
  | burstWindowClose (cl : Nat) (region : Nat)
  /-- SEQUENCER_ENTRY_START (R177). -/
  | sequencerEntryStart (core : Nat)
  /-- SEQUENCER_ENTRY_COMPLETE (R177). -/
  | sequencerEntryComplete (loc : Loc)
  /-- MMA_START (R296). -/
  | mmaStart (core : Nat)
  /-- MMA_COMPLETE (R296). -/
  | mmaComplete (core : Nat)
  /-- WEIGHT_SLOT_RELOAD (R298). -/
  | weightSlotReload (core : Nat) (w : Fin 8)
  /-- INPUT_STREAM_FETCH (R274). -/
  | inputStreamFetch (loc : Loc) (n : Fin 4)
  /-- OUTPUT_STREAM_LINE_WRITE (R274). -/
  | outputStreamLineWrite (loc : Loc) (n : Fin 4)
  /-- RAND_VALUE_READY (R125). -/
  | randValueReady (core : Nat) (v : Word)
  /-- FORWARDED_VALUE_ARRIVAL (R331). -/
  | forwardedValueArrival (who : GrainKey) (count : Nat) (v : Word)
  /-- REPLICA_COMPARE_FLIT (R327). -/
  | replicaCompareFlit (who : GrainKey) (flit : CmpFlit)
  /-- EXTERNAL_ATOMIC_RESULT (R330). -/
  | externalAtomicResult (who : GrainKey) (op : Nat) (old : Word)
  /-- PAIR_RECORD_ARRIVAL (R308). -/
  | pairRecordArrival (cl : Nat)
  /-- STEAL_RETRY_TIMER (R310). -/
  | stealRetryTimer (loc : Loc)
  /-- NET_SWEEP (R317). -/
  | netSweep (launch : Nat)
  /-- EPOCH_ADOPT (R314). -/
  | epochAdopt (cl : Nat) (launch : Nat) (epoch : Nat)
  /-- FAULT_REPORT (R259). -/
  | faultReport (node : Nat)
  /-- LAUNCH_STOP_AT_CORE (R259). -/
  | launchStopAtCore (launch : Nat) (core : Nat)
  /-- LAUNCH_COMPLETE (R258). -/
  | launchComplete (launch : Nat)
  /-- COMPLETION_WRITE (R371). -/
  | completionWrite (launch : Nat)
  /-- QUEUE_TAIL_WRITE (R363). -/
  | queueTailWrite (node : Nat) (q : BitVec 16) (v : Word)
  /-- QUEUE_ENABLE (R362). -/
  | queueEnable (node : Nat) (q : BitVec 16)
  /-- QUEUE_DISABLE (R362). -/
  | queueDisable (node : Nat) (q : BitVec 16)
  /-- QUEUE_ABORT (R372). -/
  | queueAbort (node : Nat) (q : BitVec 16)
  /-- CONFIGURATION_WRITE (R361). -/
  | configurationWrite (node : Nat) (w : CfgWrite)
  /-- LAUNCH_RECORD_READ (R364). -/
  | launchRecordRead (node : Nat) (q : BitVec 16)
  /-- SCHEDULER_ROUND (R367). -/
  | schedulerRound (node : Nat) (cls : BitVec 2)
  /-- LAUNCH_PLACE (R369). -/
  | launchPlace (launch : Nat)
  /-- GRAPH_NODE_DISPATCH (R373). -/
  | graphNodeDispatch (node : Nat) (q : BitVec 16) (j : Nat)
  /-- CONTEXT_CREATE (R376). -/
  | contextCreate (node : Nat) (ctx : BitVec 12)
  /-- CONTEXT_DESTROY (R376). -/
  | contextDestroy (node : Nat) (ctx : BitVec 12)
  /-- CONTEXT_INVALIDATE (R376). -/
  | contextInvalidate (node : Nat) (ctx : BitVec 12)
  /-- CONTEXT_MIGRATE (R380). -/
  | contextMigrate (node : Nat) (ctx : BitVec 12)
  /-- MIGRATION_FIRST_PASS_DONE (R380). -/
  | migrationFirstPassDone (node : Nat) (ctx : BitVec 12)
  /-- MIGRATION_FINAL_PASS_DONE (R380). -/
  | migrationFinalPassDone (node : Nat) (ctx : BitVec 12)
  /-- FAULT_HEAD_WRITE (R379). -/
  | faultHeadWrite (node : Nat) (ctx : BitVec 12) (v : Word)
  /-- FAULT_RESOLVE (R379). -/
  | faultResolve (node : Nat) (ctx : BitVec 12) (token : BitVec 16) (refuse : Bool)
  /-- CHECKPOINT_TAKE (R426). -/
  | checkpointTake (node : Nat) (ctx : BitVec 12)
  /-- CHECKPOINT_PULL_START (R426). -/
  | checkpointPullStart (node : Nat) (ctx : BitVec 12)
  /-- CHECKPOINT_COMPLETE (R426). -/
  | checkpointComplete (node : Nat) (ctx : BitVec 12) (stopUs : Word)
  /-- CHECKPOINT_RESTORE (R429). -/
  | checkpointRestore (node : Nat) (ctx : BitVec 12)
  /-- CORE_FAILURE_DETECTED (R418). -/
  | coreFailureDetected (core : Nat)
  /-- CLUSTER_FAILURE_DETECTED (R418). -/
  | clusterFailureDetected (cl : Nat)
  /-- DIE_FAILURE_DETECTED (R418). -/
  | dieFailureDetected (die : Nat)
  /-- PACKAGE_FAILURE_DETECTED (R418). -/
  | packageFailureDetected (node : Nat)
  /-- LOSS_DECLARATION (R416). -/
  | lossDeclaration (core : Nat) (unit : HwUnit)
  /-- CORE_REPAIR (R420). -/
  | coreRepair (core : Nat)
  /-- CLUSTER_REPAIR (R421). -/
  | clusterRepair (cl : Nat)
  /-- NODE_ALIAS_INSTALL (R422). -/
  | nodeAliasInstall (failed : Nat) (spare : Nat)
  /-- QUARANTINE_SELF_TEST (R423). -/
  | quarantineSelfTest (cl : Nat) (pass : Bool)
  /-- SPARE_FILL (R431). -/
  | spareFill (die : Nat)
  /-- CORE_RESET_AFTER_HALT (R236). -/
  | coreResetAfterHalt (core : Nat)
  /-- ROUTER_CYCLE (R410). -/
  | routerCycle (cl : Nat)
  /-- FABRIC_FALLBACK (R415). -/
  | fabricFallback (node : Nat)
  /-- REQUEST_RESEND_TIMEOUT (R415). -/
  | requestResendTimeout (loc : Loc) (op : Nat)
  /-- CONGESTION_NOTICE (R414). -/
  | congestionNotice (node : Nat) (target : Nat) (tier : Fin 3)
  /-- WINDOW_GROWTH_TIMER (R414). -/
  | windowGrowthTimer (node : Nat) (target : Nat) (tier : Fin 3)
  /-- TIER_STARVATION_GRANT (R413). -/
  | tierStarvationGrant (node : Nat) (port : Fin 6)
  /-- LINK_AUTH_FAILURE (R391). -/
  | linkAuthFailure (node : Nat) (port : Fin 6)
  /-- LINK_TRAIN_DOWN (R412). -/
  | linkTrainDown (node : Nat) (port : Fin 6)
  /-- KEY_INSTALL (R393). -/
  | keyInstall (node : Nat) (port : Fin 6) (ctx : BitVec 12) (key : KeyPair)
  /-- KEY_ACTIVATE (R393). -/
  | keyActivate (node : Nat) (port : Fin 6) (ctx : BitVec 12) (slot : Fin 4)
  /-- KEY_SLOT_RETIRE (R393). -/
  | keySlotRetire (node : Nat) (port : Fin 6) (ctx : BitVec 12) (slot : Fin 4)
  /-- POWER_CONTROL_TICK (R434). -/
  | powerControlTick (node : Nat) (watts : Nat)
  /-- ISSUE_THROTTLE (R434). -/
  | issueThrottle (node : Nat)
  /-- DROOP_ALARM (R434). -/
  | droopAlarm (node : Nat)
  /-- THERMAL_THROTTLE (R435). -/
  | thermalThrottle (die : Nat)
  /-- THERMAL_TRIP (R435). -/
  | thermalTrip (die : Nat)
  /-- SET_POWER_LIMIT (R434). -/
  | setPowerLimit (node : Nat) (watts : Nat)
  /-- POWER_GOOD_BOOT (R432). -/
  | powerGoodBoot (node : Nat) (img : BootImages)
  /-- LIFE_LOG_RECORD (R436). -/
  | lifeLogRecord (node : Nat)
  /-- GET_LIFE_LOG_RECORD (R437). -/
  | getLifeLogRecord (node : Nat) (seq : Word)
  /-- FIRMWARE_UPDATE (R433). -/
  | firmwareUpdate (node : Nat) (region : FlashRegion) (img : FlashImage)
  /-- GET_VERSION (R401). -/
  | getVersion (node : Nat)
  /-- GET_CAPABILITIES (R401). -/
  | getCapabilities (node : Nat)
  /-- NEGOTIATE_ALGORITHMS (R401). -/
  | negotiateAlgorithms (node : Nat) (offer : AlgOffer)
  /-- GET_DIGESTS (R401). -/
  | getDigests (node : Nat)
  /-- GET_CERTIFICATE (R401). -/
  | getCertificate (node : Nat) (slot : Nat) (offset : Nat) (length : Nat)
  /-- CHALLENGE (R401). -/
  | challenge (node : Nat) (nonce : BitVec 256)
  /-- GET_MEASUREMENTS (R402). -/
  | getMeasurements (node : Nat) (index : Nat) (nonce : BitVec 256)
  /-- KEY_EXCHANGE (R401). -/
  | keyExchange (node : Nat) (who : SessionOwner) (pub : BitVec 768)
  /-- FINISH (R401). -/
  | finish (node : Nat) (session : Nat) (macOk : Bool)
  /-- END_SESSION (R401). -/
  | endSession (node : Nat) (session : Nat)
  /-- SECURED_KEY_INSTALL_MESSAGE (R401). -/
  | securedKeyInstallMessage (node : Nat) (session : Nat) (msg : KeyMsg)
  /-- STORE_PERFORMED (R279). -/
  | storePerformed (loc : Loc)
  /-- INVPG_COMPLETION (R231). -/
  | invpgCompletion (who : InvWaiter)
  /-- POWER_LOSS (R433). -/
  | powerLoss (node : Nat)
  /-- TDISP_STATE_REQUEST (R401). -/
  | tdispStateRequest (node : Nat) (ctx : BitVec 12) (state : Tdisp) (requester : Nat)
  deriving DecidableEq, Repr

end Sys2Proof.Machine
end

