-- ==== Sys2Proof/Machine/HeadTypes.lean ====
section
/-! DEFINITION. The data of the state of clusters, dies, launches and packages (spec/05, 09, 12, 13, 18-23; each structure names its
rules). Everything is plain data. -/

namespace Sys2Proof.Machine

/-! ### Clusters -/

/-- Cluster status (R418-R423). -/
inductive ClStatus where
  | enabled | failed | quarantined | absent
  deriving DecidableEq, Repr

/-- Targets of a leaf or table (R377). -/
inductive Space where
  | hbm | cxl | host
  deriving DecidableEq, Repr

/-- A TLB entry (R378): the context, the cluster, the page's base and size, and where it lies. -/
structure TlbEntry where
  ctx : BitVec 12
  cl : Nat
  base : Nat
  size : Nat
  space : Space
  phys : Nat
  deriving DecidableEq, Repr

/-- Who waits for a page (R277): a grain at its next instruction with the TRAP_INFO of a refusal, an operation of a grain, its stores, an
engine command (its source or its destination), a stream, the update queue of a cluster, its far frees or the retired nodes of a launch, the
head complex's work for a launch, the reload of a weight slot, a checkpoint. -/
inductive PageWaiter where
  | grain (loc : Loc) (info : Word)
  | op (loc : Loc) (id : Nat)
  | store (loc : Loc)
  | command (cl : Nat) (id : Nat) (src : Bool)
  | stream (loc : Loc) (n : Fin 4)
  | updates (cl : Nat)
  | farFree (cl : Nat)
  | retire (cl : Nat) (launch : Nat)
  | net (launch : Nat) (cl : Nat)
  | weight (loc : Loc) (w : Fin 8)
  | checkpoint (node : Nat) (ctx : BitVec 12)
  deriving DecidableEq, Repr

/-- An entry of the fault table (R277, R379). `passed` says that the page has been passed to the page service, `recorded` that its record
stands in the fault ring. -/
structure FaultEntry where
  idx : Nat
  ctx : BitVec 12
  page : Nat
  addr : Nat
  access : Nat
  reason : Nat
  passed : Bool
  recorded : Bool
  waiters : List PageWaiter
  deriving DecidableEq, Repr

/-- A page that a walk did not find and that no request waits for: a PREF dropped it, or the request has not come back yet. -/
def FaultEntry.idle (e : FaultEntry) : Bool := !e.passed && e.waiters.isEmpty

/-- An entry of the 256-entry watch table (R273). -/
structure RemoteWatch where
  addr : Nat
  thr : Word
  waiter : Loc
  reg : Fin 5
  ctx : BitVec 12
  launch : Nat
  deriving DecidableEq, Repr

/-- States of an engine command (R170). -/
inductive CmdState where
  | waiting | queued | running | done
  deriving DecidableEq, Repr

/-- A copy-engine command (R166-R170, R276). `src` is the source as its pointer names it and `far` says that this is a far address, which the
replica map of `replica` and steering apply to (R322, R323); `issuedAt` is the clk of its issuing core at which it reached the engine;
`rank` is that of the grain that issued it (R260); `merged` names the first command of the pull that serves this one, and `buf` holds the granules read for it and not yet written, `none`
being a poisoned one (R168, R171). -/
structure Cmd where
  id : Nat
  pull : Bool
  block : Nat
  dst : Nat
  src : Nat
  far : Bool
  replica : Nat
  value : Word
  len : Nat
  rows : Nat
  stride : Nat
  seq : Nat
  launch : Nat
  ctx : BitVec 12
  issuer : Loc
  rank : Word
  issuedAt : Nat
  st : CmdState
  failed : Bool
  poisoned : Bool
  left : Nat
  merged : Option Nat
  buf : List (Option (List Byte))
  deriving DecidableEq, Repr

/-- A far free on its way to the owner's channel core (R221): the address freed, whether the pointer's format and offset are a node's, the
launch, the offset, the place of the NFREE and the rank of its grain (R260). -/
structure FarFree where
  addr : Nat
  good : Bool
  launch : Nat
  off : Nat
  where_ : Nat
  rank : Word
  deriving DecidableEq, Repr

/-- A node in the retire queue (R315): its index, the epoch stamped, the core whose ring takes it. -/
structure Retire where
  index : Nat
  stamp : Nat
  core : Option Nat
  deriving DecidableEq, Repr

/-- What a cluster keeps for a net launch it serves (R302, R308, R314): the arena free list, the free rings and the bags of its cores, the
cluster bag, the retire queue, the records and entries that have entered these two so far, the counts, the link epoch and the outstanding
link operations of each parity. -/
structure NetCl where
  free : List Nat
  rings : PMap (List Nat)
  bags : PMap (List (Word × Word))
  bag : List (Word × Word)
  retire : List Retire
  bagAt : Nat
  retireAt : Nat
  created : Word
  done : Word
  epoch : Nat
  outEven : Nat
  outOdd : Nat
  deriving DecidableEq, Repr

/-- A cluster's part of a net launch before it is prepared. -/
def NetCl.empty : NetCl :=
  { free := [], rings := [], bags := [], bag := [], retire := [], bagAt := 0, retireAt := 0, created := 0#64, done := 0#64, epoch := 0, outEven := 0, outOdd := 0 }

/-- An L2 line by its physical place (R267, R268). -/
structure L2Line where
  addr : Nat
  presence : BitVec 16
  dirty : Bool
  deriving DecidableEq, Repr

/-- A merge window of the memory port (R269): the lines of a region that reads wait for, and those to be written back. -/
structure Burst where
  region : Nat
  lines : List Nat
  writes : List Nat
  deriving DecidableEq, Repr

/-- One access in a detector record (R336). -/
structure DetAccess where
  rank : Word
  store : Bool
  epochs : List Nat
  deriving DecidableEq, Repr

/-- A detector record (R336). -/
structure DetLine where
  launch : Nat
  line : Nat
  accs : List DetAccess
  deriving DecidableEq, Repr

/-- A remembered external operation (R330): an atomic's tag is its grain's identity and its number there, an update's its own identity. -/
structure ExtOp where
  launch : Nat
  ident : Nat
  ordinal : Nat
  res : AtomRes
  deriving DecidableEq, Repr

/-- Input ports of a router (R410). -/
inductive Dir where
  | east | north | west | south
  deriving DecidableEq, Repr

/-- Flit types, numbered from 0 (R409). -/
inductive FlitType where
  | request | response | atomic | migration | spawn | update | wake | pair | management
  deriving DecidableEq, Repr

/-- A torus flit at a router (R409, R410): its header's fields, its payload and where it came in. -/
structure TorusFlit where
  target : Nat
  src : Nat
  age : Nat
  type : FlitType
  ctx : BitVec 12
  core : BitVec 5
  slot : BitVec 4
  tag : BitVec 64
  payload : BitVec 256
  inPort : Option Dir
  deriving DecidableEq, Repr

/-- A page migration in progress (R380). -/
structure PageMove where
  ctx : BitVec 12
  va : Nat
  size : Nat
  leafKey : Nat
  newLeaf : Word
  oldSpace : Space
  oldPhys : Nat
  dirty : List Nat
  final : Bool
  deriving DecidableEq, Repr

/-- A spilled grain (R382): its state, wakes included, and the owned tile's image; or spilled weight records (R232). `image` is what the
sealed save holds in memory where an instruction names its address. -/
structure Slate where
  grain : Grain
  tile : Option (Fin 4 × List (BitVec 32))
  weights : List WSlot
  image : List Byte
  deriving DecidableEq, Repr

/-- An INVPG or INVPGR in progress (R231): who waits, the context, the page, whether the leases are waited for, the clk from which that
wait counts, and how far it has come. -/
structure InvOp where
  who : InvWaiter
  ctx : BitVec 12
  va : Nat
  size : Nat
  reassign : Bool
  leases : Bool
  since : Nat
  deriving DecidableEq, Repr

/-- A grain on its way to a core (R147, R149, R254): with `source` the slot it still holds; `addr` is the address that named the core and
`sender` the packed coordinates of the grain that sent it, for the reports of a loss (R150, R417). -/
structure Packet where
  target : Nat
  addr : Nat
  sender : Nat
  grain : Grain
  source : Option Loc
  deriving DecidableEq, Repr

/-- One cluster (R4). `heldUpdates` are update packets that its full queue of 256, or the fabric, still holds back (R255); `watchBits` are the
bank words whose watch bit is set (R272). -/
structure Cluster where
  status : ClStatus
  quarantines : List Nat
  spareBound : Bool
  site17 : Option Nat
  failedCores : List Nat
  prot : Vector Prot 16
  tlb : List TlbEntry
  faults : List FaultEntry
  faultWait : List FaultEntry
  watchTab : List RemoteWatch
  watchBits : List Nat
  cmds : List Cmd
  nextCmd : Nat
  updates : List Update
  heldUpdates : List Update
  farFrees : List FarFree
  nets : PMap NetCl
  l2 : List L2Line
  overlay : Memory
  bursts : List Burst
  detector : List DetLine
  extOps : List ExtOp
  flits : List TorusFlit
  move : Option PageMove
  slates : PMap Slate
  packets : List Packet
  sramVersion : PMap Word
  invWaits : List InvOp
  deriving DecidableEq, Repr

/-- A cluster at its reset values. -/
def Cluster.reset : Cluster :=
  { status := .enabled, quarantines := [], spareBound := false, site17 := none, failedCores := [], prot := Vector.replicate 16 Prot.off,
    tlb := [], faults := [], faultWait := [], watchTab := [], watchBits := [], cmds := [], nextCmd := 0, updates := [], heldUpdates := [], farFrees := [], nets := [],
    l2 := [], overlay := [], bursts := [], detector := [], extOps := [], flits := [], move := none, slates := [], packets := [],
    sramVersion := [], invWaits := [] }

/-! ### Dies -/

/-- An atomic waiting at a bursar slot (R408): of a grain's operation, or of a remote update that its channel core has passed on (R407). -/
structure BursarOp where
  req : AtomReq
  loc : Option Loc
  id : Nat
  upd : Option Update
  deriving DecidableEq, Repr

/-- One die (R5). -/
structure Die where
  tlb : List TlbEntry
  bursar : Vector (List BursarOp) 16
  hot : Bool
  sparesUsed : Nat
  deriving DecidableEq, Repr

/-- A die at its reset values. -/
def Die.reset : Die := { tlb := [], bursar := Vector.replicate 16 [], hot := false, sparesUsed := 0 }

/-! ### Launches -/

/-- How a launch stands: its record read but not yet checked, waiting to be placed, placed but not started, running, being stopped,
ended, completed (R258, R259, R364-R371). -/
inductive LaunchSt where
  | fetching | reading | waiting | granted | running | stopping | ended | done
  deriving DecidableEq, Repr

/-- Replica bookkeeping of a launch (R321-R333). -/
structure Replicas where
  count : Nat
  primary : Nat
  live : List Nat
  quarantined : Option Nat
  byLoss : Bool
  decidedBy : Nat
  decidedAt : Nat
  points : List Nat
  deriving DecidableEq, Repr

/-- A page fault or other cause reported at the head complex (R259, R260); `rank` is that of the faulting grain or of its creator. -/
structure Report where
  launch : Nat
  cause : Cause
  info : Word
  where_ : Nat
  codeOff : Nat
  cycle : Nat
  rank : Word
  imprecise : Bool
  deriving DecidableEq, Repr

/-- The barrier arrivals of one group instance (R157, R158): scope, unit, instance, the members arrived, the clusters they arrived from, the
cores that have resumed, and the clk at which each core the release has reached resumes. -/
structure BarGroup where
  sc : Scope
  unit : Nat
  epoch : Nat
  arrived : List Nat
  releasedTo : List Nat
  places : List Nat
  resumeAt : PMap Nat
  deriving DecidableEq, Repr

/-- A launch (R239-R247, R258-R261, R364-R373). Cores are listed by strip and stage through the allotment; `refused` lists the pages
that the page service refused to the head complex (R371), `pageCls` is the class of the descriptor (R366), `exitedAt` the clusters that members of its barrier groups exited on (R158). -/
structure Launch where
  st : LaunchSt
  node : Nat
  queue : Nat
  seqNo : Nat
  graphNode : Option Nat
  graphCause : Nat
  ctx : BitVec 12
  cls : BitVec 2
  pageCls : BitVec 2
  det : Bool
  net : Bool
  apart : Bool
  fields : Nat
  ears : Nat
  grains : Nat
  stages : Nat
  perCore : Nat
  entry : Word
  args : Word
  result : Word
  resultLen : Nat
  code : Nat
  codeLen : Nat
  rulesOff : Nat
  ruleTable : Nat
  agents : Nat
  nonce : List Byte
  segs : Vector Seg 8
  shapes : List (List Byte)
  l1 : Nat
  allot : List Nat
  explicit : Bool
  origins : List Nat
  record : List Byte
  hCode : List Byte
  hArgs : List Byte
  refused : List Nat
  cores : List Nat
  stops : List Nat
  live : Nat
  exited : List Nat
  exitedAt : PMap Nat
  barriers : List BarGroup
  reps : Replicas
  reduceFlags : FFlags
  detMode : Bool
  sweeps : List (List (Nat × Nat))
  popped : List Nat
  epoch : Nat
  finished : Bool
  pairsDone : Word
  outcome : Nat
  status : Word
  report : Option Report
  more : Nat
  voted : Bool
  ndSent : List (Nat × Nat × Word)
  ready : Nat
  deriving DecidableEq, Repr

/-- A launch that nothing names. -/
def Launch.none : Launch :=
  { st := .done, node := 0, queue := 0, seqNo := 0, graphNode := Option.none, graphCause := 0, ctx := 0#12, cls := 0#2, pageCls := 0#2,
    det := false, net := false, apart := false, fields := 1, ears := 1, grains := 1, stages := 1, perCore := 1, entry := 0#64,
    args := 0#64, result := 0#64, resultLen := 0, code := 0, codeLen := 0, rulesOff := 0, ruleTable := 0, agents := 0, nonce := [],
    segs := Vector.replicate 8 Seg.empty, shapes := [], l1 := 0, allot := [], explicit := false, origins := [], record := [], hCode := [], hArgs := [],
    refused := [], cores := [], stops := [],
    live := 0, exited := [], exitedAt := [], barriers := [],
    reps := { count := 1, primary := 0, live := [0], quarantined := Option.none, byLoss := false, decidedBy := 0, decidedAt := 0,
              points := [0, 0, 0] },
    reduceFlags := 0#5, detMode := false, sweeps := [], popped := [], epoch := 0, finished := false, pairsDone := 0#64, outcome := 0, status := 0#64,
    report := Option.none, more := 0, voted := false,
    ndSent := [], ready := 0 }

/-! ### Packages: queues and contexts -/

/-- A queue's registers and configuration (R361). -/
structure Queue where
  tail : Word
  head : Word
  done : Word
  enabled : Bool
  running : Option Nat
  tailError : Bool
  ringBase : Word
  compBase : Word
  ringLog2 : Word
  context : Word
  msix : Word
  graph : Option Nat
  deriving DecidableEq, Repr

/-- A queue before it is configured (notes/assumptions/2.md). -/
def Queue.reset : Queue :=
  { tail := 0#64, head := 0#64, done := 0#64, enabled := false, running := none, tailError := false, ringBase := 0#64,
    compBase := 0#64, ringLog2 := 0#64, context := 0#64, msix := 0#64, graph := none }

/-- What became of a graph node (R373). -/
inductive NodeSt where
  | waiting
  | running (launch : Nat)
  | ended (outcome : Nat) (cause : Nat)
  deriving DecidableEq, Repr

/-- A graph replay: the snapshot and its nodes (R373). -/
structure Graph where
  ctx : BitVec 12
  seqNo : Nat
  area : Nat
  table : List Byte
  nodes : List NodeSt
  deriving DecidableEq, Repr

/-- Context states (R375). -/
inductive CtxSt where
  | free | live | busy | error
  deriving DecidableEq, Repr

/-- A context's control block and what the head keeps for it (R367, R375, R379, R387, R395, R396, R401, R417). -/
structure Context where
  st : CtxSt
  lastCmd : BitVec 3
  reason : Nat
  dirBase : Word
  params : Word
  faultRing : Word
  faultLog2 : Word
  faultHead : Word
  faultTail : Word
  waitingRecs : List (List Byte)
  errRing : Word
  errLog2 : Word
  errSeq : Nat
  opAddr : Word
  opArg : Word
  chain : List Byte
  deficits : List Nat
  dataKey : Option (BitVec 256)
  ckKey : Option (BitVec 256)
  counter : Nat
  tdisp : Tdisp
  tdispOwner : Nat
  migrating : Option Nat
  deriving DecidableEq, Repr

/-- A context that no host has created (R376; notes/assumptions/2.md). -/
def Context.reset : Context :=
  { st := .free, lastCmd := 0#3, reason := 0, dirBase := 0#64, params := 0#64, faultRing := 0#64, faultLog2 := 0#64,
    faultHead := 0#64, faultTail := 0#64, waitingRecs := [], errRing := 0#64, errLog2 := 0#64, errSeq := 0, opAddr := 0#64,
    opArg := 0#64, chain := [], deficits := [0, 0, 0, 0], dataKey := none, ckKey := none, counter := 0, tdisp := .config,
    tdispOwner := 0, migrating := none }

/-- Checkpoint states (R424). -/
inductive CkSt where
  | idle | stopping | pulling | restoring
  deriving DecidableEq, Repr

/-- A context's checkpoint block (R424). `versions` are those recorded when a take completes (R426). -/
structure Checkpoint where
  st : CkSt
  lastCmd : BitVec 2
  reason : Nat
  epoch : Word
  segList : Word
  segCount : Word
  targets : List Word
  mirror : Word
  jobPackages : Word
  stopUs : Word
  lastEpoch : Word
  versions : PMap Nat
  deriving DecidableEq, Repr

/-- An idle checkpoint block (notes/assumptions/2.md). -/
def Checkpoint.reset : Checkpoint :=
  { st := .idle, lastCmd := 0#2, reason := 0, epoch := 0#64, segList := 0#64, segCount := 0#64,
    targets := [0#64, 0#64, 0#64, 0#64], mirror := 0#64, jobPackages := 1#64, stopUs := 0#64, lastEpoch := 0#64, versions := [] }

/-! ### Packages: links, keys, power, log -/

/-- Key-slot states (R393). -/
inductive KeySt where
  | empty | ready | active | draining
  deriving DecidableEq, Repr

/-- A request that was sealed under a key slot: an operation of a grain, or a command of an engine (R393). -/
inductive KeyReq where
  | op (who : GrainKey) (id : Nat)
  | cmd (cl : Nat) (id : Nat)
  | stream (l : Loc) (n : Fin 4)
  deriving DecidableEq, Repr

/-- A key slot of a context on a link (R393): `requests` are those sealed under a slot that drains, `group` the group counter and
`inGroup` the flits of the group that is being filled (R391). -/
structure KeySlot where
  st : KeySt
  key : Option KeyPair
  requests : List KeyReq
  group : Nat
  inGroup : Nat
  deriving DecidableEq, Repr

/-- An empty key slot. -/
def KeySlot.empty : KeySlot := ⟨.empty, none, [], 0, 0⟩

/-- A fabric port (R412, R413, R391). -/
structure Port where
  lanes : Nat
  up : Bool
  waited : Vector Nat 3
  queued : Vector Nat 3
  sent : Vector Nat 3
  authFails : Nat
  resends : Nat
  deriving DecidableEq, Repr

/-- A port with its 24 lanes up (R412). -/
def Port.reset : Port := ⟨24, true, Vector.replicate 3 0, Vector.replicate 3 0, Vector.replicate 3 0, 0, 0⟩

/-- A source's window toward a target package and tier; `quiet` until the next notice (R414). -/
structure CongWindow where
  target : Nat
  tier : Nat
  size : Nat
  quiet : Bool
  deriving DecidableEq, Repr

/-- SPDM connection states (R401). -/
inductive SpdmSt where
  | start | version | capabilities | negotiated
  deriving DecidableEq, Repr

/-- A secured session (R401). -/
structure Session where
  id : Nat
  owner : SessionOwner
  finished : Bool
  deriving DecidableEq, Repr

/-- The responder's capabilities (R401). -/
inductive SpdmCap where
  | cert | chal | measSig | keyEx | encrypt | mac
  deriving DecidableEq, Repr

/-- What the responder sent last (R401). -/
inductive SpdmReply where
  | none
  | version (v : Nat)
  | capabilities (cs : List SpdmCap)
  | algorithms (a : AlgOffer)
  | digests (d : List Byte)
  | certificate (portion : List Byte)
  | challengeAuth (sig : BitVec 768)
  | measurements (vals : List (List Byte)) (sig : BitVec 768)
  | keyExchange (session : Nat) (pub : BitVec 768)
  | finish
  | ended
  | accepted
  | refused
  | unexpected
  | unsupported
  deriving DecidableEq, Repr

/-- A flash region's copies A and B (R433). -/
structure FlashCopies where
  a : Option FlashImage
  b : Option FlashImage
  deriving DecidableEq, Repr

/-- The counters of the life log (R436). `trainDowns` counts by port, `spills` and `fills` by cluster, `coreErrors` the errors of
cores that events of the model report (R236); `sensed` holds the quantities that none reports: further errors by core and channel, far-load latency, temperature and throttled clk (notes/assumptions/27.md). -/
structure LogCounters where
  poweredSec : Nat
  interruptions : Nat
  votes : Nat
  quarantines : Nat
  returned : Nat
  replaced : Nat
  droops : Nat
  trips : Nat
  powerOns : Nat
  unclean : Nat
  trainDowns : List Nat
  spills : PMap Nat
  fills : PMap Nat
  coreErrors : PMap Nat
  sensed : List Nat
  deriving DecidableEq, Repr

/-- A life-log record (R436): its sequence number, the counters as they stood, and whether its CRC verifies. -/
structure LogRecord where
  seq : Nat
  counters : LogCounters
  crcOk : Bool
  deriving DecidableEq, Repr

/-- The life log (R436, R437): the counters now, the records held, oldest first, and the record last returned. -/
structure LifeLog extends LogCounters where
  next : Nat
  records : List LogRecord
  cleanStop : Bool
  lastRead : Option LogRecord
  deriving DecidableEq, Repr

/-- A life log from manufacture. -/
def LifeLog.reset : LifeLog :=
  { poweredSec := 0, interruptions := 0, votes := 0, quarantines := 0, returned := 0, replaced := 0, droops := 0, trips := 0, powerOns := 0,
    unclean := 0, trainDowns := List.replicate 6 0, spills := [], fills := [], coreErrors := [], sensed := [], next := 0, records := [], cleanStop := true,
    lastRead := none }

/-- A failed unit that waits for its repair and its fill, in order of detection (R419-R431): the contexts that hear of the repair, whether
the unit is repaired, whether its fill runs. -/
structure Fill where
  unit : HwUnit
  order : Nat
  ctxs : List (BitVec 12)
  repaired : Bool
  running : Bool
  deriving DecidableEq, Repr

/-- One package's head complex and links (R2, R6). -/
structure Pkg where
  boot : Nat
  recovery : Bool
  failed : Bool
  queues : PMap Queue
  graphs : PMap Graph
  ctxs : PMap Context
  cks : PMap Checkpoint
  reports : List Report
  completions : List Nat
  rrQueue : PMap Nat
  ports : Vector Port 6
  keys : PMap (Vector KeySlot 4)
  pendingKeys : List (Nat × KeyPair)
  windows : List CongWindow
  fallback : Bool
  aliases : PMap Nat
  spdm : SpdmSt
  sessions : List Session
  reply : SpdmReply
  measurements : Vector (List Byte) 17
  aliasKey : Option (BitVec 768)
  identity : List Byte
  plim : Nat
  duty : Nat
  overFor : Nat
  halfIssue : Bool
  flash : PMap FlashCopies
  log : LifeLog
  msixSent : List Nat
  fills : List Fill
  hbmSeed : Word
  hbmFresh : PMap Word
  aliasCert : BitVec 768
  ide : PMap (BitVec 256)
  deriving DecidableEq, Repr

/-- A package before power-good (R432; notes/assumptions/2.md). -/
def Pkg.reset : Pkg :=
  { boot := 0, recovery := false, failed := false, queues := [], graphs := [], ctxs := [(0, { Context.reset with st := .live })],
    cks := [], reports := [], completions := [], rrQueue := [], ports := Vector.replicate 6 Port.reset, keys := [],
    pendingKeys := [], windows := [], fallback := false, aliases := [], spdm := .start, sessions := [], reply := .none,
    measurements := Vector.replicate 17 (List.replicate 48 0#8), aliasKey := none, identity := [], plim := 1200, duty := 8, overFor := 0,
    halfIssue := false, flash := [], log := LifeLog.reset,
    msixSent := [], fills := [], hbmSeed := 0#64, hbmFresh := [], aliasCert := 0#768, ide := [] }

end Sys2Proof.Machine
end

