-- ==== Sys2Proof/Machine/State.lean ====
section
/-! DEFINITION. The state of the system, the reasons a step can stop, and the state after reset (spec/01_grain_state.md R19-R41,
spec/23_bringup_power_life_log.md R432; INVENTORY.md lists every item). -/

namespace Sys2Proof.Machine

/-- The whole system. A core, cluster, die or launch that a map does not list stands at its reset value. `tick`, `cur` and `agenda`
are the model's own (notes/assumptions/3.md): the counter the free values are applied to, the slot whose turn it is, and the events that
are due. -/
structure State where
  mem : Memory
  poison : List Nat
  cores : PMap Core
  clusters : PMap Cluster
  dies : PMap Die
  pkgs : PMap Pkg
  launches : PMap Launch
  present : List Nat
  nextLaunch : Nat
  nextSteer : PMap Nat
  tick : Nat
  cur : Loc
  agenda : List Event
  deriving DecidableEq, Repr

/-- Why a step stops with a fault. Faults of the hardware are no faults here: they end a launch and the machine goes on (R259). -/
inductive Fault where
  /-- Raised by no meaning: every fault cause of R237 is taken as the spec describes it. Safe. -/
  | none
  deriving DecidableEq, Repr

/-- Why a step has no next state. -/
inductive Refusal where
  /-- Raised by an arm of exec whose instruction has no meaning yet. Safe. -/
  | notModelled (mnemonic : String)
  deriving DecidableEq, Repr

/-- The system before power-good: every core in reset, no package booted, nothing written in memory (R432). Package 0 is the one
present (notes/assumptions/2.md). -/
def State.reset : State :=
  { mem := [], poison := [], cores := [], clusters := [], dies := [], pkgs := [], launches := [], present := [0], nextLaunch := 1,
    nextSteer := [], tick := 0, cur := ⟨0, 0⟩, agenda := [] }

end Sys2Proof.Machine
end

