-- ==== Sys2Proof/Machine/Ops.lean ====
section
/-! DEFINITION. The named operations over the state: accessors, memory, the monad of meanings with its stops, issuing an instruction,
and taking a fault (spec/01_grain_state.md R38-R41, spec/08_grains_and_the_barrel.md R249-R261, spec/03 R77-R79, spec/07 R237). -/

namespace Sys2Proof.Machine

/-! ### Order -/

/-- Puts an element before the first that it does not follow. -/
def insertBy {α : Type} (le : α → α → Bool) (x : α) : List α → List α
  | [] => [x]
  | y :: ys => if le x y then x :: y :: ys else y :: insertBy le x ys
/-- A list in order; equal elements keep their places. -/
def sortBy {α : Type} (le : α → α → Bool) (xs : List α) : List α := xs.foldr (insertBy le) []

/-! ### Accessors -/

/-- A core by its number. -/
def State.core (s : State) (k : Nat) : Core := (PMap.get? k s.cores).getD Core.reset
/-- Replaces a core. -/
def State.setCore (s : State) (k : Nat) (c : Core) : State := { s with cores := PMap.set k c s.cores }
/-- A cluster by its global ID. -/
def State.cluster (s : State) (gid : Nat) : Cluster := (PMap.get? gid s.clusters).getD Cluster.reset
/-- Replaces a cluster. -/
def State.setCluster (s : State) (gid : Nat) (c : Cluster) : State := { s with clusters := PMap.set gid c s.clusters }
/-- A die by its global ID. -/
def State.die (s : State) (d : Nat) : Die := (PMap.get? d s.dies).getD Die.reset
/-- Replaces a die. -/
def State.setDie (s : State) (d : Nat) (x : Die) : State := { s with dies := PMap.set d x s.dies }
/-- A package by its node number. -/
def State.pkg (s : State) (n : Nat) : Pkg := (PMap.get? n s.pkgs).getD Pkg.reset
/-- Replaces a package. -/
def State.setPkg (s : State) (n : Nat) (p : Pkg) : State := { s with pkgs := PMap.set n p s.pkgs }
/-- A launch by its handle. -/
def State.launch (s : State) (h : Nat) : Launch := (PMap.get? h s.launches).getD Launch.none
/-- Replaces a launch. -/
def State.setLaunch (s : State) (h : Nat) (l : Launch) : State := { s with launches := PMap.set h l s.launches }

/-- A slot by its place. -/
def State.slotAt (s : State) (l : Loc) : Slot := (s.core l.core).slots[l.slot]
/-- Replaces a slot. -/
def State.setSlot (s : State) (l : Loc) (x : Slot) : State :=
  let c := s.core l.core
  s.setCore l.core { c with slots := c.slots.set l.slot x }
/-- The grain of a slot. -/
def State.grainAt (s : State) (l : Loc) : Grain := (s.slotAt l).grain
/-- Replaces the grain of a slot. -/
def State.setGrainAt (s : State) (l : Loc) (g : Grain) : State := s.setSlot l { s.slotAt l with grain := g }
/-- The grain whose turn it is. -/
def State.grain (s : State) : Grain := s.grainAt s.cur
/-- Replaces the grain whose turn it is. -/
def State.setGrain (s : State) (g : Grain) : State := s.setGrainAt s.cur g
/-- The core whose turn it is. -/
def State.curCore (s : State) : Core := s.core s.cur.core
/-- Replaces the core whose turn it is. -/
def State.setCurCore (s : State) (c : Core) : State := s.setCore s.cur.core c
/-- The launch of the grain whose turn it is. -/
def State.curLaunch (s : State) : Launch := s.launch s.grain.launch

/-- The cluster a core lies in (R11): cores are numbered global cluster ID × 32 + core. -/
def coreCluster (k : Nat) : Nat := k / 32
/-- The number of a core in its cluster. -/
def coreIndex (k : Nat) : Nat := k % 32
/-- The die of a cluster, numbered node × 4 + die (R35). -/
def clusterDie (gid : Nat) : Nat := gid / 128
/-- The package of a cluster (R35). -/
def clusterNode (gid : Nat) : Nat := gid / 512
/-- The cluster whose turn it is. -/
def State.here (s : State) : Nat := coreCluster s.cur.core
/-- Packed hardware coordinates (R92, selector 0). -/
def packed (l : Loc) : Nat := 16 * l.core + l.slot
/-- The place that packed coordinates name. -/
def unpackLoc (n : Nat) : Loc := ⟨n / 16 % 2 ^ 31, ⟨n % 16, Nat.mod_lt _ (by decide)⟩⟩

/-- Adds events to those that are due. -/
def State.due (s : State) (evs : List Event) : State := { s with agenda := s.agenda ++ evs }

/-- Adds an event unless it is already due. -/
def State.dueOnce (s : State) (ev : Event) : State :=
  { s with agenda := if s.agenda.contains ev then s.agenda else s.agenda ++ [ev] }

/-- A new tick, so that the next free values are fresh (notes/assumptions/3.md). -/
def State.ticked (s : State) : State := { s with tick := s.tick + 1 }

/-! ### Registers (R20) -/

/-- g0 to g9; other codes read 0 here. -/
def Grain.reg (g : Grain) (n : Nat) : Word := if h : n < 10 then g.g[n] else 0#64
/-- Writes g0 to g9; other codes write nothing. -/
def Grain.setReg (g : Grain) (n : Nat) (x : Word) : Grain := if h : n < 10 then { g with g := g.g.set n x } else g
/-- Writes a register of the grain whose turn it is. -/
def State.setReg (s : State) (n : Nat) (x : Word) : State := s.setGrain (s.grain.setReg n x)
/-- A segment register. -/
def Grain.seg (g : Grain) (n : Nat) : Seg := if h : n < 8 then g.sg[n] else Seg.empty
/-- A v register. -/
def Grain.vreg (g : Grain) (r : Reg) : VWord := g.v[r.toFin]
/-- The register's value over 128 or 256 bits (R26). -/
def Grain.vval (g : Grain) (r : Reg) : Nat :=
  g.v[r.toFin].toNat + (if gangedOf g.pw then 2 ^ 128 * g.vh[r.toFin].toNat else 0)
/-- Writes a v register over 128 or 256 bits and sets VDIRTY (R25, R26). -/
def Grain.setV (g : Grain) (r : Reg) (x : Nat) : Grain :=
  { g with v := g.v.set r.toFin (BitVec.ofNat 128 x),
           vh := if gangedOf g.pw then g.vh.set r.toFin (BitVec.ofNat 128 (x / 2 ^ 128)) else g.vh,
           pw := setBit g.pw 44 true }
/-- Width of a v register now (R26). -/
def Grain.vbits (g : Grain) : Nat := if gangedOf g.pw then 256 else 128

/-! ### Segments (R30) -/

/-- A segment's limit. -/
def Seg.limit (d : Seg) : Nat := (d.w1.extractLsb' 0 52).toNat
/-- The r right. -/
def Seg.r (d : Seg) : Bool := d.w2.getLsbD 0
/-- The w right. -/
def Seg.w (d : Seg) : Bool := d.w2.getLsbD 1
/-- The x right. -/
def Seg.x (d : Seg) : Bool := d.w2.getLsbD 2
/-- The private bit. -/
def Seg.priv (d : Seg) : Bool := d.w2.getLsbD 8
/-- Sets the private bit (R233). -/
def Seg.setPriv (d : Seg) : Seg := { d with w2 := d.w2 ||| 0x100#64 }
/-- R31: whether a descriptor may stand in register `n`. Bit 8 of word 2 is ignored. -/
def Seg.valid (d : Seg) (n : Nat) : Bool :=
  d.w1.extractLsb' 52 12 == 0#12 && (d.w2 &&& ~~~(0x107#64)) == 0#64 && !(decide (4 ≤ n) && d.w)
    && (decide (4 ≤ n) || (d.w0.extractLsb' 38 26 == 0#26 && decide (d.w0.toNat + d.limit ≤ 2 ^ 38)))
/-- Some segment register is private. -/
def Grain.anyPrivate (g : Grain) : Bool := g.sg.toList.any Seg.priv

/-! ### Memory by physical place (notes/assumptions/1.md) -/

/-- One byte. -/
def Memory.read (m : Memory) (a : Nat) : Byte := (PMap.get? a m).getD Memory.unlisted
/-- Writes one byte, keeping the canonical form. -/
def Memory.write (m : Memory) (a : Nat) (b : Byte) : Memory :=
  match m with
  | [] => if b = Memory.unlisted then [] else [(a, b)]
  | (a', b') :: r =>
    if a' = a then (if b = Memory.unlisted then r else (a, b) :: r)
    else if a < a' then (if b = Memory.unlisted then (a', b') :: r else (a, b) :: (a', b') :: r)
    else (a', b') :: Memory.write r a b
/-- `n` bytes from `a`, in address order. -/
def Memory.bytes (m : Memory) (a n : Nat) : List Byte := (List.range n).map fun i => m.read (a + i)
/-- Writes bytes in address order. -/
def Memory.writeBytes (m : Memory) (a : Nat) : List Byte → Memory
  | [] => m
  | b :: bs => Memory.writeBytes (m.write a b) (a + 1) bs
/-- A little-endian number (R16). -/
def leNat : List Byte → Nat
  | [] => 0
  | b :: bs => b.toNat + 256 * leNat bs
/-- The `n` low bytes of a number, little-endian (R16). -/
def leBytes (n : Nat) (x : Nat) : List Byte := (List.range n).map fun i => BitVec.ofNat 8 (x / 256 ^ i)
/-- A 64-bit word of a byte list. -/
def wordOf (bs : List Byte) (off : Nat) : Word := BitVec.ofNat 64 (leNat ((bs.drop off).take 8))
/-- A field of `n` bytes of a byte list. -/
def fieldOf (bs : List Byte) (off n : Nat) : Nat := leNat ((bs.drop off).take n)

/-! ### Physical places (notes/assumptions/7.md) -/

/-- An offset in a cluster's channel. -/
def hbmKey (gid off : Nat) : Nat := gid * 2 ^ 38 + 0x1000000000 + off
/-- An address in a package's CXL window. -/
def cxlKey (node a : Nat) : Nat := 2 ^ 64 + node * 2 ^ 42 + a
/-- An address in the memory of a package's host. -/
def hostKey (node a : Nat) : Nat := 2 ^ 65 + node * 2 ^ 64 + a

/-- Changes the life log of a package (R436). -/
def State.logged (s : State) (node : Nat) (f : LifeLog → LifeLog) : State :=
  let p := s.pkg node
  s.setPkg node { p with log := f p.log }

/-! ### Page-fault records (R277, R379) -/

/-- A context's control block. -/
def State.ctxOf (s : State) (node : Nat) (c : BitVec 12) : Context := (PMap.get? c.toNat (s.pkg node).ctxs).getD Context.reset
/-- Replaces a context's control block. -/
def State.setCtx (s : State) (node : Nat) (c : BitVec 12) (x : Context) : State :=
  let p := s.pkg node
  s.setPkg node { p with ctxs := PMap.set c.toNat x p.ctxs }
/-- Where an address lies that the host gave: in its memory or in CXL memory (R361; notes/assumptions/80.md). -/
def busKey (node a : Nat) : Nat := if Config.inCxl a && decide (a < 2 ^ 42) then cxlKey node a else hostKey node a
/-- Writes bytes at an address that a package's host gave. -/
def State.hostWrite (s : State) (node a : Nat) (bs : List Byte) : State := { s with mem := s.mem.writeBytes (busKey node a) bs }
/-- Reads bytes at an address that a package's host gave. -/
def State.hostRead (s : State) (node a n : Nat) : List Byte := s.mem.bytes (busKey node a) n
/-- A read at an address that the host gave fails. -/
def State.hostBad (s : State) (node a n : Nat) : Bool :=
  (List.range ((a % 32 + n + 31) / 32)).any fun i => s.poison.contains (busKey node a / 32 + i)
/-- Sends an MSI-X message (R375). -/
def State.msix (s : State) (node v : Nat) : State :=
  let p := s.pkg node
  s.setPkg node { p with msixSent := p.msixSent ++ [v] }

/-- The cluster index of a fault record: die × 96 + cluster (R379). -/
def clusterIndex (gid : Nat) : Nat := gid / 128 % 4 * 96 + gid % 128
/-- The cluster of a package that a cluster index names. -/
def clusterOfIndex (node i : Nat) : Nat := node * 512 + i / 96 * 128 + i % 96

/-- The first 16 bytes of a fault record (R379); its token names the entry. -/
def faultHead (gid : Nat) (e : FaultEntry) : List Byte :=
  leBytes 8 (gid * 2 ^ 38 + e.addr) ++ leBytes 2 (e.idx + 32 * clusterIndex gid) ++ leBytes 1 e.access ++ leBytes 1 e.reason
    ++ leBytes 4 0

/-- Marks the entry of a record as recorded: from now on its token names it. -/
def markRecorded (s : State) (gid idx : Nat) : State :=
  let c := s.cluster gid
  s.setCluster gid { c with faults := c.faults.map fun e => if e.idx == idx then { e with recorded := true } else e }

/-- Writes waiting fault records while the ring has room (R379), at most `fuel` of them. -/
def flushFaults (s : State) (node : Nat) (c : BitVec 12) : Nat → State
  | 0 => s
  | fuel + 1 =>
    let x := s.ctxOf node c
    let size := 2 ^ (x.faultLog2.toNat % 16)
    match x.waitingRecs with
    | [] => s
    | r :: rest =>
      if x.st == .free || x.st == .error || decide (x.faultTail.toNat - x.faultHead.toNat = size) then s
      else
        let s := s.hostWrite node (x.faultRing.toNat + 32 * (x.faultTail.toNat % size))
          (r ++ leBytes 8 x.faultTail.toNat ++ leBytes 8 0)
        let s := s.setCtx node c { x with faultTail := x.faultTail + 1#64, waitingRecs := rest }
        let token := fieldOf r 8 2
        let s := markRecorded s (clusterOfIndex node (token / 32)) (token % 32)
        let s := if x.params.getLsbD 9 then s.msix node (x.params.extractLsb' 10 11).toNat else s
        flushFaults s node c fuel

/-- Passes a page to the context's page service. -/
def serveRecord (s : State) (gid : Nat) (e : FaultEntry) : State :=
  let node := clusterNode gid
  let x := s.ctxOf node e.ctx
  let c := s.cluster gid
  let s := s.setCluster gid { c with faults := c.faults.map fun x => if x.idx == e.idx then { x with passed := true } else x }
  let s := s.setCtx node e.ctx { x with waitingRecs := x.waitingRecs ++ [faultHead gid e] }
  flushFaults s node e.ctx (x.waitingRecs.length + 1)

/-- Adds a request to the entry of its page; the first one fixes the kind of access, and the page is passed to the page service (R277,
R379). -/
def addWaiter (s : State) (gid : Nat) (ctx : BitVec 12) (va : Nat) (w : PageWaiter) (access : Nat) : State :=
  let c := s.cluster gid
  let mine := fun (e : FaultEntry) => e.ctx == ctx && e.page == va / 4096
  let add := fun (e : FaultEntry) =>
    if mine e && !e.waiters.contains w then
      { e with waiters := e.waiters ++ [w], access := if e.idle then access else e.access } else e
  let s' := s.setCluster gid { c with faults := c.faults.map add, faultWait := c.faultWait.map add }
  match c.faults.find? fun e => mine e && !e.passed with
  | some e => serveRecord s' gid { e with access }
  | none => s'

/-! ### Stops -/

/-- How a meaning ends other than by completing: it parks and is tried again, waits for a page, parks with a state of its own, raises
a cause, or raises one after an effect that stands. -/
inductive Stop where
  | park (w : Wait) (evs : List Event)
  | page (gid : Nat) (ctx : BitVec 12) (va : Nat) (info : Word) (access : Nat)
  | parkIn (s : State) (w : Wait)
  | trap (c : Cause) (info : Word)
  | trapIn (s : State) (c : Cause) (info : Word)
  deriving Repr

/-- Meanings: a state threaded through, with the stops. -/
abbrev M := StateT State (Except Stop)

/-- Parks without any effect; the instruction is tried again. -/
def parkM {α : Type} (w : Wait) : M α := throw (Stop.park w [])
/-- Parks without any effect but events that are due from now on. -/
def parkOn {α : Type} (w : Wait) (evs : List Event) : M α := throw (Stop.park w evs)
/-- Parks keeping what was done so far; the instruction is tried again from its own PC. -/
def parkKeep {α : Type} (w : Wait) : M α := fun s => .error (Stop.parkIn s w)
/-- Raises a cause, precisely: nothing of the instruction takes effect. -/
def trapM {α : Type} (c : Cause) (info : Word) : M α := throw (Stop.trap c info)
/-- Parks when a condition holds. -/
def parkWhen (b : Bool) (w : Wait) : M Unit := if b then parkM w else pure ()
/-- Raises a cause when a condition holds. -/
def trapWhen (b : Bool) (c : Cause) (info : Word) : M Unit := if b then trapM c info else pure ()
/-- The grain whose turn it is. -/
def grainM : M Grain := do return (← get).grain
/-- Changes the grain whose turn it is. -/
def onGrain (f : Grain → Grain) : M Unit := modify fun s => s.setGrain (f s.grain)
/-- Changes the core whose turn it is. -/
def onCore (f : Core → Core) : M Unit := modify fun s => s.setCurCore (f s.curCore)
/-- Changes a cluster. -/
def onCluster (gid : Nat) (f : Cluster → Cluster) : M Unit := modify fun s => s.setCluster gid (f (s.cluster gid))
/-- Adds an event that is due. -/
def emit (ev : Event) : M Unit := modify fun s => s.due [ev]

/-- A reload that fails empties its slot, and every MMA that waits for it fails (R210, R298). -/
def WSlot.reloadFailed (x : WSlot) : WSlot := { WSlot.empty with loads := x.loads, failed := (x.failed ++ x.reload).dedup }

/-! ### Parking, waking -/

/-- Parks a slot; a monitor slot stays in monitor mode and simply tries again. -/
def State.parkAt (s : State) (l : Loc) (w : Wait) : State :=
  let sl := s.slotAt l
  match sl.st with
  | .monitor | .stopping => s
  | _ => s.setSlot l { sl with st := if w = .channel then .gated else .parked w }
/-- Parks the slot whose turn it is. -/
def State.parkCur (s : State) (w : Wait) : State := s.parkAt s.cur w
/-- A park that no result or wake ends: a fault has stopped the grain (R259), its packet is on its way (R254), or it is being spilled
(R252). -/
def Wait.held (w : Wait) : Bool :=
  match w with
  | .fault | .arrival | .slot => true
  | _ => false
/-- An operation is still outstanding. -/
def Grain.isPending (g : Grain) (id : Nat) : Bool := g.pend.any fun p => p.id == id
/-- A window whose instructions are used up while its result is outstanding (R39). -/
def Grain.blocked (g : Grain) : Bool := g.windows.any fun w => decide (w.k ≤ w.pos) && g.isPending w.op
/-- What the arrival of a result of the grain can end (R249): the waits on its windows and places, and those that look at all its work. -/
def Wait.onResult (w : Wait) : Bool :=
  match w with
  | .window | .fifth | .outstanding | .seqword | .watch | .channel | .stores | .release | .drain | .engineLine | .monitorOp => true
  | _ => false
/-- What the performance of a store can end. -/
def Wait.onStore (w : Wait) : Bool :=
  match w with
  | .stores | .release | .drain | .engineLine | .monitorOp => true
  | _ => false
/-- What an entry that completes in the sequencer can end. -/
def Wait.onSequencer (w : Wait) : Bool :=
  match w with
  | .sequencer | .predicates | .lane | .release | .drain | .monitorOp => true
  | _ => false
/-- What a fetch or a line write of a stream can end. -/
def Wait.onStream (w : Wait) : Bool :=
  match w with
  | .stream | .release | .drain | .monitorOp => true
  | _ => false
/-- What a grain looks at again by itself. -/
def Wait.onRetry (w : Wait) : Bool :=
  match w with
  | .walk | .forwarded | .pair | .engineLine | .stores | .release | .drain | .outstanding | .monitorOp => true
  | _ => false
/-- A wait beyond a window, which every result it lies beyond must end (R39). -/
def Wait.beyond (w : Wait) : Bool :=
  match w with
  | .window | .watch | .channel => true
  | _ => false
/-- Puts a parked or gated slot back in the rotation when the event ends its wait (R249), unless a result that its next instruction waits for
is still outstanding. A page fault, a tile, a barrier, the array, a RAND value and a pair are ended by their own events only. -/
def State.wakeIf (ends : Wait → Bool) (s : State) (l : Loc) : State :=
  let sl := s.slotAt l
  let on := fun (w : Wait) => !w.held && ends w && !(w.beyond && sl.grain.blocked)
  match sl.st with
  | .parked w => if on w then s.setSlot l { sl with st := .ready } else s
  | .gated => if on .channel then s.setSlot l { sl with st := .ready } else s
  | _ => s
/-- A result of the grain in a slot has arrived. -/
def State.wake (s : State) (l : Loc) : State := s.wakeIf Wait.onResult l
/-- The one event that a wait is for. -/
def State.wakeFrom (w : Wait) (s : State) (l : Loc) : State := s.wakeIf (· == w) l
/-- The same for every slot of a core. -/
def State.wakeCore (ends : Wait → Bool) (s : State) (k : Nat) : State :=
  (List.finRange 16).foldl (fun s i => s.wakeIf ends ⟨k, i⟩) s
/-- The slots of a core. -/
def coreLocs (k : Nat) : List Loc := (List.finRange 16).map fun i => ⟨k, i⟩

/-- Whether a slot holds a grain (R249). -/
def Slot.occupied (sl : Slot) : Bool :=
  match sl.st with
  | .ready | .parked _ | .gated | .monitor => true
  | _ => false
/-- Every slot of the system that holds a grain. -/
def State.allLocs (s : State) : List Loc := s.cores.flatMap fun e => (coreLocs e.1).filter fun l => (s.slotAt l).occupied

/-! ### Taking a fault (R237, R259) -/

/-- The global address at an offset of a segment register, as a grain of a cluster forms it (R30, R32). -/
def segAddr (gid n : Nat) (d : Seg) (off : Nat) : Nat :=
  if n < 4 then gid * 2 ^ 38 + (d.w0.toNat + off) % 2 ^ 38 else (d.w0.toNat + off) % 2 ^ 64
/-- The text offset of a PC (R102, R122, R366, R371): the text begins at the base of the launch's entry segment, whichever segment the PC
names. -/
def State.codeOff (s : State) (l : Loc) (pc : Word) : Nat :=
  let g := s.grainAt l
  let x := s.launch g.launch
  let gid := coreCluster l.core
  let n := (pc.extractLsb' 52 3).toNat
  let e := (x.entry.extractLsb' 52 3).toNat
  let off := (pc.extractLsb' 0 52).toNat
  let seg := fun (v : Vector Seg 8) (k : Nat) => if h : k < 8 then v[k] else Seg.empty
  if n = e ∧ (seg g.sg n).w0 = (seg x.segs e).w0 then off
  else (segAddr gid n (seg g.sg n) off + 2 ^ 64 - segAddr gid e (seg x.segs e) 0) % 2 ^ 52

/-- Writes TRAP_CAUSE and TRAP_INFO of a core (R37). -/
def Core.trap (c : Core) (cause : Cause) (slot : Nat) (info : Word) : Core :=
  { c with trapCause := BitVec.ofNat 64 (cause.code + 256 * slot + 4096), trapInfo := info }

/-- A report on its way to a head complex (R259). -/
def State.sendReport (s : State) (node : Nat) (r : Report) : State :=
  let p := s.pkg node
  (s.setPkg node { p with reports := p.reports ++ [r] }).due [.faultReport node]
/-- A fault stops the grain of a slot (R259): it leaves monitor mode or a spill that had begun, and nothing makes it ready again. -/
def State.stopFaulted (s : State) (l : Loc) : State :=
  let c := s.core l.core
  let sl := s.slotAt l
  let s := s.setCore l.core { c with spilling := if c.spilling == some l.slot then none else c.spilling }
  if sl.occupied then s.setSlot l { sl with st := .parked .fault } else s
/-- R237, R259: a fault at a place. The core's trap registers are written, the grain stops at its instruction with Ganged cleared (R23),
and the fault goes to the head complex. The handler of the event does the rest; the odd slot of a gang is freed with the launch (R261). -/
def State.raiseFrom (s : State) (l : Loc) (pc : Word) (cause : Cause) (info : Word) (imprecise : Bool) : State :=
  let c := (s.core l.core).trap cause l.slot info
  let s := s.setCore l.core c
  let g := s.grainAt l
  let off := s.codeOff l pc
  let s := (s.setGrainAt l { g with pw := setBit g.pw 46 false }).stopFaulted l
  s.sendReport (clusterNode (coreCluster l.core))
    { launch := g.launch, cause, info, where_ := packed l, codeOff := off, cycle := c.cycle, rank := g.rank, imprecise }

/-- The grain of a slot leaves monitor mode for a PC, with its own segments again (R229). -/
def State.leaveMonitorAt (s : State) (l : Loc) (m : MSave) (pc : Word) : State :=
  let sl := s.slotAt l
  s.setSlot l { sl with st := .ready, msave := none, grain := { sl.grain with pc, sg := m.sg } }
/-- A fault while a service runs is precise at its MCALL (R395). -/
def State.toCall (s : State) (l : Loc) : State :=
  match (s.slotAt l).msave with
  | some m => s.leaveMonitorAt l m m.call
  | none => s

/-- A fault at a place, reported at the grain's PC. -/
def State.raiseAt (s : State) (l : Loc) (cause : Cause) (info : Word) (imprecise : Bool) : State :=
  s.raiseFrom l (s.grainAt l).pc cause info imprecise

/-- A precise fault of the grain whose turn it is. -/
def State.raise (s : State) (cause : Cause) (info : Word) : State := s.raiseAt s.cur cause info false

/-- The coordinates of a global address, as the peer field of an error record has them (R417). -/
def peerOf (addr : Nat) : Nat := addr / 2 ^ 38 % 2 ^ 26 * 256
/-- What a protected context's records keep of TRAP_INFO (R403). -/
def reduceInfo (c : Cause) (info : Word) : Word :=
  match c with
  | .segBounds | .segRights | .farStore | .misaligned | .protection => info &&& (0x3F#64 <<< 52)
  | .peerLost | .uncorrectable => info &&& (0x3FFFFFF#64 <<< 38)
  | .netPortInvalid => info &&& (0x3FFFFFF#64 <<< 22)
  | _ => info
/-- Writes an entry of a context's error queue: its sequence number and the 56 bytes that follow it (R417). -/
def State.errEntry (s : State) (node : Nat) (ctx : BitVec 12) (body : List Byte) : State :=
  let x := s.ctxOf node ctx
  if x.st == .free || x.st == .error then s
  else
    let n := 2 ^ (x.errLog2.toNat % 16)
    (s.hostWrite node (x.errRing.toNat + 64 * (x.errSeq % n)) (leBytes 8 x.errSeq ++ body)).setCtx node ctx
      { x with errSeq := x.errSeq + 1 }
/-- The 56 bytes of an error record of kinds 0 to 5, 8 and 9 (R417). -/
def errBody (seqNo queue cause kind addr where_ block cycle : Nat) : List Byte :=
  leBytes 8 seqNo ++ leBytes 2 queue ++ leBytes 1 cause ++ leBytes 1 kind ++ leBytes 4 0 ++ leBytes 8 addr ++ leBytes 8 (peerOf addr)
    ++ leBytes 8 where_ ++ leBytes 8 block ++ leBytes 8 cycle
/-- The error record of an imprecise fault (R150, R416, R417), reduced for a protected context (R403); that of a far free's NET_PORT_INVALID
names the node's address, which is reduced as an owner's is. -/
def State.errReport (s : State) (node h : Nat) (cause : Cause) (kind : Nat) (info : Word) (where_ block : Nat) : State :=
  let l := s.launch h
  let info := if (s.ctxOf node l.ctx).params.getLsbD 8 then reduceInfo (if cause = .netPortInvalid then .peerLost else cause) info else info
  s.errEntry node l.ctx (errBody l.seqNo l.queue cause.code kind info.toNat where_ block (s.core (where_ / 16)).cycle)
/-- A field of a fault's report that the spec gives no value for: no instruction, grain or core raised the fault (R371;
notes/assumptions/31.md). -/
def State.openField (s : State) (n : Nat) : Nat := (Config.freeWord s.tick (4096 + n)).toNat
/-- A fault of a launch that no grain raises now: an engine, a remote update, a watchdog (R150). With a kind comes an error record;
`block` is the command block of kinds 3 and 5, `rank` that of the grain that issued what failed (R260). -/
def State.raiseLaunch (s : State) (node h : Nat) (cause : Cause) (info : Word) (where_ : Nat) (rank : Word) (kind : Option Nat)
    (block : Nat) : State :=
  let s := match kind with
    | some k => s.errReport node h cause k info where_ block
    | none => s
  s.sendReport node { launch := h, cause, info, where_, codeOff := s.openField (4 * h),
                      cycle := (s.core (where_ / 16)).cycle, rank, imprecise := true }
/-- The same for a fault of the instruction at `pc`. -/
def State.raiseLaunchAt (s : State) (node h : Nat) (pc : Word) (cause : Cause) (info : Word) (where_ : Nat) : State :=
  s.sendReport node
    { launch := h, cause, info, where_, codeOff := s.codeOff (unpackLoc where_) pc, cycle := (s.core (where_ / 16)).cycle,
      rank := (s.grainAt (unpackLoc where_)).rank, imprecise := true }

/-- The outcome of a meaning. Every stop is a next state: a parked slot, or the fault taken. -/
def finish (s : State) (r : Except Stop (Unit × State)) : Host.Outcome State Fault Refusal :=
  match r with
  | .ok (_, s') => .next s'
  | .error (.park w evs) => .next ((evs.foldl State.dueOnce s).parkCur w)
  | .error (.page gid ctx va info access) => .next ((addWaiter s gid ctx va (.grain s.cur info) access).parkCur .pageFault)
  | .error (.parkIn s' w) => .next ((s'.setGrain
      { s'.grain with pc := s.grain.pc, windows := s.grain.windows, streams := s.grain.streams, vloop := s.grain.vloop }).parkCur w)
  | .error (.trap c info) => .next (s.raise c info)
  | .error (.trapIn s' c info) => .next ((s'.setGrain s.grain).raise c info)

/-! ### Lookahead windows (R39, R40) -/

/-- Waits that are no outstanding results (R253). -/
def PendKind.isWait : PendKind → Bool
  | .seqwait .. => true
  | .waitw .. => true
  | .recv .. => true
  | _ => false

/-- Outstanding operations of a grain, pending waits included (R40). -/
def Grain.outstanding (g : Grain) : Nat := g.pend.length
/-- What a blocked grain waits for: a receive gates its slot, a wait on words waits for a watch (R163, R249). -/
def Grain.blockWait (g : Grain) : Wait :=
  let ks : List PendKind := g.pend.filterMap fun p =>
    if g.windows.any (fun w => decide (w.k ≤ w.pos) && w.op == p.id) then some p.kind else none
  match ks with
  | .recv .. :: _ => .channel
  | .seqwait .. :: _ => .watch
  | .waitw .. :: _ => .watch
  | _ => .window
/-- Windows the next instruction still lies in. -/
def Grain.open_ (g : Grain) : List Window := g.windows.filter fun w => decide (w.pos < w.k)
/-- The code of a register or tile in TRAP_INFO (R237). p0 has no register code and reads as 0. -/
def Res.code : Res → Nat
  | .g r => r.toNat
  | .p0 => 0
  | .tile t => t.toNat
/-- The first window whose pending destination the instruction touches, with its place in it. -/
def Grain.violation (g : Grain) (rs : List Res) : Option (Res × Nat) :=
  g.open_.findSome? fun w => (w.dst.find? fun r => rs.contains r).map fun r => (r, w.pos + 1)
/-- One more position of every window; windows that are used up and answered are closed. -/
def Grain.advanceWindows (g : Grain) : List Window :=
  (g.windows.map fun w => { w with pos := w.pos + 1 }).filter fun w => decide (w.pos < w.k) || g.isPending w.op

/-- Sequencer entries that write predicates (R104). -/
def SeqEntry.writesPreds (e : SeqEntry) : Bool :=
  match e.op with
  | .fn (.cmp ..) => true
  | .fn (.lanesToPreds _) => true
  | _ => false
/-- The g register a pending VEXTR writes (R178). -/
def SeqEntry.gDst (e : SeqEntry) : Option Reg :=
  match e.op with
  | .fn (.extr _) => some e.d
  | _ => none
/-- A pending VEXTR writes one of these registers (R178). -/
def Grain.extrPending (g : Grain) (rs : List Res) : Bool :=
  g.seq.any fun e => match e.gDst with
    | some r => rs.contains (.g r)
    | none => false
/-- A predicate writer is pending (R104). -/
def Grain.predsPending (g : Grain) : Bool := g.seq.any SeqEntry.writesPreds

/-- The guard of an instruction holds (R77). -/
def guardHolds (g : Grain) : Option Guard → Bool
  | none => true
  | some gd => predOf g.pw gd.idx != gd.neg

/-- The PC of the next instruction: only the offset moves (R102). -/
def pcAdd (pc : Word) (n : Int) : Word :=
  (pc &&& (0xFFF#64 <<< 52)) ||| (((pc.setWidth 52) + BitVec.ofInt 52 n).setWidth 64)

/-- Instructions a VLOOP body may hold (R196). -/
def bodyOk (i : Instr) : Bool :=
  match i with
  | .vmov _ | .vadd _ | .vsub _ | .vmul _ | .vfma _ | .vmin _ | .vmax _ | .vand _ | .vor _ | .vxor _ | .vshl _ | .vshr _ | .vabs _
  | .vneg _ | .vcvt _ | .vshuf _ | .vsel _ | .vrsum _ | .vdot _ | .vqnt _ | .vrcp _ | .vrsq _ | .vsqrt _ | .vexp2 _ | .vlog2 _
  | .vsin _ | .vcos _ | .vtanh _ => true
  | .vld a => decide (10 ≤ a.a.toNat)
  | .vst a => decide (10 ≤ a.a.toNat)
  | _ => false

/-- The grain issues the body of a VLOOP in pass 1 (R195). -/
def Grain.inBody (g : Grain) : Bool := match g.vloop with
  | some v => decide (0 < v.left)
  | none => false
/-- The body issues without effect, the count being 0 (R195). -/
def Grain.voidBody (g : Grain) : Bool := match g.vloop with
  | some v => v.count == 0 && decide (0 < v.left)
  | none => false
/-- One body instruction of pass 1 has issued (R195). -/
def VLoop.issued (v : VLoop) : VLoop := { v with left := v.left - 1, place := v.place + 1 }
/-- The sequencer holds entries, the replays of a VLOOP among them (R194). -/
def Grain.seqBusy (g : Grain) : Bool := !g.seq.isEmpty

/-- The grain after its instruction has been issued: the PC past its words, every window one position on, and one body instruction
less (R39, R73, R195). -/
def Grain.issued (g : Grain) (i : Instr) : Grain :=
  { g with pc := pcAdd g.pc (2 * wordCount i), windows := g.advanceWindows,
           vloop := if g.inBody then g.vloop.map VLoop.issued else none }
/-- The state with the grain's instruction issued; after an instruction of a VLOOP's body the vector unit looks at the sequencer. -/
def State.issued (s : State) (i : Instr) : State :=
  let r := s.setGrain (s.grain.issued i)
  { r with agenda := if s.grain.inBody then (r.dueOnce (.sequencerEntryStart s.cur.core)).agenda else r.agenda }

/-- What an instruction touches: the registers it reads or writes, whether it takes one of the four long-latency places (R40), and
whether it reads or writes the predicate word (R104). -/
structure Touch where
  regs : List Res
  long : Bool
  preds : Bool
  deriving DecidableEq, Repr

/-- Registers only. -/
def Touch.of (rs : List Res) : Touch := ⟨rs, false, false⟩
/-- A long-latency instruction. -/
def Touch.longOf (rs : List Res) : Touch := ⟨rs, true, false⟩
/-- A predicate reader or writer. -/
def Touch.predsOf (rs : List Res) : Touch := ⟨rs, false, true⟩
/-- A register field as a resource; streams, zr and the PC are none. -/
def regRes (r : Reg) : List Res := if r.toNat < 10 then [.g r] else []

/-- The checks before the guard and after it (R39, R40, R104, R178, R196), as the stop they end in. DESIGN CHOICE: an instruction that R196 does
not allow in a body is refused also where the count is 0 (notes/assumptions/72.md), and LOOKAHEAD_VIOLATION comes before the checks of R79
that an instruction makes itself: privilege and the fields that its operands decide (notes/assumptions/90.md). -/
def issueStop (i : Instr) (g : Grain) (gd : Option Guard) (t : Touch) : Option Stop :=
  if g.blocked then some (.park g.blockWait [])
  else if g.inBody && !bodyOk i then some (.trap .reservedField (infoOfInstr i))
  else if g.voidBody then none
  else if (gd.isSome || t.preds) && g.predsPending then some (.park .predicates [])
  else if !guardHolds g gd then none
  else
    match g.violation (t.regs ++ (if gd.any (fun x => x.idx == 0#5) then [.p0] else [])) with
    | some (r, p) => some (.trap .lookaheadViolation (BitVec.ofNat 64 (r.code + 16 * (p % 16))))
    | none =>
      if g.extrPending t.regs then some (.park .lane [])
      else if t.long && decide (4 ≤ g.outstanding) then some (.park .fifth [])
      else none

/-- The stores of a slot that are not yet performed at cluster scope. -/
def Core.storesOf (c : Core) (slot : Fin 16) : List BufStore := c.buffer.filter fun b => b.slot == slot
/-- The buffer holds a store of the grain. -/
def State.storesPending (s : State) (l : Loc) : Bool := !((s.core l.core).storesOf l.slot).isEmpty
/-- An operation of the grain waits for its page in a fault table (R41, R277). -/
def State.opFaulted (s : State) (l : Loc) : Bool :=
  s.clusters.any fun e => (e.2.faults ++ e.2.faultWait).any fun f => f.waiters.any fun w => match w with
    | .op l' _ => l' == l
    | _ => false
/-- A store or another access of the grain waits for its page: the grain parks at its next turn (R41, R139, R278). -/
def State.pageFaulted (s : State) (l : Loc) : Bool := ((s.core l.core).storesOf l.slot).any (·.faulted) || s.opFaulted l

/-- The grain's own operation is queued or running at the array (R214). -/
def State.arrayBusy (s : State) (l : Loc) : Bool := (s.core l.core).arrayQ.any fun o => o.slot == l.slot

/-- Issues an instruction: an access that waits for its page, or an operation at the array, parks the grain first (R41, R139, R214); then the
checks, the guard, and the effect with the PC past it. The effect is given the instruction's own PC. -/
def issue (i : Instr) (gd : Option Guard) (t : Touch) (body : Word → M Unit) (s : State) : Host.Outcome State Fault Refusal :=
  if s.pageFaulted s.cur then finish s (.error (.park .pageFault []))
  else if s.arrayBusy s.cur then finish s (.error (.park .array []))
  else match issueStop i s.grain gd t with
  | some st => finish s (.error st)
  | none => if guardHolds s.grain gd && !s.grain.voidBody then finish s ((body s.grain.pc).run (s.issued i)) else .next (s.issued i)

/-- The state an event leaves: events complete at once. -/
def event (s : State) : Host.Outcome State Fault Refusal := .next s

end Sys2Proof.Machine
end

