-- ==== Sys2Proof/Machine/Operands.lean ====
section
/-! DEFINITION. Operand forms: fat pointers and segments (R28-R33),
protection (spec/07 R234), the map of a cluster (R36) and the addresses an agent's requests go to (spec/13 R322, R323, spec/22 R422). -/

namespace Sys2Proof.Machine

/-! ### Fat pointers (R28, R29) -/

/-- The format field. -/
def ptrFmt (p : Word) : Nat := (p.extractLsb' 58 6).toNat
/-- The block_log field. -/
def ptrLog (p : Word) : Nat := (p.extractLsb' 55 3).toNat
/-- The seg field. -/
def ptrSeg (p : Word) : Nat := (p.extractLsb' 52 3).toNat
/-- The offset field. -/
def ptrOff (p : Word) : Nat := (p.extractLsb' 0 52).toNat

/-- The element step of a format, or none when the format or its block_log is invalid (R29). -/
def fmtStep (fmt log : Nat) : Option Nat :=
  match qfmtOf fmt with
  | some q => if 3 ≤ log ∧ log ≤ 5 then some (blockBytes q log) else none
  | none =>
    if log ≠ 0 then none
    else match fmt with
      | 0 | 1 => some 1
      | 2 | 3 | 8 | 9 => some 2
      | 4 | 5 | 10 => some 4
      | 6 | 7 | 11 | 33 | 48 => some 8
      | 32 => some 32
      | _ => none

/-- The element step of a pointer. -/
def ptrStep (p : Word) : Option Nat := fmtStep (ptrFmt p) (ptrLog p)

/-- ADDP's step by `n` elements of `step` bytes: only the offset moves (R28, R108). -/
def stepPtr (p : Word) (n : Int) (step : Nat) : Word := pcAdd p (n * step)

/-- TRAP_INFO of FORMAT_INVALID (R237). -/
def fmtInfo (p : Word) (kind : Nat) : Word := BitVec.ofNat 64 (ptrFmt p + 64 * ptrLog p + 512 * kind)

/-- The element type of formats 0x00 to 0x0B (R24, R29). -/
def fmtEType (fmt : Nat) : Option EType := if fmt < 16 then etypeOfCode (BitVec.ofNat 4 fmt) else none

/-- Formats 0x00 to 0x0B. -/
def plainFmt (f : Nat) : Bool := decide (f ≤ 11)
/-- Formats of the LD and ST families (R128). -/
def loadFmt (f : Nat) : Bool := plainFmt f || f == 33 || f == 48
/-- Every valid format (R128). -/
def anyFmt (_ : Nat) : Bool := true
/-- The seq format only. -/
def seqFmt (f : Nat) : Bool := f == 48
/-- The node format only. -/
def nodeFmt (f : Nat) : Bool := f == 32

/-! ### The map of a cluster (R36, R263) -/

/-- What a cluster-local address lies in. -/
inductive Region where
  | array (core : Nat) (off : Nat)
  | sram (off : Nat)
  | seqArea (off : Nat)
  | hbm (off : Nat)
  | window (off : Nat)
  deriving DecidableEq, Repr

/-- Bytes of a core's scratchpad: 96 KiB less its L1 (R263). -/
def scratchSize (split : BitVec 3) : Nat := 98304 - 8192 * split.toNat

/-- The window that holds `size` bytes at a global address, none when no window does (R33 check 5, R36). -/
def windowOf (s : State) (addr size : Nat) : Option Region :=
  let gid := addr / 2 ^ 38
  let a := addr % 2 ^ 38
  if a < 0x200000 then
    let c := a / 0x20000
    let off := a % 0x20000
    if off + size ≤ scratchSize (s.core (gid * 32 + c)).l1Split then some (.array c off) else none
  else if 0x400000 ≤ a ∧ a + size ≤ 0x500000 then some (.sram (a - 0x400000))
  else if 0x800000 ≤ a ∧ a + size ≤ 0x840000 then some (.seqArea (a - 0x800000))
  else if 0x1000000000 ≤ a ∧ a + size ≤ 0x2000000000 then some (.hbm (a - 0x1000000000))
  else if 0x2000000000 ≤ a ∧ a + size ≤ 0x4000000000 then some (.window (a - 0x2000000000))
  else none

/-- Addresses of the windows that the memory port translates (R36). -/
def translated (addr : Nat) : Bool := decide (0x1000000000 ≤ addr % 2 ^ 38)
/-- Addresses of the sequence and watch area. -/
def inSeqArea (addr : Nat) : Bool := decide (0x800000 ≤ addr % 2 ^ 38 ∧ addr % 2 ^ 38 < 0x840000)

/-! ### Where a request goes (R13, R322, R323, R416, R422) -/

/-- Clusters of one replica's allotment. -/
def Launch.perReplica (l : Launch) : Nat := if l.reps.count ≤ 1 then l.allot.length else l.allot.length / max 1 l.reps.count

/-- The replica map (R322): a cluster of the named allotment becomes the one at the same place of replica `r`. -/
def replicaMap (l : Launch) (r gid : Nat) : Nat :=
  let n := l.perReplica
  match (l.allot.take n).findIdx? (· == gid) with
  | some p => l.allot.getD (r * n + p) gid
  | none => gid

/-- Whether a cluster-local address lies within a home segment of a launch (R323). -/
def inHomeSegs (l : Launch) (a : Nat) : Bool :=
  (l.segs.toList.take 4).any fun d => decide (d.w0.toNat ≤ a ∧ a < d.w0.toNat + d.limit)

/-- R323: a replica-group address named by an agent outside the launch goes to the current primary. -/
def steer (s : State) (h addr : Nat) : Nat :=
  match s.nextSteer.find? fun e =>
      let l := s.launch e.2
      e.2 != h && decide (2 ≤ l.reps.count) && (l.allot.take l.perReplica).contains (addr / 2 ^ 38) && inHomeSegs l (addr % 2 ^ 38) with
  | some e => replicaMap (s.launch e.2) (s.launch e.2).reps.primary (addr / 2 ^ 38) * 2 ^ 38 + addr % 2 ^ 38
  | none => addr

/-- R422: a node number aliased to a spare package. -/
def aliased (s : State) (node addr : Nat) : Nat :=
  match PMap.get? (addr / 2 ^ 47) (s.pkg node).aliases with
  | some n => n * 2 ^ 47 + addr % 2 ^ 47
  | none => addr

/-- A global address after the replica map and, for the kinds of request that R323 names, steering. -/
def mapped (s : State) (h r addr : Nat) (steered : Bool) : Nat :=
  let l := s.launch h
  let addr := if 2 ≤ l.reps.count then replicaMap l r (addr / 2 ^ 38) * 2 ^ 38 + addr % 2 ^ 38 else addr
  if steered then steer s h addr else addr

/-- The global address a request of launch `h`, replica `r`, from package `node` reaches. -/
def effAddr (s : State) (node h r addr : Nat) (steered : Bool) : Nat := aliased s node (mapped s h r addr steered)
/-- The cluster under whose entry a remote line is stamped: the one named, where a replica answers for it (R440). -/
def namedCluster (s : State) (node h r addr : Nat) (steered : Bool) : Nat :=
  if mapped s h r addr steered = addr then aliased s node addr / 2 ^ 38 else addr / 2 ^ 38

/-- A cluster that answers requests: it exists, its package is present and it has not failed (R13, R418). -/
def State.alive (s : State) (gid : Nat) : Bool :=
  s.present.contains (clusterNode gid) && decide (gid % 128 < 96) && !(s.pkg (clusterNode gid)).failed
    && ((s.cluster gid).status == .enabled || (s.cluster gid).status == .quarantined)

/-- The owner of an address answers: its cluster is alive, and a failed core's array is lost (R416). -/
def State.reachable (s : State) (addr : Nat) : Bool :=
  s.alive (addr / 2 ^ 38)
    && !(decide (addr % 2 ^ 38 < 0x200000) && (s.core (addr / 2 ^ 38 * 32 + addr % 2 ^ 38 / 0x20000)).status == .failed)

/-! ### Protection (R234) -/

/-- A protection entry covers an access with the rights `need`. -/
def Prot.covers (p : Prot) (ctx : BitVec 12) (addr size : Nat) (need : BitVec 3) : Bool :=
  p.valid && p.ctx == ctx && decide (p.base.toNat ≤ addr) && decide (addr + size ≤ p.base.toNat + p.limit) && (p.rights &&& need) == need

/-- A table admits an access (R234). -/
def protAdmits (t : Vector Prot 16) (ctx : BitVec 12) (addr size : Nat) (need : BitVec 3) : Bool :=
  t.toList.all (fun p => !p.valid) || t.toList.any fun p => p.covers ctx addr size need

/-- Monitor mode (R229). -/
def State.inMonitor (s : State) : Bool := (s.slotAt s.cur).st == .monitor
/-- The context an access is translated in: the prefect uses context 0 (R386). -/
def State.accCtx (s : State) : BitVec 12 := if s.inMonitor then 0#12 else s.grain.ctx

/-! ### The checks of an access (R32, R33) -/

/-- What an access needs: the formats it takes, its size as a function of the element step, its alignment as a function of its size, the
rights, whether it is a store, whether the 8-byte rule of the sequence area holds it, and whether it is a load, pull, remote watch or
SEQWAIT, which steering concerns (R33, R34, R128, R265, R323). -/
structure AccSpec where
  fmts : List Nat
  size : Nat
  align : Nat
  r : Bool
  w : Bool
  x : Bool
  store : Bool
  seqRule : Bool
  steer : Bool
  deriving DecidableEq, Repr

/-- Formats 0x00 to 0x0B. -/
def plainFmts : List Nat := List.range 12
/-- The formats of the LD and ST families (R128). -/
def loadFmts : List Nat := plainFmts ++ [33, 48]
/-- Every valid format. -/
def allFmts : List Nat := plainFmts ++ [16, 17, 18, 19, 32, 33, 48]

/-- The address an access through a pointer reaches (R32). -/
def resolve (s : State) (p : Word) : Nat :=
  let d := s.grain.seg (ptrSeg p)
  if ptrSeg p < 4 then s.here * 2 ^ 38 + (d.w0.toNat + ptrOff p) % 2 ^ 38 else (d.w0.toNat + ptrOff p) % 2 ^ 64

/-- Where offset, seg and address of the pointer stand in TRAP_INFO (R237). -/
def segInfo (p : Word) : Word := p &&& 0x007FFFFFFFFFFFFF#64
/-- The rights an access needs, for SEG_RIGHTS (R237). -/
def rightsInfo (a : AccSpec) : Word :=
  (if a.r then 1#64 <<< 55 else 0#64) ||| (if a.w then 1#64 <<< 56 else 0#64) ||| (if a.x then 1#64 <<< 57 else 0#64)
/-- The rights as a field of a protection entry. -/
def AccSpec.need (a : AccSpec) : BitVec 3 :=
  (if a.r then 1#3 else 0#3) ||| (if a.w then 2#3 else 0#3) ||| (if a.x then 4#3 else 0#3)

/-- R33: the first check an access through a formed pointer fails, or the access. The address is the one the request goes to. An empty
extent has no bounds to check (R167), and a seq pointer names no memory that is translated (R151). -/
def checkAcc (s : State) (p : Word) (a : AccSpec) : Except (Cause × Word) Acc :=
  let d := s.grain.seg (ptrSeg p)
  let addr := resolve s p
  let off := ptrOff p
  let g := s.grain
  let named := if ptrSeg p < 4 then s.here else namedCluster s (clusterNode s.here) g.launch g.replica addr a.steer
  let real := if ptrSeg p < 4 then addr else effAddr s (clusterNode s.here) g.launch g.replica addr a.steer
  if !a.fmts.contains (ptrFmt p) || (ptrStep p).isNone then .error (.formatInvalid, fmtInfo p 0)
  else if a.store && decide (4 ≤ ptrSeg p) then .error (.farStore, segInfo p)
  else if (a.r && !d.r) || (a.w && !d.w) || (a.x && !d.x) then .error (.segRights, segInfo p ||| rightsInfo a)
  else if off % a.align ≠ 0 || (a.seqRule && inSeqArea addr && a.size ≠ 8) then .error (.misaligned, segInfo p)
  else if a.size = 0 then .ok { ptr := p, addr := real, named, size := 0, ctx := s.accCtx }
  else if d.limit < off + a.size || (decide (ptrSeg p < 4) && decide (2 ^ 38 < d.w0.toNat + off + a.size))
      || (windowOf s real a.size).isNone || (ptrFmt p == 0x30 && translated real) then .error (.segBounds, segInfo p)
  else if !s.inMonitor && !protAdmits s.curCore.prot g.ctx real a.size a.need then .error (.protection, segInfo p)
  else if !s.inMonitor && !protAdmits (s.cluster (real / 2 ^ 38)).prot g.ctx real a.size a.need then
    .error (.protection, segInfo p ||| (1#64 <<< 56))
  else .ok { ptr := p, addr := real, named, size := a.size, ctx := s.accCtx }

/-- The checks of R33 as a step of a meaning. -/
def accM (p : Word) (a : AccSpec) : M Acc := do
  match checkAcc (← get) p a with
  | .ok x => pure x
  | .error (c, info) => trapM c info

/-- An access that may begin again goes to where its address leads now: the primary of a replica group can have changed (R323). -/
def Acc.now (x : Acc) (s : State) (node h r : Nat) : Acc :=
  if ptrSeg x.ptr < 4 then x else { x with addr := effAddr s node h r (x.named * 2 ^ 38 + x.addr % 2 ^ 38) true }

/-- The far address that an access names, before the replica map and steering (R322, R323). -/
def Acc.far (x : Acc) : Option Nat := if ptrSeg x.ptr < 4 then none else some (x.named * 2 ^ 38 + x.addr % 2 ^ 38)

/-- R129: the pointer in register `r` after its offset in elements; an invalid format is refused by check 1. -/
def ptrM (r : Reg) (off : List Chunk) (ok : List Nat) : M (Word × Nat) := do
  let p := (← grainM).reg r.toNat
  match ptrStep p with
  | some step => if ok.contains (ptrFmt p) then pure (stepPtr p (offsetVal off) step, step) else trapM .formatInvalid (fmtInfo p 0)
  | none => trapM .formatInvalid (fmtInfo p 0)

/-- A read of `size` bytes. -/
def readSpec (fmts : List Nat) (size align : Nat) : AccSpec :=
  { fmts, size, align, r := true, w := false, x := false, store := false, seqRule := true, steer := true }
/-- A store of `size` bytes. -/
def writeSpec (fmts : List Nat) (size align : Nat) : AccSpec :=
  { fmts, size, align, r := false, w := true, x := false, store := true, seqRule := true, steer := false }
/-- R34: an atomic or RUPD needs w only through a home segment. -/
def atomSpec (fmts : List Nat) (size : Nat) (home : Bool) : AccSpec :=
  { fmts, size, align := size, r := true, w := home, x := false, store := false, seqRule := true, steer := false }

/-! ### Stream patterns (R20, R215) -/

/-- Elements of a pattern. -/
def Stream.total (st : Stream) : Nat := st.c0 * st.c1 * st.c2
/-- The global address of element `e` as the pattern names it (R215). -/
def Stream.elemAddr (st : Stream) (e : Nat) : Nat :=
  let i0 := e % st.c0
  let i1 := e / st.c0 % st.c1
  let i2 := e / st.c0 / st.c1
  let d : Int := (i0 * st.s0 + i1 * st.s1 + i2 * st.s2) * etBytes st.fmt
  (((st.base : Int) + d) % (2 ^ 64 : Nat)).toNat
/-- The pointer that forms the access to element `e`. -/
def Stream.elemPtr (st : Stream) (e : Nat) : Word :=
  stepPtr st.ptr ((e % st.c0 : Nat) * st.s0 + (e / st.c0 % st.c1 : Nat) * st.s1 + (e / st.c0 / st.c1 : Nat) * st.s2) (etBytes st.fmt)
/-- Where the request for element `e` of a stream of the grain at a place goes (R322, R323). -/
def Stream.elemAt (st : Stream) (s : State) (l : Loc) (e : Nat) : Nat :=
  let g := s.grainAt l
  if ptrSeg st.ptr < 4 then st.elemAddr e
  else effAddr s (clusterNode (coreCluster l.core)) g.launch g.replica (st.elemAddr e) (!st.output)
/-- TRAP_INFO of STREAM_MISUSE (R237). -/
def streamInfo (n kind : Nat) : Word := BitVec.ofNat 64 (n + 4 * kind)

/-- Elements an output unit's 128-byte buffer holds (R274). -/
def Stream.room (st : Stream) : Nat := 128 / etBytes st.fmt

/-- The stream a general field names, by codes 10 to 13 (R20). -/
def streamOf (r : Reg) : Option (Fin 4) :=
  match r.toNat with
  | 10 => some 0
  | 11 => some 1
  | 12 => some 2
  | 13 => some 3
  | _ => none

end Sys2Proof.Machine
end

