-- ==== Sys2Proof/Machine/Translate.lean ====
section
/-! DEFINITION. Translation (spec/19_contexts_translation_preemption.md R377, R378), physical places, and reading and writing at the
owner (spec/09 R265-R268, R272, R273, spec/10 R279). -/

namespace Sys2Proof.Machine

/-! ### Physical places (notes/assumptions/7.md) -/

/-- A place by space. -/
def spaceKey (sp : Space) (gid a : Nat) : Nat :=
  match sp with
  | .hbm => hbmKey gid a
  | .cxl => cxlKey (clusterNode gid) a
  | .host => hostKey (clusterNode gid) a
/-- Places outside the package's own memories. -/
def isOutside (key : Nat) : Bool := decide (2 ^ 64 ≤ key)

/-- Bytes as the owner cluster holds them: lines of windows not yet written back stand before the outside memory (R279, R407). -/
def ownerByte (s : State) (gid key : Nat) : Byte :=
  if isOutside key then (PMap.get? key (s.cluster gid).overlay).getD (s.mem.read key) else s.mem.read key

/-! ### The tree (R377) -/

/-- The levels: the shift of the page a leaf maps and the width of the index. -/
def treeLevels : List (Nat × Nat) := [(29, 9), (26, 3), (21, 5), (16, 5), (12, 4)]

/-- The target of an entry. -/
def spaceOf (e : Nat) : Option Space :=
  match e / 4 % 4 with
  | 0 => some .hbm
  | 1 => some .cxl
  | 2 => some .host
  | _ => none
/-- The physical address of an entry. -/
def entryPhys (e : Nat) : Nat := e / 4096 % 2 ^ 40 * 4096
/-- The fields that are zero. -/
def entryZeros (e : Nat) : Bool := e / 16 % 256 == 0 && e / 2 ^ 52 == 0
/-- Whether `n` bytes at a physical address lie in its space. -/
def inSpace (sp : Space) (a n : Nat) : Bool :=
  match sp with
  | .hbm => decide (a + n ≤ 2 ^ 31)
  | .cxl => decide (a + n ≤ 2 ^ 42)
  | .host => true

/-- Reads an entry of 8 bytes at a place. -/
def readEntry (s : State) (gid key : Nat) : Nat := leNat ((List.range 8).map fun i => ownerByte s gid (key + i))
/-- Why an owner read of an entry fails, as the reason `walk` gives it: 2, its owner is lost; 3, its line is poisoned (R285, R378). DEDUCED:
the access then ends as a read of that line would (notes/assumptions/99.md). -/
def walkUnread (s : State) (gid key : Nat) : Option Nat :=
  if !s.reachable (if isOutside key then gid * 2 ^ 38 else key) then some 2
  else if s.poison.contains (key / 32) then some 3
  else none

/-- A well-formed leaf for a page of `2^shift` bytes. -/
def leafOk (e shift : Nat) : Bool :=
  match spaceOf e with
  | some sp => entryZeros e && e / 2 % 2 == 1 && entryPhys e % 2 ^ shift == 0 && inSpace sp (entryPhys e) (2 ^ shift)
  | none => false

/-- Walks the tables from one at `key`. Reasons are those of a fault record: 0 invalid, 1 malformed (R379), and those of a table that cannot be
read. With the entry comes the place of the leaf. -/
def walkFrom (s : State) (ctx : BitVec 12) (gid va : Nat) : List (Nat × Nat) → Nat → Except Nat (TlbEntry × Nat)
  | [], _ => .error 1
  | (shift, bits) :: rest, key =>
    let place := key + 8 * (va / 2 ^ shift % 2 ^ bits)
    let e := readEntry s gid place
    match walkUnread s gid place with
    | some n => .error n
    | none =>
    if e % 2 = 0 then .error 0
    else if e / 2 % 2 = 1 then
      if leafOk e shift then
        .ok ({ ctx, cl := gid, base := va / 2 ^ shift * 2 ^ shift, size := 2 ^ shift, space := (spaceOf e).getD .hbm,
               phys := entryPhys e }, place)
      else .error 1
    else match spaceOf e with
      | none => .error 1
      | some sp =>
        match rest with
        | [] => .error 1
        | (_, b) :: _ =>
          if entryZeros e && inSpace sp (entryPhys e) (8 * 2 ^ b) then walkFrom s ctx gid va rest (spaceKey sp gid (entryPhys e))
          else .error 1

/-- The walk of a cluster's tree of a context (R377); a context that is not live has no mapping (R375). -/
def walk (s : State) (ctx : BitVec 12) (gid va : Nat) : Except Nat (TlbEntry × Nat) :=
  match PMap.get? ctx.toNat (s.pkg (clusterNode gid)).ctxs with
  | none => .error 0
  | some c =>
    if c.st = .free ∨ c.st = .error then .error 0
    else
      let dir := c.dirBase.toNat + 8 * (gid / 128 % 4 * 96 + gid % 128)
      let e := readEntry s (dir / 2 ^ 38) dir
      match walkUnread s (dir / 2 ^ 38) dir with
      | some n => .error n
      | none =>
      if e % 2 = 0 then .error 0
      else match spaceOf e with
        | none => .error 1
        | some sp =>
          if entryZeros e && e / 2 % 2 == 0 && inSpace sp (entryPhys e) 4096 then
            walkFrom s ctx gid va treeLevels (spaceKey sp gid (entryPhys e))
          else .error 1

/-! ### TLBs (R378) -/

/-- An entry maps an address of a context. -/
def TlbEntry.maps (e : TlbEntry) (ctx : BitVec 12) (gid va : Nat) : Bool :=
  e.ctx == ctx && e.cl == gid && decide (e.base ≤ va) && decide (va < e.base + e.size)
/-- The place of an address under an entry. -/
def TlbEntry.place (e : TlbEntry) (va : Nat) : Nat := spaceKey e.space e.cl (e.phys + (va - e.base))

/-- Looks an address up in the cluster TLB, then in the die's. -/
def tlbLookup (s : State) (ctx : BitVec 12) (gid va : Nat) : Option TlbEntry :=
  match (s.cluster gid).tlb.find? fun e => e.maps ctx gid va with
  | some e => some e
  | none => (s.die (clusterDie gid)).tlb.find? fun e => e.maps ctx gid va

/-- An entry becomes the most recently used of its cluster's 512; the least recently used one leaves (R378). -/
def tlbUse (s : State) (e : TlbEntry) : State :=
  let c := s.cluster e.cl
  s.setCluster e.cl { c with tlb := (e :: c.tlb.filter fun x => x != e).take 512 }
/-- The set of an entry in the last-level TLB (R378; notes/assumptions/74.md). -/
def TlbEntry.set (e : TlbEntry) : Nat := Config.tlbSet e.ctx.toNat e.cl e.base % 512
/-- An entry becomes the most recently used of its set's 8 ways in the die's last-level TLB (R378). -/
def dieTlbUse (s : State) (e : TlbEntry) : State :=
  let d := s.die (clusterDie e.cl)
  let rest := d.tlb.filter fun x => x != e
  let ways := rest.filter fun x => x.set == e.set
  s.setDie (clusterDie e.cl) { d with tlb := e :: rest.filter fun x => !(ways.drop 7).contains x }
/-- Puts an entry into both TLBs (R378). -/
def tlbFill (s : State) (e : TlbEntry) : State := dieTlbUse (tlbUse s e) e
/-- What a lookup of one address leaves in the TLBs (R378): a hit is the most recently used entry, and one in the die's TLB fills the
cluster's. -/
def tlbTouchAt (s : State) (ctx : BitVec 12) (addr : Nat) : State :=
  let gid := addr / 2 ^ 38
  let va := addr % 2 ^ 38
  if !translated addr then s
  else match (s.cluster gid).tlb.find? fun e => e.maps ctx gid va with
    | some e => tlbUse s e
    | none => match (s.die (clusterDie gid)).tlb.find? fun e => e.maps ctx gid va with
      | some e => tlbFill s e
      | none => s

/-- What the lookups of an access leave in the TLBs, page by page. -/
def tlbTouch (s : State) (ctx : BitVec 12) (addr n : Nat) : State :=
  (List.range ((addr + n - 1) / 4096 + 1 - addr / 4096)).foldl (fun s i => tlbTouchAt s ctx (if i = 0 then addr else (addr / 4096 + i) * 4096)) s

/-- Why an address has no place now; `unread` is a table of its walk that no owner read gives (R378). -/
inductive NoPlace where
  | unread (c : Cause)
  | miss (gid va : Nat)
  | held (gid va : Nat)
  | fault (gid va : Nat)
  | refused (gid va : Nat)
  deriving DecidableEq, Repr

/-- A context is live at the package of a cluster (R375). -/
def ctxLive (s : State) (gid : Nat) (ctx : BitVec 12) : Bool :=
  match PMap.get? ctx.toNat (s.pkg (clusterNode gid)).ctxs with
  | some c => c.st == .live || c.st == .busy
  | none => false

/-- The entries of the page of an address in the cluster's fault table, or on their way into it (R277). -/
def pageEntries (s : State) (ctx : BitVec 12) (gid va : Nat) : List FaultEntry :=
  ((s.cluster gid).faults ++ (s.cluster gid).faultWait).filter fun e => e.ctx == ctx && e.page == va / 4096
/-- The page of an address is recorded, and requests wait for it or its page service has it (R277). -/
def pageRecorded (s : State) (ctx : BitVec 12) (gid va : Nat) : Bool := (pageEntries s ctx gid va).any fun e => !e.idle

/-- The place of one byte of a cluster for a context: untranslated windows stand for themselves (R265); context 0 maps the HBM window
onto the channel (R374), and a context that is not live has no mapping (R375); the rest goes through the TLBs. A page in the final
pass of a migration holds accesses (R380). -/
def placeOf (s : State) (ctx : BitVec 12) (addr : Nat) : Except NoPlace Nat :=
  let gid := addr / 2 ^ 38
  let va := addr % 2 ^ 38
  if !translated addr then .ok addr
  else if ctx = 0#12 then
    if va < 0x1080000000 then .ok addr else .error (.refused gid va)
  else if !ctxLive s gid ctx then .error (.refused gid va)
  else
    let held := match (s.cluster gid).move with
      | some m => m.final && m.ctx == ctx && decide (m.va ≤ va) && decide (va < m.va + m.size)
      | none => false
    if held then .error (.held gid va)
    else match tlbLookup s ctx gid va with
      | some e => .ok (e.place va)
      | none =>
        if pageRecorded s ctx gid va then .error (.fault gid va)
        else match walk s ctx gid va with
          | .error 2 => .error (.unread .peerLost)
          | .error 3 => .error (.unread .uncorrectable)
          | .error _ => if (pageEntries s ctx gid va).isEmpty then .error (.miss gid va) else .error (.fault gid va)
          | _ => .error (.miss gid va)

/-- The places of `n` bytes. -/
def placesOf (s : State) (ctx : BitVec 12) (addr : Nat) : Nat → Except NoPlace (List Nat)
  | 0 => .ok []
  | n + 1 => do
    let a ← placeOf s ctx addr
    let rest ← placesOf s ctx (addr + 1) n
    pure (a :: rest)

/-! ### Reading and writing at the owner -/

/-- A read at the owner. -/
inductive OwnerRead where
  | value (bs : List Byte)
  | lost
  | poisoned
  | noPlace (p : NoPlace)
  deriving DecidableEq, Repr

/-- What a read at the owner says of an access without a place. -/
def NoPlace.read : NoPlace → OwnerRead
  | .unread .peerLost => .lost
  | .unread _ => .poisoned
  | p => .noPlace p

/-- Reads `n` bytes at their owner (R285). -/
def readOwner (s : State) (ctx : BitVec 12) (addr n : Nat) : OwnerRead :=
  if !s.reachable addr then .lost
  else match placesOf s ctx addr n with
    | .error p => p.read
    | .ok ks =>
      if ks.any fun k => s.poison.contains (k / 32) then .poisoned
      else .value (ks.map (ownerByte s (addr / 2 ^ 38)))

/-- Writes one byte at its place. -/
def writePlace (s : State) (gid key : Nat) (b : Byte) : State :=
  if isOutside key then
    let c := s.cluster gid
    s.setCluster gid { c with overlay := PMap.set key b c.overlay }
  else { s with mem := s.mem.write key b }

/-- Writes bytes at their places. -/
def writePlaces (s : State) (gid : Nat) : List (Nat × Byte) → State
  | [] => s
  | (k, b) :: r => writePlaces (writePlace s gid k b) gid r

/-- Lines that a list of places covers wholly (R268). -/
def wholeLines (ks : List Nat) : List Nat :=
  ((ks.map (· / 32)).dedup).filter fun l => decide (32 ≤ (ks.filter fun k => k / 32 == l).dedup.length)

/-- The 8-byte word at an address of a cluster's untranslated windows (R151). -/
def seqValue (s : State) (addr : Nat) : Word := BitVec.ofNat 64 (leNat ((List.range 8).map fun i => s.mem.read (addr + i)))

/-- Ranges meet. -/
def overlaps (a n b m : Nat) : Bool := decide (a < b + m) && decide (b < a + n)

/-- An armed watch of a written word fires when the word has reached its threshold (R153). -/
def fireWatch (s : State) (a n : Nat) (w : Watch) : Watch :=
  if w.armed && overlaps w.addr 8 a n && decide (w.thr.toNat ≤ (seqValue s w.addr).toNat) then { w with fired := true } else w
/-- The watches of a grain after a write. -/
def fireWatches (s : State) (a n : Nat) (g : Grain) : Grain := { g with watches := g.watches.map (fireWatch s a n) }

/-- The wakes one slot gets from a write: armed watches of the word fire at their thresholds, and the grain looks again (R153, R272). -/
def wakeWatches (s : State) (a n : Nat) (l : Loc) : State :=
  let g := s.grainAt l
  if g.watches.toList.any (fun w => w.armed && overlaps w.addr 8 a n) then
    let s := s.setGrainAt l (fireWatches s a n g)
    (g.pend.foldl (fun s p => if p.kind.isWait then s.dueOnce (.longLatencyResult l p.id) else s) s).wake l
  else s

/-- The wakes of spilled grains: recorded in their slates (R153, R253). -/
def wakeSlates (s : State) (gid a n : Nat) : State :=
  let c := s.cluster gid
  s.setCluster gid { c with slates := c.slates.map fun e => (e.1, { e.2 with grain := fireWatches s a n e.2.grain }) }

/-- Remote watch entries that a write satisfies are freed and their waiters sent a wake (R273). -/
def wakeRemote (s : State) (gid addr n : Nat) : State :=
  let c := s.cluster gid
  let hit := fun (e : RemoteWatch) => overlaps e.addr 8 addr n && decide (e.thr.toNat ≤ (seqValue s e.addr).toNat)
  let s' := s.setCluster gid { c with watchTab := c.watchTab.filter fun e => !hit e }
  s'.due ((c.watchTab.filter hit).map fun e => .remoteWatchWake e.waiter e.reg (seqValue s e.addr))

/-- The slots of a cluster. -/
def clusterLocs (s : State) (gid : Nat) : List Loc := s.allLocs.filter fun l => coreCluster l.core == gid

/-- Sets the watch bit of a word of a cluster (R272). -/
def setWatchBit (s : State) (addr : Nat) : State :=
  let c := s.cluster (addr / 2 ^ 38)
  s.setCluster (addr / 2 ^ 38) { c with watchBits := if c.watchBits.contains addr then c.watchBits else c.watchBits ++ [addr] }
/-- Some local watch register of a cluster, or of a grain spilled there, matches a word (R272, R253). -/
def watchHeld (s : State) (gid w : Nat) : Bool :=
  let on := fun (g : Grain) => g.watches.toList.any fun x => x.armed && x.addr == w
  (clusterLocs s gid).any (fun l => on (s.grainAt l)) || (s.cluster gid).slates.any fun e => on e.2.grain
/-- The broadcast of a write to a word whose watch bit is set (R272): the registers that match wake their grains, and a bit that no
register matches is cleared. -/
def watchBus (s : State) (gid addr n : Nat) : State :=
  if (s.cluster gid).watchBits.any fun w => overlaps w 8 addr n then
    let s := wakeSlates ((clusterLocs s gid).foldl (fun s l => wakeWatches s addr n l) s) gid addr n
    let c := s.cluster gid
    s.setCluster gid { c with watchBits := c.watchBits.filter fun w => !overlaps w 8 addr n || watchHeld s gid w }
  else s

/-- What follows a write at the owner: local and remote watches, the record of a page being moved (R272, R273, R380). -/
def afterWrite (s : State) (addr n : Nat) : State :=
  let gid := addr / 2 ^ 38
  let s := wakeRemote (watchBus s gid addr n) gid addr n
  let c := s.cluster gid
  match c.move with
  | some m =>
    if overlaps m.va m.size (addr % 2 ^ 38) n then
      let lo := (addr % 2 ^ 38 - m.va) / 4096
      let hi := (addr % 2 ^ 38 + n - 1 - m.va) / 4096
      let new := ((List.range (hi + 1 - lo)).map (lo + ·)).filter fun i => decide (4096 * i < m.size)
      s.setCluster gid { c with move := some { m with dirty := (new ++ m.dirty).dedup } }
    else s
  | none => s

/-- Writes bytes at their owner: memory, poison that is wholly overwritten, and the wakes; a lost owner takes none (R416). -/
def writeOwner (s : State) (ctx : BitVec 12) (addr : Nat) (bs : List Byte) : Except NoPlace State :=
  if !s.reachable addr then .error (.unread .peerLost)
  else match placesOf s ctx addr bs.length with
  | .error p => .error p
  | .ok ks =>
    let s := writePlaces (tlbTouch s ctx addr bs.length) (addr / 2 ^ 38) (ks.zip bs)
    let whole := wholeLines ks
    .ok (afterWrite { s with poison := s.poison.filter fun l => !whole.contains l } addr bs.length)

end Sys2Proof.Machine
end

