-- ==== Sys2Proof/Machine/Paging.lean ====
section
/-! DEFINITION. Page faults (spec/09_memory_within_a_kernel.md R277, R278, spec/19_contexts_translation_preemption.md R375, R379): the
fault table of a cluster, the records of the context's ring, and waking or failing the requests of an entry. -/

namespace Sys2Proof.Machine

/-- A free index of the 32-entry fault table. -/
def freeFaultIdx (c : Cluster) : Option Nat := (List.range 32).find? fun i => c.faults.all fun e => e.idx != i

/-- Records a page fault; while all 32 entries are in use the request waits unrecorded (R277). The page is passed on with the first
request, which knows its kind of access; an entry that no request came back to gives way when the table is full. -/
def recordFault (s : State) (gid : Nat) (ctx : BitVec 12) (va access reason : Nat) (ws : List PageWaiter) : State :=
  let c := s.cluster gid
  let c := if (freeFaultIdx c).isSome then c else { c with faults := c.faults.filter fun e => !e.idle }
  match freeFaultIdx c with
  | some i =>
    let e : FaultEntry := { idx := i, ctx, page := va / 4096, addr := va, access, reason, passed := false, recorded := false, waiters := ws }
    let s := s.setCluster gid { c with faults := c.faults ++ [e] }
    if ws.isEmpty then s else serveRecord s gid e
  | none =>
    let e : FaultEntry := { idx := 32, ctx, page := va / 4096, addr := va, access, reason, passed := false, recorded := false, waiters := ws }
    s.setCluster gid { c with faultWait := c.faultWait ++ [e] }

/-- Takes a waiting fault into an entry that has become free. -/
def admitWaiting (s : State) (gid : Nat) : State :=
  let c := s.cluster gid
  match c.faultWait with
  | [] => s
  | e :: rest => recordFault (s.setCluster gid { c with faultWait := rest }) gid e.ctx e.addr e.access e.reason e.waiters

/-- A fault found at an instruction that has already issued: the grain stops at that instruction (R39). -/
def State.faultAt (s : State) (l : Loc) (pc : Word) (c : Cause) (info : Word) : State :=
  (s.setGrainAt l { s.grainAt l with pc := pc }).raiseAt l c info false

/-- A command that fails: it is done, its word does not advance, and its launch ends (R171). -/
def failCmd (s : State) (gid : Nat) (x : Cmd) (c : Cause) (info : Word) (kind : Nat) : State :=
  let q := s.cluster gid
  (s.setCluster gid { q with cmds := q.cmds.map fun y => if y.id == x.id then { y with st := .done, failed := true, buf := [] } else y }).raiseLaunch
    (clusterNode gid) x.launch c info (packed x.issuer) x.rank (some kind) x.block

/-- Wakes one request of a served page, or fails it (R277). -/
def answerWaiter (s : State) (gid : Nat) (ctx : BitVec 12) (va : Nat) (refuse : Bool) (w : PageWaiter) : State :=
  let addr := BitVec.ofNat 64 (gid * 2 ^ 38 + va)
  match w with
  | .grain l info => if refuse then (s.toCall l).raiseAt l .segBounds info false else s.wakeFrom .pageFault l
  | .op l id =>
    if refuse then
      match (s.grainAt l).pend.find? fun p => p.id == id with
      | some p =>
        let info := match p.kind with
          | .load a .. | .ldrec a _ | .seqwait a .. | .seqadd a _ | .clean a | .mldc a _ | .wbld a _ => segInfo a.ptr
          | .atomic r .. => segInfo r.acc.ptr
          | _ => 0#64
        s.faultAt l p.pc .segBounds info
      | none => s
    else (s.wakeFrom .pageFault l).dueOnce (.longLatencyResult l id)
  | .store l =>
    let c := s.core l.core
    if refuse then
      match c.buffer.find? fun b => b.slot == l.slot && b.faulted with
      | some b =>
        let s := s.setCore l.core { c with buffer := c.buffer.filter fun x => x.id != b.id }
        s.faultAt l b.pc .segBounds (segInfo b.ptr)
      | none => s
    else
      let s := s.setCore l.core
        { c with buffer := c.buffer.map fun b => if b.slot == l.slot then { b with faulted := false } else b }
      (s.wakeFrom .pageFault l).dueOnce (.storePerformed l)
  | .command cl id src =>
    if refuse then
      ((s.cluster cl).cmds.filter fun x => x.st == .running && (x.id == id || (src && x.merged == some id))).foldl
        (fun s x => failCmd s cl x .segBounds addr (if src then 3 else 5)) (s.dueOnce (.copyCommandStart cl))
    else s.dueOnce (.copyCommandComplete cl id)
  | .stream l n =>
    if refuse then
      let g := s.grainAt l
      let st := g.streams[n]
      if !st.bound then s
      else if st.output then s.raiseLaunch (clusterNode gid) g.launch .segBounds addr (packed l) g.rank (some 4) 0
      else
        let st := { st with fetched := st.fetched ++ [.failed .segBounds (segInfo (st.elemPtr st.walked)).toNat], walked := st.walked + 1 }
        (s.setGrainAt l { g with streams := g.streams.set n st }).wakeIf Wait.onStream l
    else
      s.dueOnce (if (s.grainAt l).streams[n].output then .outputStreamLineWrite l n else .inputStreamFetch l n)
  | .updates cl =>
    let c := s.cluster cl
    let s := match c.updates with
      | u :: rest =>
        if refuse && u.req.acc.addr / 4096 == (gid * 2 ^ 38 + va) / 4096 && u.req.acc.ctx == ctx then
          (s.setCluster cl { c with updates := rest }).raiseLaunch (clusterNode cl) u.req.launch .segBounds addr (packed u.from_) u.rank
            (some 0) 0
        else s
      | [] => s
    s.dueOnce (.remoteUpdateApply cl)
  | .farFree cl =>
    let c := s.cluster cl
    let s := match c.farFrees with
      | f :: rest =>
        if refuse && f.addr / 4096 == (gid * 2 ^ 38 + va) / 4096 && (s.launch f.launch).ctx == ctx then
          (s.setCluster cl { c with farFrees := rest }).raiseLaunch (clusterNode cl) f.launch .segBounds addr f.where_ f.rank (some 2) 0
        else s
      | [] => s
    s.dueOnce (.remoteUpdateApply cl)
  | .retire cl h =>
    let c := s.cluster cl
    match PMap.get? h c.nets with
    | none => s
    | some n =>
      if refuse then
        (s.setCluster cl { c with nets := PMap.set h { n with retire := n.retire.drop 1 } c.nets }).raiseLaunch (clusterNode cl) h .segBounds
          addr (packed ⟨cl * 32, 0⟩) 0#64 none 0
      else s.dueOnce (.epochAdopt cl h n.epoch)
  | .weight l w =>
    if refuse then
      let c := s.core l.core
      let x := c.wslots[w]
      x.reload.foldl (fun s i => s.wakeFrom .array ⟨l.core, i⟩)
        ((s.setCore l.core { c with wslots := c.wslots.set w x.reloadFailed }).wakeFrom .pageFault l)
    else s.wakeFrom .pageFault l
  | .checkpoint node ctx =>
    let p := s.pkg node
    let x := (PMap.get? ctx.toNat p.cks).getD Checkpoint.reset
    if refuse then s.setPkg node { p with cks := PMap.set ctx.toNat { x with st := .idle, reason := 5 } p.cks }
    else s.dueOnce (if x.lastCmd == 2#2 then .checkpointRestore node ctx else if x.st == .idle then .checkpointTake node ctx
      else .checkpointComplete node ctx x.stopUs)
  | .net h _ =>
    let l := s.launch h
    let s := if refuse then s.setLaunch h { l with refused := l.refused ++ [(gid * 2 ^ 38 + va) / 4096] } else s
    s.dueOnce (if l.st == .ended then .completionWrite h else .launchPlace h)

/-- Answers every request of an entry, in the order in which they faulted, and frees the entry. -/
def closeFault (s : State) (gid : Nat) (e : FaultEntry) (refuse : Bool) : State :=
  let c := s.cluster gid
  let s := s.setCluster gid { c with faults := c.faults.filter fun x => x.idx != e.idx }
  let s := e.waiters.foldl (fun s w => answerWaiter s gid e.ctx e.addr refuse w) s
  admitWaiting s gid

/-- What a request of an instruction does while its address has no place: it parks, waits for the page, or fails as outside its window. -/
def noPlaceM {α : Type} (ctx : BitVec 12) (p : NoPlace) (info : Word) (access : Nat) : M α :=
  match p with
  | .miss gid va => parkOn .walk [.tlbWalkComplete gid ctx (BitVec.ofNat 38 va)]
  | .held _ _ => parkM .walk
  | .refused _ _ => trapM .segBounds info
  | .unread c => trapM c info
  | .fault gid va => throw (Stop.page gid ctx va info access)

/-- What a request that is no instruction does while its address has no place: its event is due again, or it waits for the page. The
caller handles a refusal. -/
def noPlaceDue (s : State) (ctx : BitVec 12) (p : NoPlace) (w : PageWaiter) (access : Nat) (again : Event) : State :=
  match p with
  | .miss gid va => (s.dueOnce (.tlbWalkComplete gid ctx (BitVec.ofNat 38 va))).dueOnce again
  | .held _ _ => s.dueOnce again
  | .fault gid va => addWaiter s gid ctx va w access
  | .refused _ _ => s
  | .unread _ => s

end Sys2Proof.Machine
end

