-- ==== Sys2Proof/Machine/Coherence.lean ====
section
/-! DEFINITION. Placement, store signatures (spec/13_replicas_and_determinism.md R324, R325), the conflict detector (R335, R336), the L1
and the source table (spec/09 R266-R271, spec/05 R133), serving loads (spec/10 R285), the store buffer (spec/05 R131, R139) and the waits
of releases (spec/10 R281). -/

namespace Sys2Proof.Machine

/-! ### Placement of ranks (R240-R242) -/

/-- Layers per core (R241 step 1); the cap E·k ≤ 16·k holds of every E in range. -/
def Launch.layers (l : Launch) : Nat := l.perCore / max 1 l.grains
/-- Strips a replica needs. -/
def Launch.strips (l : Launch) : Nat := (l.fields + l.layers - 1) / max 1 l.layers
/-- Launch-time grains (R240). -/
def Launch.total (l : Launch) : Nat := l.fields * l.stages * l.ears * l.grains
/-- The sheaf, stage, ear and grain index of a rank (R240). -/
def Launch.indices (l : Launch) (rank : Nat) : Nat × Nat × Nat × Nat :=
  let i := rank % max 1 l.grains
  let e := rank / max 1 l.grains % max 1 l.ears
  let s := rank / max 1 (l.grains * l.ears) % max 1 l.stages
  let f := rank / max 1 (l.grains * l.ears * l.stages)
  (f, s, e, i)
/-- The core of a rank in replica `r` (R241). -/
def Launch.coreOf (l : Launch) (r rank : Nat) : Nat :=
  let (f, s, e, _) := l.indices rank
  l.allot.getD (r * l.perReplica + f / max 1 l.layers * l.stages + s) 0 * 32 + e
/-- The ranks placed on a core of replica `r`, in rank order (R242). -/
def Launch.ranksOn (l : Launch) (r core : Nat) : List Nat := (List.range l.total).filter fun k => l.coreOf r k == core
/-- The slot a rank is given, when it is among the first 16 of its core (R242). -/
def Launch.slotOf (l : Launch) (r rank : Nat) : Nat := ((l.ranksOn r (l.coreOf r rank)).findIdx? (· == rank)).getD 0

/-- The unit of a core at a scope (R280). -/
def scopeUnit (sc : Scope) (core : Nat) : Nat :=
  match sc with
  | .core => core
  | .cluster => core / 32
  | .die => core / 32 / 128
  | .package => core / 32 / 512
  | .system => 0
/-- Scopes, narrowest first. -/
def scopesUp : List Scope := [.core, .cluster, .die, .package, .system]
/-- The place of a scope in that order; it is also its code (R87). -/
def scopeNum : Scope → Fin 5
  | .core => 0 | .cluster => 1 | .die => 2 | .package => 3 | .system => 4

/-! ### Store signatures (R324, R325) -/

/-- One bit of CRC-64/ECMA-182. -/
def crcBit (c : Word) : Word := if c.getLsbD 63 then (c <<< 1) ^^^ 0x42F0E1EBA9EA3693#64 else c <<< 1
/-- One byte, most significant bit first. -/
def crcByte (c : Word) (b : Byte) : Word :=
  let c := c ^^^ (b.setWidth 64 <<< 56)
  crcBit (crcBit (crcBit (crcBit (crcBit (crcBit (crcBit (crcBit c)))))))
/-- CRC-64 continued over bytes. -/
def crc64 (c : Word) (bs : List Byte) : Word := bs.foldl crcByte c

/-- A record fed to a signature: offset, class and size, data (R324, R325). -/
def sigRecord (c : Word) (off cls : Nat) (data : List Byte) : Word :=
  crc64 c (leBytes 8 off ++ leBytes 2 (data.length % 2048 + 2048 * cls) ++ data)

/-- Clusters of replica `r`'s own allotment. -/
def Launch.ownClusters (l : Launch) (r : Nat) : List Nat := (l.allot.drop (r * l.perReplica)).take l.perReplica
/-- The replica-relative offset of an address, or the address itself outside the replica's clusters (R324). -/
def sigOffset (l : Launch) (r addr : Nat) : Nat :=
  match (l.ownClusters r).findIdx? (· == addr / 2 ^ 38) with
  | some p => p * 2 ^ 38 + addr % 2 ^ 38
  | none => addr
/-- Adds a record to the running signature of the grain whose turn it is. -/
def signM (addr cls : Nat) (data : List Byte) : M Unit := do
  let s ← get
  let g := s.grain
  onGrain fun g' => { g' with sig := sigRecord g'.sig (sigOffset (s.launch g.launch) g.replica addr) cls data }

/-! ### The conflict detector (R334-R336) -/

/-- Two accesses of replica `r` are separated by a barrier (R335). -/
def separated (l : Launch) (r : Nat) (x : DetAccess) (rank : Word) (epochs : List Nat) : Bool :=
  let a := l.coreOf r x.rank.toNat
  let b := l.coreOf r rank.toNat
  (scopesUp.filter fun sc => scopeUnit sc a == scopeUnit sc b).any fun t =>
    decide (x.epochs.getD (scopeNum t).val 0 < epochs.getD (scopeNum t).val 0)

/-- The record of a line after a report without conflict (R336): an access that is renewed is the newest one. -/
def detUpdate (accs : List DetAccess) (x : DetAccess) : List DetAccess :=
  let own := accs.find? fun a => a.rank == x.rank
  let accs : List DetAccess := match own with
    | some a => if x.store || !a.store then accs.filter (fun b => b.rank != x.rank) ++ [x] else accs
    | none => accs ++ [x]
  if 4 < accs.length then accs.drop 1 else accs

/-- A report of one line to its owner's detector (R336), of an access of the instruction at `pc`. A conflict ends the launch. -/
def detReport (s : State) (h : Nat) (x : DetAccess) (l : Loc) (pc : Word) (line : Nat) : State :=
  let gid := line * 32 / 2 ^ 38
  let c := s.cluster gid
  let old := (c.detector.find? fun d => d.launch == h && d.line == line).map (·.accs) |>.getD []
  match old.find? fun a => a.rank != x.rank && (x.store || a.store) && !separated (s.launch h) (s.grainAt l).replica a x.rank x.epochs with
  | some a => s.raiseLaunchAt (clusterNode gid) h pc .detConflict (x.rank.setWidth 32 ++ a.rank.setWidth 32) (packed l)
  | none =>
    let d : DetLine := { launch := h, line, accs := detUpdate old x }
    let rest := c.detector.filter fun y => !(y.launch == h && y.line == line)
    let rest := if 16384 ≤ rest.length then rest.drop 1 else rest
    s.setCluster gid { c with detector := rest ++ [d] }

/-- Reports an access of a grain to the detector in a deterministic launch (R334). -/
def detAccess (s : State) (l : Loc) (pc : Word) (addr n : Nat) (store : Bool) : State :=
  let g := s.grainAt l
  if !(s.launch g.launch).detMode || n == 0 then s
  else
    let x : DetAccess := { rank := g.rank, store, epochs := g.epochs.toList }
    (List.range ((addr + n - 1) / 32 + 1 - addr / 32)).foldl (fun s i => detReport s g.launch x l pc (addr / 32 + i)) s

/-! ### Engine ownership (R276, R290) -/

/-- The destination bytes of a command: rows packed at a stride of whole granules (R166). -/
def Cmd.rowStride (x : Cmd) : Nat := (x.len + 31) / 32 * 32
/-- Granules of a command. -/
def Cmd.granules (x : Cmd) : Nat := x.rows * ((x.len + 31) / 32)
/-- The destination line of granule `i`. -/
def Cmd.dstOf (x : Cmd) (i : Nat) : Nat := x.dst + 32 * i
/-- A command still owns a line: it has been issued, and the granule has not been written. -/
def Cmd.owns (x : Cmd) (line : Nat) : Bool :=
  (x.st == .waiting || x.st == .queued || x.st == .running) &&
    decide (x.dst / 32 ≤ line) && decide (line < x.dst / 32 + x.granules) && decide (x.granules - x.left ≤ line - x.dst / 32)
/-- The physical line that a line of an address space holds, when it is mapped. -/
def lineKey (s : State) (ctx : BitVec 12) (line : Nat) : Option Nat :=
  match placeOf s ctx (line * 32) with
  | .ok k => some (k / 32)
  | .error _ => none
/-- Two names of a line of one cluster, each of a context, mean one line of memory: by its place, or by its name where it has none yet. -/
def sameLine (s : State) (c : BitVec 12) (a : Nat) (d : BitVec 12) (b : Nat) : Bool :=
  if !translated (32 * a) || !translated (32 * b) then a == b
  else match lineKey s c a, lineKey s d b with
    | some x, some y => x == y
    | _, _ => c == d && a == b
/-- A command still owns a line of memory, whichever context names it (R276). -/
def Cmd.holds (s : State) (x : Cmd) (ctx : BitVec 12) (line : Nat) : Bool :=
  if !translated (32 * line) then x.owns line
  else (x.st == .waiting || x.st == .queued || x.st == .running) &&
    (List.range x.left).any fun i => sameLine s x.ctx (x.dst / 32 + (x.granules - x.left) + i) ctx line
/-- Some command of the owner's engine owns a line of an access. -/
def engineHolds (s : State) (ctx : BitVec 12) (addr n : Nat) : Bool :=
  (s.cluster (addr / 2 ^ 38)).cmds.any fun x =>
    (List.range ((addr + n - 1) / 32 + 1 - addr / 32)).any fun i => x.holds s ctx (addr / 32 + i)

/-! ### The source table and remote lines (R133, R270, R271) -/

/-- The entry of an owner. -/
def srcFind (c : Core) (owner : Nat) : Option (Fin 16) := (List.finRange 16).find? fun i => c.srcTab[i].owner == some owner
/-- The entry to reassign: an empty one, else the least recently used. -/
def srcVictim (c : Core) : Fin 16 :=
  match (List.finRange 16).find? fun i => c.srcTab[i].owner == none with
  | some i => i
  | none => (List.finRange 16).foldl (fun b i => if c.srcTab[i].used < c.srcTab[b].used then i else b) 0
/-- Lines of an entry are removed. -/
def dropLines (c : Core) (i : Fin 16) : Core :=
  { c with l1 := c.l1.filter fun l => match l.remote with
    | some (j, _, _) => j != i
    | none => true }
/-- The entry of an owner, reassigned where there is none (R133, R271). -/
def srcEntry (c : Core) (owner : Nat) : Core × Fin 16 :=
  let stamp := c.srcTab.toList.foldl (fun m e => max m e.used) 0 + 1
  match srcFind c owner with
  | some i => ({ c with srcTab := c.srcTab.set i { c.srcTab[i] with used := stamp } }, i)
  | none =>
    let i := srcVictim c
    let c := dropLines c i
    ({ c with srcTab := c.srcTab.set i { owner := some owner, value := 0#64, gen := c.srcTab[i].gen, used := stamp } }, i)
/-- Advances a generation; from 255 every line of the entry goes at once (R271). -/
def advanceGen (c : Core) (i : Fin 16) : Core :=
  let e := c.srcTab[i]
  let c := { c with srcTab := c.srcTab.set i { e with gen := e.gen + 1#8 } }
  if e.gen == 255#8 then dropLines c i else c
/-- The cleaning of an acquire (R133): by comparing a sequence value, or unconditionally. -/
def Core.acquire (c : Core) (owner : Nat) (v : Option Word) : Core :=
  let (c, i) := srcEntry c owner
  match v with
  | some v =>
    let e := c.srcTab[i]
    if e.value.toNat < v.toNat then advanceGen { c with srcTab := c.srcTab.set i { e with value := v } } i else c
  | none => advanceGen c i
/-- An acquire by a core. A grain's own cluster needs no cleaning: its lines are never stale (R267). -/
def State.acquire (s : State) (core owner : Nat) (v : Option Word) : State :=
  if coreCluster core = owner then s else s.setCore core ((s.core core).acquire owner v)
/-- An acquire of the location an access reads, under the entry of the cluster its address names (R440). -/
def State.acquireAt (s : State) (core addr named : Nat) (v : Option Word) : State :=
  if coreCluster core = addr / 2 ^ 38 then s else s.setCore core ((s.core core).acquire named v)

/-- The cluster of the named allotment that a replica's own cluster stands for: replica-group lines are stamped under it (R322, R440). -/
def namedOf (l : Launch) (r gid : Nat) : Nat :=
  match (l.ownClusters r).findIdx? (· == gid) with
  | some p => l.allot.getD p gid
  | none => gid
/-- An acquire from another grain of the launch, a sender or a barrier's member, under the entry its cluster's lines are stamped under
(R133, R158, R440; notes/assumptions/30.md). -/
def State.acquireFrom (s : State) (core h r gid : Nat) : State := s.acquireAt core (gid * 2 ^ 38) (namedOf (s.launch h) r gid) none

/-- Lines the L1 holds (R266). -/
def Core.l1Lines (c : Core) : Nat := c.l1Split.toNat * 256
/-- A held remote line that may serve an access (R270). -/
def Core.l1Hit (c : Core) (ctx : BitVec 12) (named line : Nat) : Option L1Line :=
  c.l1.find? fun x => x.addr == line * 32 && x.named == named && x.ctx == ctx && match x.remote with
    | some (i, gen, t) =>
      (c.srcTab[i]).owner == some named && (c.srcTab[i]).gen == gen && decide (c.cycle - t < 65536)
    | none => true
/-- Fills a line, evicting the oldest when the L1 is full. -/
def Core.l1Put (c : Core) (x : L1Line) : Core :=
  if c.l1Lines = 0 then c
  else
    let rest := c.l1.filter fun y => !(y.addr == x.addr && y.named == x.named && y.ctx == x.ctx)
    { c with l1 := (if c.l1Lines ≤ rest.length then rest.drop 1 else rest) ++ [x] }

/-- The physical lines of an access that the L2 may hold (R268): those of translated windows. -/
def physLines (s : State) (ctx : BitVec 12) (addr n : Nat) : List Nat :=
  if translated addr then (List.range ((addr + n - 1) / 32 + 1 - addr / 32)).filterMap fun i => lineKey s ctx (addr / 32 + i) else []

/-- Removes a line from every L1 of a cluster but one (R267). -/
def l1Invalidate (s : State) (gid line : Nat) (keep : Option Nat) : State :=
  let c := s.cluster gid
  match c.l2.find? fun x => x.addr == line with
  | none => s
  | some x =>
    let s := (List.range 16).foldl (fun s k =>
      if x.presence.getLsbD k && keep != some (gid * 32 + k) then
        let q := s.core (gid * 32 + k)
        s.setCore (gid * 32 + k) { q with l1 := q.l1.filter fun y => !(y.phys == line && y.remote.isNone) }
      else s) s
    let left : BitVec 16 := match keep with
      | some k => x.presence &&& (1#16 <<< (k % 32))
      | none => 0#16
    let c := s.cluster gid
    s.setCluster gid { c with l2 := c.l2.map fun y => if y.addr == line then { y with presence := left } else y }

/-- A line joins the merge window of its region at the memory port, to be read or written back (R269). -/
def joinBurst (s : State) (gid line : Nat) (write : Bool) : State :=
  let c := s.cluster gid
  let region := line / 8
  let i := line % 8
  let add := fun (b : Burst) =>
    if write then { b with writes := if b.writes.contains i then b.writes else b.writes ++ [i] }
    else { b with lines := if b.lines.contains i then b.lines else b.lines ++ [i] }
  if c.bursts.any fun b => b.region == region then
    s.setCluster gid { c with bursts := c.bursts.map fun b => if b.region == region then add b else b }
  else (s.setCluster gid { c with bursts := c.bursts ++ [add { region, lines := [], writes := [] }] }).dueOnce (.burstWindowClose gid region)
/-- Writes back one line of an outside memory (R268, R279). -/
def writeBackLine (s : State) (gid line : Nat) : State :=
  let c := s.cluster gid
  let s := (c.overlay.filter fun e => e.1 / 32 == line).foldr (fun e s => { s with mem := s.mem.write e.1 e.2 }) s
  let c := s.cluster gid
  s.setCluster gid { c with overlay := c.overlay.filter fun e => e.1 / 32 != line }
/-- Room for a line in a slice of 32,768 lines (R267, R268): the oldest line leaves with its L1 copies, and is written back if it is dirty. -/
def l2Room (s : State) (gid : Nat) : State :=
  let c := s.cluster gid
  match c.l2 with
  | [] => s
  | x :: _ =>
    if c.l2.length < 32768 then s
    else
      let s := l1Invalidate s gid x.addr none
      let c := s.cluster gid
      let s := s.setCluster gid { c with l2 := c.l2.drop 1 }
      if !x.dirty then s else if isOutside (32 * x.addr) then writeBackLine s gid x.addr else joinBurst s gid x.addr true
/-- Brings a line into the L2 (R268). -/
def l2Fill (s : State) (gid line : Nat) : State :=
  if (s.cluster gid).l2.any (fun x => x.addr == line) then s
  else
    let s := l2Room s gid
    let c := s.cluster gid
    s.setCluster gid { c with l2 := c.l2 ++ [{ addr := line, presence := 0#16, dirty := false }] }
/-- A physical line of an HBM channel. -/
def isChannelLine (k : Nat) : Bool := !isOutside (32 * k) && decide (0x1000000000 ≤ 32 * k % 2 ^ 38)
/-- A request for a line at the memory port (R268, R269): a line of the channel that misses is read with its region's merge window. -/
def l2Request (s : State) (gid line : Nat) : State :=
  if (s.cluster gid).l2.any (fun x => x.addr == line) then s
  else l2Fill (if isChannelLine line then joinBurst s gid line false else s) gid line
/-- The presence vector of an L2 line records a core whose L1 holds it (R267). -/
def l2Present (s : State) (gid line core : Nat) : State :=
  let s := l2Request s gid line
  let c := s.cluster gid
  s.setCluster gid { c with l2 := c.l2.map fun x => if x.addr == line then { x with presence := x.presence ||| (1#16 <<< (core % 32)) } else x }
/-- A write reaches a line of the L2 (R267, R268): every L1 copy but the writing core's goes, and the line is dirty. A line that is not
written whole is read first. -/
def l2Write (s : State) (gid : Nat) (keep : Option Nat) (whole : Bool) (line : Nat) : State :=
  let s := (if whole then l2Fill else l2Request) (l1Invalidate s gid line keep) gid line
  let c := s.cluster gid
  s.setCluster gid { c with l2 := c.l2.map fun x => if x.addr == line then { x with dirty := true } else x }

/-- An access that covers every line it meets. -/
def wholeLine (addr n : Nat) : Bool := addr % 32 == 0 && n % 32 == 0
/-- A write at the owner by an agent other than a core's stores: no L1 of the cluster keeps a copy of its lines (R267). -/
def ownerWrite (s : State) (ctx : BitVec 12) (addr : Nat) (bs : List Byte) : Except NoPlace State := do
  let s ← writeOwner s ctx addr bs
  pure ((physLines s ctx addr bs.length).foldl (fun s k => l2Write s (addr / 2 ^ 38) none (wholeLine addr bs.length) k) s)
/-- The engine takes ownership of a command's destination lines: no L1 of the cluster keeps a copy of them (R267). -/
def claimLines (s : State) (gid : Nat) (x : Cmd) : State :=
  if !translated x.dst then s
  else (List.range x.granules).foldl (fun s i => match lineKey s x.ctx (x.dstOf i / 32) with
    | some k => l1Invalidate s gid k none
    | none => s) s

/-! ### Serving a load (R131, R266, R269, R285) -/

/-- A load's value, or why it has none now. -/
inductive Served where
  | value (bs : List Byte) (s : State)
  | wait (s : State)
  | fault (c : Cause) (addr : Nat)
  | noPlace (p : NoPlace)

/-- The latest store of the same context in the core's buffer that meets an access (R131). -/
def bufferedStore (c : Core) (ctx : BitVec 12) (addr n : Nat) : Option BufStore :=
  c.buffer.reverse.find? fun b => b.ctx == ctx && overlaps b.addr b.bytes.length addr n
/-- The bytes of an access that lie wholly within a held shape record (R248). -/
def shapeServe (c : Core) (ctx : BitVec 12) (addr n : Nat) : Option (List Byte) :=
  c.shape.toList.findSome? fun e => match e with
    | some x => if x.ctx == ctx && decide (x.addr ≤ addr ∧ addr + n ≤ x.addr + 192) then some ((x.data.drop (addr - x.addr)).take n)
      else none
    | none => none

/-- The lines of an HBM access that are not in their L2 are gathered into bursts first (R269). -/
def burstMiss (s : State) (ctx : BitVec 12) (addr n : Nat) : Option State :=
  let gid := addr / 2 ^ 38
  match (physLines s ctx addr n).filter fun k => isChannelLine k && !(s.cluster gid).l2.any (fun x => x.addr == k) with
  | [] => none
  | ks => some (ks.foldl (fun s k => joinBurst s gid k false) s)

/-- The lines of an access to the windows are in the L2 (R268). -/
def l2Windows (s : State) (ctx : BitVec 12) (addr n : Nat) : State :=
  ((physLines s ctx addr n).filter fun k => isOutside (32 * k)).foldl (fun s k => l2Fill s (addr / 2 ^ 38) k) s
/-- Reads at the owner, through the TLB and the L2 (R268, R269, R285, R378). -/
def serveOwner (s : State) (ctx : BitVec 12) (addr n : Nat) : Served :=
  match readOwner s ctx addr n with
  | .lost => .fault .peerLost addr
  | .poisoned => .fault .uncorrectable addr
  | .noPlace p => .noPlace p
  | .value bs =>
    match burstMiss s ctx addr n with
    | some s' => .wait s'
    | none => .value bs (l2Windows (tlbTouch s ctx addr n) ctx addr n)

/-- Fills the line of a read that missed in the L1: a remote line with its stamp, or a local line of the cluster's HBM and windows
(R266, R270, R440). The line comes from the owner's L2. -/
def l1Fill (s : State) (core : Nat) (ctx : BitVec 12) (named addr : Nat) : State :=
  let line := addr / 32
  let owner := addr / 2 ^ 38
  let c := s.core core
  if c.l1Lines = 0 then s
  else match readOwner s ctx (line * 32) 32 with
    | .value bs =>
      let s := (physLines s ctx (line * 32) 32).foldl (fun s k => l2Request s owner k) (tlbTouch s ctx (line * 32) 32)
      if owner = coreCluster core then
        match physLines s ctx (line * 32) 32 with
        | phys :: _ =>
          let s := l2Present s owner phys core
          s.setCore core ((s.core core).l1Put { addr := line * 32, named, ctx, phys, data := bs, remote := none })
        | [] => s
      else
        let (c, i) := srcEntry (s.core core) named
        s.setCore core (c.l1Put { addr := line * 32, named, ctx, phys := 0, data := bs, remote := some (i, (c.srcTab[i]).gen, c.cycle) })
    | _ => s

/-- Serves an access of a grain's core. `plain` accesses may be forwarded and served from the L1; `shaped` ones also from the
shape-record cache. Acquires wait for stores of their own context (R285). -/
def serveLoad (s : State) (core : Nat) (ctx : BitVec 12) (named addr n : Nat) (plain shaped : Bool) : Served :=
  let c := s.core core
  if engineHolds s ctx addr n then .wait s
  else match (if shaped then shapeServe c ctx addr n else none) with
    | some bs => .value bs s
    | none =>
      match bufferedStore c ctx addr n with
      | some b =>
        if plain && decide (b.addr ≤ addr ∧ addr + n ≤ b.addr + b.bytes.length) then .value ((b.bytes.drop (addr - b.addr)).take n) s
        else .wait s
      | none =>
        match (if plain && decide (addr % 32 + n ≤ 32) then c.l1Hit ctx named (addr / 32) else none) with
        | some x => .value ((x.data.drop (addr % 32)).take n) s
        | none =>
          match serveOwner s ctx addr n with
          | .value bs s => .value bs (if plain then l1Fill s core ctx named addr else s)
          | r => r

/-! ### The store buffer (R131, R139) -/

/-- An acquire whose value has not been read: nothing later of the grain is performed before it (R143, R283). -/
def PendKind.isAcquire : PendKind → Bool
  | .load _ _ _ c _ _ => c != .none
  | .atomic r _ _ _ => r.acquire
  | .seqwait .. | .clean _ | .recv .. | .waitw .. | .net .. => true
  | _ => false
/-- The tag of an external atomic (R330). -/
def PendKind.tag : PendKind → Option Nat
  | .atomic r .. => r.tag
  | _ => none
/-- The add of a SEQADV that has not been performed (R154). -/
def PendKind.isAdd : PendKind → Bool
  | .seqadd .. => true
  | _ => false
/-- Some acquire issued before operation `id` is outstanding. -/
def Grain.acquireBefore (g : Grain) (id : Nat) : Bool := g.pend.any fun p => p.kind.isAcquire && decide (p.id < id)
/-- An earlier load or SEQADV of the same bytes is still to be performed (R288). -/
def Grain.loadBefore (g : Grain) (id addr n : Nat) : Bool := g.pend.any fun p =>
  match p.kind with
  | .load a _ _ _ _ none | .ldrec a _ | .mldc a _ | .wbld a _ | .seqadd a _ => decide (p.id < id) && overlaps a.addr a.size addr n
  | _ => false
/-- An earlier atomic of the same bytes has not been applied (R143). -/
def Grain.atomicBefore (g : Grain) (id addr n : Nat) : Bool := g.pend.any fun p =>
  match p.kind with
  | .atomic r _ _ none => decide (p.id < id) && overlaps r.acc.addr r.acc.size addr n
  | _ => false
/-- What an access of a grain waits for: earlier acquires, and earlier accesses of its bytes (R143, R288). -/
def Grain.earlierFirst (g : Grain) (id addr n : Nat) : Bool :=
  g.acquireBefore id || g.loadBefore id addr n || g.atomicBefore id addr n
/-- Whether a plain load may be served from the shape-record cache (R248): the LD family only. -/
def shapedLoad (acc : Acc) : Bool := ptrFmt acc.ptr != 0x20

/-- A request that is on its way already stays with the owner it was sent to, whatever steering does since (R439). -/
def Grain.sentTo (g : Grain) (acc : Acc) : Acc :=
  match g.sent with
  | some (pc, p, a) => if pc == g.pc && p == acc.ptr then { acc with addr := a } else acc
  | none => acc
/-- The grain's request to an owner has left. -/
def noteSent (s : State) (acc : Acc) : State :=
  if ptrSeg acc.ptr < 4 then s else s.setGrainAt s.cur { s.grain with sent := some (s.grain.pc, acc.ptr, acc.addr) }
/-- Whether the response from another package takes a while, in which its owner can be lost: free (R416; notes/assumptions/5.md). -/
def farAway (s : State) (acc : Acc) : Bool :=
  acc.addr / 2 ^ 47 != clusterNode s.here && s.grain.sent.isNone && Config.choice s.tick 3 % 2 == 1
/-- A read made by an instruction at issue: the bytes, or the instruction's stop. -/
def readM (acc : Acc) (plain : Bool) : M (List Byte) := do
  let s ← get
  let g := s.grain
  let acc := g.sentTo acc
  if farAway s acc then throw (Stop.parkIn ((noteSent s acc).dueOnce (.longLatencyResult s.cur 0)) .engineLine)
  if g.earlierFirst (g.nextOp + 1) acc.addr acc.size then parkM .outstanding
  match serveLoad s s.cur.core acc.ctx acc.named acc.addr acc.size plain false with
  | .value bs s' =>
    set (if g.sent.isSome then s'.setGrainAt s.cur { s'.grainAt s.cur with sent := none } else s')
    pure bs
  | .wait s' => throw (Stop.parkIn ((noteSent s' acc).dueOnce (.longLatencyResult s.cur 0)) .engineLine)
  | .fault c a => trapM c (BitVec.ofNat 64 a)
  | .noPlace p => noPlaceM acc.ctx p (segInfo acc.ptr) 0

/-- A read that the L1 may serve but no sibling's store, as VDQNT's (R266, R285): it waits for those. -/
def readSettledM (acc : Acc) : M (List Byte) := do
  let s ← get
  if (bufferedStore s.curCore acc.ctx acc.addr acc.size).isSome then parkM .stores
  readM acc true

/-- Earlier loads of the bytes that a store is about to write take their value first, each after what stands before it (R143, R288); other
earlier accesses of them hold it back. -/
def settleLoads (acc : Acc) : M Unit := do
  let s ← get
  let g := s.grain
  if g.pend.any (fun p => p.kind.isAcquire) then parkM .release
  if g.atomicBefore (g.nextOp + 1) acc.addr acc.size then parkM .release
  for p in g.pend do
    match p.kind with
    | .ldrec a _ | .mldc a _ | .wbld a _ | .seqadd a _ => if overlaps a.addr a.size acc.addr acc.size then parkM .release
    | .load a e d c plain none =>
      if overlaps a.addr a.size acc.addr acc.size then
        match (if g.earlierFirst p.id a.addr a.size then Served.wait s
            else serveLoad s s.cur.core a.ctx a.named a.addr a.size plain (shapedLoad a)) with
        | .value bs _ =>
          let v := BitVec.ofNat 64 (leNat bs)
          onGrain fun g => { g with pend := g.pend.map fun q =>
            if q.id == p.id then { q with kind := .load a e d c plain (some v) } else q }
        | _ => parkOn .release [.longLatencyResult s.cur p.id]
    | _ => pure ()

/-- A store of the grain whose turn it is enters the core's buffer (R139). -/
def bufferStore (acc : Acc) (bs : List Byte) (alloc : Bool) (pc : Word) : M Unit := do
  settleLoads acc
  modify fun s =>
    let c := s.curCore
    let g := s.grain
    let b : BufStore := { id := c.nextStore, slot := s.cur.slot, ctx := acc.ctx, launch := g.launch, pc, addr := acc.addr,
                          ptr := acc.ptr, bytes := bs, alloc, faulted := false }
    (s.setCurCore { c with buffer := c.buffer ++ [b], nextStore := c.nextStore + 1 }).due [.storePerformed s.cur]

/-- A plain store: signature class 0 and the detector (R325, R334). -/
def storeM (acc : Acc) (bs : List Byte) (alloc : Bool) (pc : Word) : M Unit := do
  signM acc.addr 0 bs
  modify fun s => detAccess s s.cur pc acc.addr acc.size true
  bufferStore acc bs alloc pc

/-- After a store to local lines is performed (R138, R266, R267): the other L1 copies are gone, the writer's own copies, under whatever
cluster and context they were filled, hold the new bytes, and a store that allocates leaves the line in the writer's L1. -/
def l1Store (s : State) (core : Nat) (ctx : BitVec 12) (addr n : Nat) (alloc : Bool) : State :=
  let gid := addr / 2 ^ 38
  let s := (physLines s ctx addr n).foldl (fun s k =>
    let s := l2Write s gid (some core) (wholeLine addr n) k
    let c := s.core core
    let fresh := (List.range 32).map fun i => ownerByte s gid (32 * k + i)
    s.setCore core { c with l1 := c.l1.map fun y => if y.phys == k && y.remote.isNone then { y with data := fresh } else y }) s
  if alloc && translated addr then
    (List.range ((addr + n - 1) / 32 + 1 - addr / 32)).foldl (fun s i => l1Fill s core ctx gid (32 * (addr / 32 + i))) s
  else s

/-- A line leaves a cluster's L2 with its L1 copies, written back first (R407). -/
def evictLine (s : State) (gid line : Nat) : State :=
  let s := writeBackLine (l1Invalidate s gid line none) gid line
  let c := s.cluster gid
  s.setCluster gid { c with l2 := c.l2.filter fun x => x.addr != line }
/-- Writes back the lines of outside memory that a cluster's L2 holds, in the order in which they came into it (R268, R279, R408). -/
def writeBack (s : State) (gid : Nat) : State :=
  let s := ((s.cluster gid).l2.filter fun x => x.dirty && isOutside (32 * x.addr)).foldl (fun s x => writeBackLine s gid x.addr) s
  let c := s.cluster gid
  let s := c.overlay.foldr (fun e s => { s with mem := s.mem.write e.1 e.2 }) s
  let c := s.cluster gid
  s.setCluster gid { c with overlay := [], l2 := c.l2.map fun x => if isOutside (32 * x.addr) then { x with dirty := false } else x }

/-! ### Waits of releases (R281) -/

/-- A load, or an operation that reads, whose result has not returned. -/
def PendKind.isLoad : PendKind → Bool
  | .load .. | .ldrec .. | .atomic .. | .mldc .. | .wbld .. | .net .. => true
  | _ => false
/-- Some earlier load has not returned: an acquire, a wait on a word or a receive counts as one (R281). -/
def Grain.loadsPending (g : Grain) : Bool := g.pend.any fun p => p.kind.isLoad || p.kind.isAcquire
/-- Some earlier SEQADV has not been performed. -/
def Grain.addsPending (g : Grain) : Bool := g.pend.any fun p => p.kind.isAdd
/-- An output stream holds elements not yet written. -/
def Grain.appendedPending (g : Grain) : Bool := g.streams.toList.any fun st => st.output && !st.appended.isEmpty
/-- Sequencer entries that store (R197). -/
def SeqEntry.stores (e : SeqEntry) : Bool := match e.op with
  | .vst _ => true
  | _ => false
/-- The line writes that output streams still owe. -/
def streamFlush (s : State) (l : Loc) : List Event :=
  (List.finRange 4).filterMap fun n =>
    let st := (s.grainAt l).streams[n]
    if st.output && !st.appended.isEmpty then some (.outputStreamLineWrite l n) else none

/-- The identity of a grain that another created, from the creator's identity and its count (R326). -/
def childIdent (ident n : Nat) (update : Bool) : Nat := (ident + 1) * 2 ^ 64 + 2 * n + (if update then 1 else 0)
/-- Whether `a` was created by the grain with identity `p`. -/
def isChildOf (p a : Nat) : Bool := decide (2 ^ 64 ≤ a) && a / 2 ^ 64 == p + 1

/-- Updates that a cluster's channel core has not applied. -/
def Cluster.allUpdates (c : Cluster) : List Update := c.updates ++ c.heldUpdates
/-- The grain's updates at owners in its unit that are not yet applied, and its spawns not yet accepted there (R281). No owner cluster
lies in a unit of core scope. -/
def State.doorsPending (s : State) (l : Loc) (sc : Scope) : Bool :=
  let g := s.grainAt l
  s.clusters.any fun e =>
    sc != .core && scopeUnit sc (e.1 * 32) == scopeUnit sc l.core
        && e.2.allUpdates.any (fun u => u.req.launch == g.launch && isChildOf g.ident u.ident)
      || e.2.packets.any (fun p => p.source.isNone && scopeUnit sc p.target == scopeUnit sc l.core && p.grain.launch == g.launch
          && isChildOf g.ident p.grain.ident)

/-- The waits of a release at a scope. Of the elements that replays of a VLOOP store those appended before it are waited for, not those still to
come (R281, R352). At system scope stores to windows are written back (R279, R281). -/
def releaseWaitsM (sc : Scope) : M Unit := do
  let s ← get
  let g := s.grain
  parkWhen g.loadsPending .release
  if g.appendedPending then parkOn .release (streamFlush s s.cur)
  parkWhen (g.addsPending || (sc != .core && s.storesPending s.cur)) .release
  parkWhen (s.doorsPending s.cur sc) .release
  if sc = .system then modify fun s => writeBack s s.here

end Sys2Proof.Machine
end

