-- ==== Sys2Proof/Machine/Regs.lean ====
section
/-! DEFINITION. Register fields (spec/01_grain_state.md R20-R22, spec/04 R103): sources and destinations among g registers, streams, zr
and the PC. -/

namespace Sys2Proof.Machine

/-- The next element of an input stream (R20-R22, R216); the grain parks until it has been fetched. -/
def streamNext (pc : Word) (n : Fin 4) : M Word := do
  let s ← get
  let st := s.grain.streams[n]
  if !st.bound then trapM .streamMisuse (streamInfo n 1)
  else if st.output then trapM .streamMisuse (streamInfo n 0)
  else if st.total ≤ st.pos then trapM .streamMisuse (streamInfo n 2)
  else match st.fetched with
    | [] => parkOn .stream [.inputStreamFetch s.cur n]
    | .failed c a :: _ => trapM c (BitVec.ofNat 64 a)
    | .value x :: rest =>
      onGrain fun g => { g with streams := g.streams.set n { st with pos := st.pos + 1, fetched := rest } }
      modify fun s => detAccess s s.cur pc (st.elemAt s s.cur st.pos) (etBytes st.fmt) false
      modify fun s => s.dueOnce (.inputStreamFetch s.cur n)
      pure x

/-- The stream an entry of a VLOOP's replays moves an element of (R197). -/
def SeqEntry.stream (e : SeqEntry) : Option (BitVec 2) :=
  match e.op with
  | .vld n | .vst n => some n
  | _ => none
/-- The entry is a replay of the VLOOP whose body issues now: it starts after the body's own entries (R195). -/
def Grain.ownReplay (g : Grain) (e : SeqEntry) : Bool :=
  match g.vloop, e.loop with
  | some v, some (id, k) => v.id == id && decide (16 ≤ k)
  | _, _ => false
/-- Elements of a stream go in program order (R197): a later instruction waits for the replays that still move some. -/
def streamOrderM (n : Fin 4) : M Unit := do
  let g ← grainM
  parkWhen (g.seq.any fun e => e.stream.any (fun k => k.toNat == n.val) && !g.ownReplay e) .sequencer

/-- A source field: g0-g9, the next element of a stream, zr, or the PC of the instruction. -/
def srcM (pc : Word) (r : Reg) : M Word := do
  match streamOf r with
  | some n =>
    streamOrderM n
    streamNext pc n
  | none =>
    if r = 15#4 then pure pc
    else if r = 14#4 then pure 0#64
    else return (← grainM).reg r.toNat

/-- Appends an element to an output stream (R20, R22, R216, R274, R325): its low bits are buffered, and a line that is complete is due to
be written. The grain parks while the buffer is full, and while an earlier acquire is outstanding (R143). DESIGN CHOICE: a full buffer of
one line, which no event of R274 writes, is written when an append finds it (notes/assumptions/95.md). -/
def streamAppend (pc : Word) (n : Fin 4) (x : Word) : M Unit := do
  let s ← get
  let st := s.grain.streams[n]
  if !st.bound then trapM .streamMisuse (streamInfo n 1)
  else if !st.output then trapM .streamMisuse (streamInfo n 0)
  else if st.total ≤ st.pos then trapM .streamMisuse (streamInfo n 2)
  else if s.grain.pend.any (fun p => p.kind.isAcquire) then parkM .window
  else if st.room ≤ st.appended.length then parkOn .stream [.outputStreamLineWrite s.cur n]
  else
    let a := st.elemAddr st.pos
    let b := etBytes st.fmt
    signM a 0 (leBytes b x.toNat)
    let full := decide (st.pos + 1 = st.total) ||
      (!st.appended.isEmpty && decide (st.elemAddr (st.pos - st.appended.length) / 32 ≠ a / 32))
    onGrain fun g => { g with streams := g.streams.set n { st with pos := st.pos + 1, appended := st.appended ++ [x] } }
    modify fun s => detAccess s s.cur pc a b true
    if full then modify fun s => s.dueOnce (.outputStreamLineWrite s.cur n)

/-- A destination field: g0-g9, an output stream, or zr, which discards the result (R20). -/
def dstM (pc : Word) (r : Reg) (x : Word) : M Unit := do
  match streamOf r with
  | some n =>
    streamOrderM n
    streamAppend pc n x
  | none => onGrain fun g => g.setReg r.toNat x

/-- A field that is read and written names no stream, which cannot be both input and output (R103): a fault of the direction. -/
def rwM (r : Reg) : M Unit :=
  match streamOf r with
  | some n => trapM .streamMisuse (streamInfo n.val 0)
  | none => pure ()

/-- A source field of an instruction that also writes it (R103): no stream; zr reads 0. -/
def readWriteM (pc : Word) (r : Reg) : M Word := do
  rwM r
  srcM pc r

/-- RESERVED_FIELD raised by an instruction's operands (R237). -/
def reservedM {α : Type} (i : Instr) : M α := trapM .reservedField (infoOfInstr i)
/-- RESERVED_FIELD when a condition holds. -/
def reservedWhen (b : Bool) (i : Instr) : M Unit := if b then reservedM i else pure ()

end Sys2Proof.Machine
end

