-- ==== Sys2Proof/Machine/Cmp.lean ====
section
/-! DEFINITION. Compares and predicates: major CMP (spec/04_scalar_and_control_instructions.md R104, R112-R114). -/

namespace Sys2Proof.Machine

/-- The predicate a compare writes: p0 when XPAGE is absent (R86, R112). -/
def predDst (p : Option (BitVec 5)) : BitVec 5 := p.getD 0#5
/-- Writes a predicate of the grain whose turn it is. -/
def predM (p : BitVec 5) (b : Bool) : M Unit := onGrain fun g => { g with pw := setPred g.pw p b }
/-- p0 as a lookahead resource. -/
def predRes (p : BitVec 5) : List Res := if p = 0#5 then [.p0] else []

/-- A register compare (R112). -/
def compare (i : Instr) (a : CmpArgs) (f : Word → Word → Bool) (s : State) : Host.Outcome State Fault Refusal :=
  issue i a.gd (Touch.predsOf (regRes a.d ++ regRes a.s ++ predRes (predDst a.pd))) (fun pc => do
    let x ← srcM pc a.d
    let y ← srcM pc a.s
    predM (predDst a.pd) (f x y)) s
/-- An immediate compare (R112). -/
def compareImm (i : Instr) (a : CmpImmArgs) (f : Word → Word → Bool) (s : State) : Host.Outcome State Fault Refusal :=
  issue i a.gd (Touch.predsOf (regRes a.d ++ predRes (predDst a.pd))) (fun pc => do
    let x ← srcM pc a.d
    predM (predDst a.pd) (f x (BitVec.ofInt 64 (a.imm.val false)))) s

/-- CEQ. -/
def execCeq (a : CmpArgs) (s : State) : Host.Outcome State Fault Refusal := compare (.ceq a) a (fun x y => x == y) s
/-- CNE. -/
def execCne (a : CmpArgs) (s : State) : Host.Outcome State Fault Refusal := compare (.cne a) a (fun x y => x != y) s
/-- CLT. -/
def execClt (a : CmpArgs) (s : State) : Host.Outcome State Fault Refusal := compare (.clt a) a (fun x y => x.slt y) s
/-- CGE. -/
def execCge (a : CmpArgs) (s : State) : Host.Outcome State Fault Refusal := compare (.cge a) a (fun x y => !x.slt y) s
/-- CLTN. -/
def execCltn (a : CmpArgs) (s : State) : Host.Outcome State Fault Refusal := compare (.cltn a) a (fun x y => x.ult y) s
/-- CGEN. -/
def execCgen (a : CmpArgs) (s : State) : Host.Outcome State Fault Refusal := compare (.cgen a) a (fun x y => !x.ult y) s
/-- CTST. -/
def execCtst (a : CmpArgs) (s : State) : Host.Outcome State Fault Refusal := compare (.ctst a) a (fun x y => x &&& y != 0#64) s
/-- CTSTN. -/
def execCtstn (a : CmpArgs) (s : State) : Host.Outcome State Fault Refusal := compare (.ctstn a) a (fun x y => x &&& y == 0#64) s
/-- CEQI. -/
def execCeqi (a : CmpImmArgs) (s : State) : Host.Outcome State Fault Refusal := compareImm (.ceqi a) a (fun x y => x == y) s
/-- CNEI. -/
def execCnei (a : CmpImmArgs) (s : State) : Host.Outcome State Fault Refusal := compareImm (.cnei a) a (fun x y => x != y) s
/-- CLTI. -/
def execClti (a : CmpImmArgs) (s : State) : Host.Outcome State Fault Refusal := compareImm (.clti a) a (fun x y => x.slt y) s
/-- CGEI. -/
def execCgei (a : CmpImmArgs) (s : State) : Host.Outcome State Fault Refusal := compareImm (.cgei a) a (fun x y => !x.slt y) s
/-- CLTNI. -/
def execCltni (a : CmpImmArgs) (s : State) : Host.Outcome State Fault Refusal := compareImm (.cltni a) a (fun x y => x.ult y) s
/-- CGENI. -/
def execCgeni (a : CmpImmArgs) (s : State) : Host.Outcome State Fault Refusal := compareImm (.cgeni a) a (fun x y => !x.ult y) s
/-- PLOG (R113). -/
def execPlog (a : PlogArgs) (s : State) : Host.Outcome State Fault Refusal :=
  issue (.plog a) a.gd (Touch.predsOf (predRes a.pa ++ predRes a.pb ++ predRes (predDst a.pd))) (fun _ => do
    let g ← grainM
    let k := (if predOf g.pw a.pa then 2 else 0) + (if predOf g.pw a.pb then 1 else 0)
    predM (predDst a.pd) (a.tt.getLsbD k)) s

/-- Bits of a word replaced under a mask. -/
def underMask (mask old new : Word) : Word := (old &&& ~~~mask) ||| (new &&& mask)
/-- The predicates and every field PXFER mode 1 writes but VDIRTY (R114). -/
def pxferMask : Word := 0xFFF7FFFFFFF#64
/-- PXFER writing VDIRTY (R25): a 0 zeroes the v registers when no tile is owned and no entry is pending. -/
def writeVdirty (s : State) (v : Bool) (g : Grain) : Grain :=
  let ownsTile := s.curCore.tiles.toList.any fun t => t.owner == some s.cur.slot
  if v || ownsTile || g.seqBusy || !vdirtyOf g.pw then g
  else { g with v := Vector.replicate 16 0#128, vh := Vector.replicate 16 0#128, pw := setBit g.pw 44 false }
/-- PXFER (R114). -/
def execPxfer (a : PxferArgs) (s : State) : Host.Outcome State Fault Refusal :=
  let p0 : List Res := if a.mode = 3#2 then [] else [.p0]
  issue (.pxfer a) a.gd (Touch.predsOf (regRes a.g ++ p0)) (fun _ => do
    let g ← grainM
    let x := g.reg a.g.toNat
    match a.mode.toNat with
    | 0 => onGrain fun g => g.setReg a.g.toNat (g.pw ||| 0x80000000#64)
    | 1 =>
      reservedWhen (x >>> 47 != 0#64 || (etypeOfCode (x.extractLsb' 40 4)).isNone) (.pxfer a)
      let s ← get
      onGrain fun g => writeVdirty s (x.getLsbD 44) { g with pw := underMask (pxferMask) g.pw x }
    | 2 => onGrain fun g => { g with pw := underMask 0x7FFFFFFF#64 g.pw x }
    | _ => onGrain fun g => { g with pw := underMask 0xFF00000000#64 g.pw x }) s

end Sys2Proof.Machine
end

