-- ==== Sys2Proof/Machine/Crypto.lean ====
section
/-! DEFINITION. SHA-384 and AES-256-GCM, which the chain, the receipts, the measurements and the monitor services name
(spec/20_protection_keys_receipts.md R392, R395, R396, R402). -/

namespace Sys2Proof.Machine

/-! ### SHA-384 (FIPS 180-4) -/

/-- Constants 0 to 15. -/
def shaK0 : List Word :=
  [0x428a2f98d728ae22#64, 0x7137449123ef65cd#64, 0xb5c0fbcfec4d3b2f#64, 0xe9b5dba58189dbbc#64, 0x3956c25bf348b538#64,
   0x59f111f1b605d019#64, 0x923f82a4af194f9b#64, 0xab1c5ed5da6d8118#64, 0xd807aa98a3030242#64, 0x12835b0145706fbe#64,
   0x243185be4ee4b28c#64, 0x550c7dc3d5ffb4e2#64, 0x72be5d74f27b896f#64, 0x80deb1fe3b1696b1#64, 0x9bdc06a725c71235#64,
   0xc19bf174cf692694#64]
/-- Constants 16 to 31. -/
def shaK1 : List Word :=
  [0xe49b69c19ef14ad2#64, 0xefbe4786384f25e3#64, 0x0fc19dc68b8cd5b5#64, 0x240ca1cc77ac9c65#64, 0x2de92c6f592b0275#64,
   0x4a7484aa6ea6e483#64, 0x5cb0a9dcbd41fbd4#64, 0x76f988da831153b5#64, 0x983e5152ee66dfab#64, 0xa831c66d2db43210#64,
   0xb00327c898fb213f#64, 0xbf597fc7beef0ee4#64, 0xc6e00bf33da88fc2#64, 0xd5a79147930aa725#64, 0x06ca6351e003826f#64,
   0x142929670a0e6e70#64]
/-- Constants 32 to 47. -/
def shaK2 : List Word :=
  [0x27b70a8546d22ffc#64, 0x2e1b21385c26c926#64, 0x4d2c6dfc5ac42aed#64, 0x53380d139d95b3df#64, 0x650a73548baf63de#64,
   0x766a0abb3c77b2a8#64, 0x81c2c92e47edaee6#64, 0x92722c851482353b#64, 0xa2bfe8a14cf10364#64, 0xa81a664bbc423001#64,
   0xc24b8b70d0f89791#64, 0xc76c51a30654be30#64, 0xd192e819d6ef5218#64, 0xd69906245565a910#64, 0xf40e35855771202a#64,
   0x106aa07032bbd1b8#64]
/-- Constants 48 to 63. -/
def shaK3 : List Word :=
  [0x19a4c116b8d2d0c8#64, 0x1e376c085141ab53#64, 0x2748774cdf8eeb99#64, 0x34b0bcb5e19b48a8#64, 0x391c0cb3c5c95a63#64,
   0x4ed8aa4ae3418acb#64, 0x5b9cca4f7763e373#64, 0x682e6ff3d6b2b8a3#64, 0x748f82ee5defb2fc#64, 0x78a5636f43172f60#64,
   0x84c87814a1f0ab72#64, 0x8cc702081a6439ec#64, 0x90befffa23631e28#64, 0xa4506cebde82bde9#64, 0xbef9a3f7b2c67915#64,
   0xc67178f2e372532b#64]
/-- Constants 64 to 79. -/
def shaK4 : List Word :=
  [0xca273eceea26619c#64, 0xd186b8c721c0c207#64, 0xeada7dd6cde0eb1e#64, 0xf57d4f7fee6ed178#64, 0x06f067aa72176fba#64,
   0x0a637dc5a2c898a6#64, 0x113f9804bef90dae#64, 0x1b710b35131c471b#64, 0x28db77f523047d84#64, 0x32caab7b40c72493#64,
   0x3c9ebe0a15c9bebc#64, 0x431d67c49c100d4c#64, 0x4cc5d4becb3e42b6#64, 0x597f299cfc657e2a#64, 0x5fcb6fab3ad6faec#64,
   0x6c44198c4a475817#64]
/-- The round constants. -/
def shaK : List Word := shaK0 ++ shaK1 ++ shaK2 ++ shaK3 ++ shaK4
/-- The initial hash value of SHA-384. -/
def shaInit : List Word :=
  [0xcbbb9d5dc1059ed8#64, 0x629a292a367cd507#64, 0x9159015a3070dd17#64, 0x152fecd8f70e5939#64, 0x67332667ffc00b31#64,
   0x8eb44a8768581511#64, 0xdb0c2e0d64f98fa7#64, 0x47b5481dbefa4fa4#64]

/-- A big-endian number. -/
def beNat (bs : List Byte) : Nat := bs.foldl (fun n b => 256 * n + b.toNat) 0
/-- The `n` low bytes of a number, big-endian. -/
def beBytes (n x : Nat) : List Byte := (leBytes n x).reverse
/-- The first sixteen words of the schedule. -/
def shaWords (block : List Byte) : List Word := (List.range 16).map fun i => BitVec.ofNat 64 (beNat ((block.drop (8 * i)).take 8))
/-- The next schedule word, from the sixteen before it. -/
def shaNext (w : List Word) : Word :=
  let a := w.getD 1 0#64
  let b := w.getD 14 0#64
  (b.rotateRight 19 ^^^ b.rotateRight 61 ^^^ (b >>> 6)) + w.getD 9 0#64 + (a.rotateRight 1 ^^^ a.rotateRight 8 ^^^ (a >>> 7))
    + w.getD 0 0#64
/-- One round over the eight working words. -/
def shaRound (h : List Word) (k w : Word) : List Word :=
  match h with
  | [a, b, c, d, e, f, g, x] =>
    let t1 := x + (e.rotateRight 14 ^^^ e.rotateRight 18 ^^^ e.rotateRight 41) + ((e &&& f) ^^^ (~~~e &&& g)) + k + w
    let t2 := (a.rotateRight 28 ^^^ a.rotateRight 34 ^^^ a.rotateRight 39) + ((a &&& b) ^^^ (a &&& c) ^^^ (b &&& c))
    [t1 + t2, a, b, c, d + t1, e, f, g]
  | _ => h
/-- The rounds of a block: the schedule window slides by one word a round. -/
def shaRounds : List Word → List Word → List Word → List Word
  | [], _, h => h
  | k :: ks, w, h => shaRounds ks (w.drop 1 ++ [shaNext w]) (shaRound h k (w.getD 0 0#64))
/-- The hash after a block of 128 bytes. -/
def shaBlock (h : List Word) (block : List Byte) : List Word :=
  List.zipWith (· + ·) h (shaRounds shaK (shaWords block) h)
/-- The hash after `n` blocks. -/
def shaBlocks : Nat → List Byte → List Word → List Word
  | 0, _, h => h
  | n + 1, bs, h => shaBlocks n (bs.drop 128) (shaBlock h (bs.take 128))
/-- The padding of a message. -/
def shaPad (n : Nat) : List Byte := 0x80#8 :: (List.replicate ((239 - n % 128) % 128) 0#8 ++ beBytes 16 (8 * n))
/-- SHA-384: 48 bytes. -/
def sha384 (msg : List Byte) : List Byte :=
  let m := msg ++ shaPad msg.length
  ((shaBlocks (m.length / 128) m shaInit).take 6).flatMap fun w => beBytes 8 w.toNat

/-! ### AES-256 (FIPS 197) -/

/-- Multiplication by x in GF(2^8). -/
def aesX (b : Byte) : Byte := (b <<< 1) ^^^ (if b.getLsbD 7 then 0x1B#8 else 0#8)
/-- Multiplication in GF(2^8): the low `n` bits of the second factor. -/
def aesMulN : Nat → Byte → Byte → Byte
  | 0, _, _ => 0#8
  | n + 1, a, b => (if b.getLsbD 0 then a else 0#8) ^^^ aesMulN n (aesX a) (b >>> 1)
/-- Multiplication in GF(2^8). -/
def aesMul (a b : Byte) : Byte := aesMulN 8 a b
/-- The power a^254, which is the inverse, and 0 for 0. -/
def aesInv (a : Byte) : Byte :=
  let a2 := aesMul a a
  let a3 := aesMul a2 a
  let a12 := aesMul (aesMul a3 a3) (aesMul a3 a3)
  let a15 := aesMul a12 a3
  let p := fun (x : Byte) => aesMul x x
  aesMul (p (p (p (p a15)))) (aesMul a12 a2)
/-- The S-box. -/
def aesSub (a : Byte) : Byte :=
  let b := aesInv a
  b ^^^ b.rotateLeft 1 ^^^ b.rotateLeft 2 ^^^ b.rotateLeft 3 ^^^ b.rotateLeft 4 ^^^ 0x63#8
/-- Bytes combined by exclusive or. -/
def xorBytes (a b : List Byte) : List Byte := List.zipWith (· ^^^ ·) a b
/-- The next 32 bytes of the key schedule. -/
def aesNextKey (k : List Byte) (rc : Byte) : List Byte :=
  let word := fun (i : Nat) => (k.drop (4 * i)).take 4
  let t0 := xorBytes (((k.drop 29).take 3 ++ (k.drop 28).take 1).map aesSub) [rc, 0#8, 0#8, 0#8]
  let w0 := xorBytes (word 0) t0
  let w1 := xorBytes (word 1) w0
  let w2 := xorBytes (word 2) w1
  let w3 := xorBytes (word 3) w2
  let w4 := xorBytes (word 4) (w3.map aesSub)
  let w5 := xorBytes (word 5) w4
  let w6 := xorBytes (word 6) w5
  w0 ++ w1 ++ w2 ++ w3 ++ w4 ++ w5 ++ w6 ++ xorBytes (word 7) w6
/-- The key schedule from a key of 32 bytes. -/
def aesSchedule : Nat → List Byte → Byte → List Byte
  | 0, _, _ => []
  | n + 1, k, rc => k ++ aesSchedule n (aesNextKey k rc) (aesX rc)
/-- ShiftRows: byte `4 c + r` comes from column `c + r`. -/
def aesShift (b : List Byte) : List Byte := (List.range 16).map fun i => b.getD ((i + 4 * (i % 4)) % 16) 0#8
/-- MixColumns on one column. -/
def aesMixCol (c : List Byte) : List Byte :=
  (List.range 4).map fun r =>
    aesX (c.getD r 0#8) ^^^ (aesX (c.getD ((r + 1) % 4) 0#8) ^^^ c.getD ((r + 1) % 4) 0#8) ^^^ c.getD ((r + 2) % 4) 0#8
      ^^^ c.getD ((r + 3) % 4) 0#8
/-- MixColumns. -/
def aesMix (b : List Byte) : List Byte := (List.range 4).flatMap fun i => aesMixCol ((b.drop (4 * i)).take 4)
/-- The rounds after the first key addition, over the round keys that are left. -/
def aesRounds : Nat → List Byte → List Byte → List Byte
  | 0, _, b => b
  | 1, ks, b => xorBytes (aesShift (b.map aesSub)) (ks.take 16)
  | n + 2, ks, b => aesRounds (n + 1) (ks.drop 16) (xorBytes (aesMix (aesShift (b.map aesSub))) (ks.take 16))
/-- AES-256 of one block of 16 bytes. -/
def aes256 (key block : List Byte) : List Byte :=
  let ks := aesSchedule 8 key 1#8
  aesRounds 14 (ks.drop 16) (xorBytes block (ks.take 16))

/-! ### XTS (IEEE 1619) -/

/-- The tweak of the next block: times alpha in GF(2^128), byte 0 lowest. -/
def xtsNext (t : List Byte) : List Byte :=
  let n := 2 * beNat t.reverse
  leBytes 16 (if n < 2 ^ 128 then n else (n - 2 ^ 128) ^^^ 0x87)
/-- AES-256-XTS of a data unit of 32 bytes under a key of 64 bytes (R390). -/
def xtsUnit (key : List Byte) (unit : Nat) (text : List Byte) : List Byte :=
  let one := fun (t b : List Byte) => xorBytes t (aes256 (key.take 32) (xorBytes b t))
  let t := aes256 (key.drop 32) (leBytes 16 unit)
  one t (text.take 16) ++ one (xtsNext t) (text.drop 16)

/-! ### GCM (SP 800-38D) -/

/-- Multiplication in GF(2^128), bit 0 leftmost: `n` steps. -/
def ghashMulN : Nat → BitVec 128 → BitVec 128 → BitVec 128
  | 0, _, _ => 0#128
  | n + 1, x, v =>
    (if x.getLsbD 127 then v else 0#128)
      ^^^ ghashMulN n (x <<< 1) ((v >>> 1) ^^^ (if v.getLsbD 0 then 0xE1#128 <<< 120 else 0#128))
/-- A 16-byte block as a number. -/
def blockVec (b : List Byte) : BitVec 128 := BitVec.ofNat 128 (beNat (b ++ List.replicate (16 - b.length) 0#8))
/-- GHASH over bytes padded to blocks, at most `n` blocks. -/
def ghash (h : BitVec 128) : Nat → List Byte → BitVec 128 → BitVec 128
  | 0, _, y => y
  | n + 1, bs, y => if bs.isEmpty then y else ghash h n (bs.drop 16) (ghashMulN 128 (y ^^^ blockVec (bs.take 16)) h)
/-- Counter mode from a counter block on. -/
def gctr (key : List Byte) : Nat → Nat → List Byte → List Byte
  | 0, _, _ => []
  | n + 1, ctr, bs =>
    if bs.isEmpty then []
    else xorBytes (bs.take 16) (aes256 key (beBytes 16 ctr)) ++ gctr key n (ctr / 2 ^ 32 * 2 ^ 32 + (ctr + 1) % 2 ^ 32) (bs.drop 16)
/-- The tag of a ciphertext. -/
def gcmTag (key nonce aad ct : List Byte) : List Byte :=
  let h := BitVec.ofNat 128 (beNat (aes256 key (List.replicate 16 0#8)))
  let y := ghash h (aad.length + 1) aad 0#128
  let y := ghash h (ct.length + 1) ct y
  let y := ghash h 1 (beBytes 8 (8 * aad.length) ++ beBytes 8 (8 * ct.length)) y
  xorBytes (beBytes 16 y.toNat) (aes256 key (nonce ++ beBytes 4 1))
/-- AES-256-GCM with a nonce of 12 bytes: counter mode over a text, the same in both directions. -/
def gcmText (key nonce text : List Byte) : List Byte := gctr key (text.length + 1) (beNat (nonce ++ beBytes 4 2)) text

/-- A key's bytes, most significant first. -/
def keyBytes (k : BitVec 256) : List Byte := beBytes 32 k.toNat
/-- The nonce of R392: context in the top 12 bits, version in the low 64. -/
def sealNonce (ctx : BitVec 12) (n : Nat) : List Byte := leBytes 12 (ctx.toNat * 2 ^ 84 + n % 2 ^ 64)
/-- A sealed buffer (R395): nonce, ciphertext, tag. -/
def sealBytes (key : BitVec 256) (nonce aad text : List Byte) : List Byte :=
  let ct := gcmText (keyBytes key) nonce text
  nonce ++ ct ++ gcmTag (keyBytes key) nonce aad ct
/-- Opens a sealed buffer, when its tag verifies. -/
def openBytes (key : BitVec 256) (aad buf : List Byte) : Option (List Byte) :=
  let nonce := buf.take 12
  let ct := (buf.drop 12).take (buf.length - 28)
  if gcmTag (keyBytes key) nonce aad ct = buf.drop (buf.length - 16) then some (gcmText (keyBytes key) nonce ct) else none

end Sys2Proof.Machine
end

