-- ==== Sys2Proof/Machine/Grains.lean ====
section
/-! DEFINITION. What happens to whole grains: comparison points and quarantines (spec/13_replicas_and_determinism.md R326-R328), slots
filled, spilled and vacated (spec/08 R251-R254, spec/19 R382, R383), grains that move (spec/05 R147, R149), barriers (spec/05 R157, R158)
and grains that end (spec/04 R118). -/

namespace Sys2Proof.Machine

/-- An event that only makes a parked grain try its instruction again: an operation number no operation has. -/
def retryEvent (l : Loc) : Event := .longLatencyResult l 0

/-! ### Places of grains -/

/-- The key of a grain. -/
def Grain.key (g : Grain) : GrainKey := ⟨g.launch, g.ident, g.replica⟩
/-- The place a slate stands for in watch entries and events, while its grain has no slot (R253). -/
def slateLoc (id : Nat) : Loc := ⟨2 ^ 40 + id, 0⟩
/-- A slate's number, from its place. -/
def slateOf (l : Loc) : Option Nat := if 2 ^ 40 ≤ l.core then some (l.core - 2 ^ 40) else none

/-- An event of a waiting grain follows it to another place. -/
def renameEvent (old new : Loc) (e : Event) : Event :=
  match e with
  | .remoteWatchWake l r v => if l == old then .remoteWatchWake new r v else e
  | .remoteWatchInsert l r => if l == old then .remoteWatchInsert new r else e
  | .watchPollTimer l r => if l == old then .watchPollTimer new r else e
  | .longLatencyResult l id => if l == old && id != 0 then .longLatencyResult new id else e
  | e => e
/-- Watch entries and events of a waiting grain follow it to another place (R153, R253). -/
def renameLoc (s : State) (old new : Loc) : State :=
  { s with
    agenda := s.agenda.map (renameEvent old new)
    clusters := s.clusters.map fun e =>
      (e.1, { e.2 with watchTab := e.2.watchTab.map fun w => if w.waiter == old then { w with waiter := new } else w }) }

/-- The grain at a place: a slot that holds one, or a slate. -/
def grainOf (s : State) (l : Loc) : Option Grain :=
  match slateOf l with
  | some id => (PMap.get? id (s.cluster (id / 2 ^ 48)).slates).map (·.grain)
  | none => if (s.slotAt l).occupied then some (s.grainAt l) else none
/-- Replaces the grain at a place. -/
def putGrain (s : State) (l : Loc) (g : Grain) : State :=
  match slateOf l with
  | some id =>
    let c := s.cluster (id / 2 ^ 48)
    s.setCluster (id / 2 ^ 48) { c with slates := c.slates.map fun e => if e.1 = id then (id, { e.2 with grain := g }) else e }
  | none => s.setGrainAt l g
/-- Every place of a grain: the slots that hold one, and the slates (R253). -/
def State.grainPlaces (s : State) : List Loc :=
  s.allLocs ++ s.clusters.flatMap fun e => (e.2.slates.filter fun x => x.2.weights.isEmpty).map fun x => slateLoc x.1
/-- The grain of a run-queue entry changed, when it is the one meant. -/
def RunEntry.onGrain (key : GrainKey) (f : Grain → Grain) (e : RunEntry) : RunEntry :=
  match e.kind with
  | .arrived g => if g.key == key then { e with kind := .arrived (f g) } else e
  | _ => e
/-- The entries of a core's run queue, with the one the spill engine has taken (R251). -/
def Core.entries (c : Core) : List RunEntry := c.runQ ++ (c.filling.map Prod.snd).toList
/-- The entry holds the grain of a key. -/
def RunEntry.holds (key : GrainKey) (e : RunEntry) : Bool :=
  match e.kind with
  | .arrived g => g.key == key
  | _ => false
/-- A message to a grain finds it wherever it is: in a slot, which then looks again, in a slate, on its way, or in a run queue; none before
it begins and after it ends (R253, R326). -/
def State.toGrain (s : State) (key : GrainKey) (f : Grain → Grain) : Option State :=
  match s.grainPlaces.find? fun l => ((grainOf s l).map Grain.key) == some key with
  | some l => (grainOf s l).map fun g => (putGrain s l (f g)).wakeFrom .forwarded l
  | none =>
    if s.clusters.any (fun e => e.2.packets.any fun p => p.grain.key == key)
        || s.cores.any fun e => e.2.entries.any (RunEntry.holds key) then
      some { s with
        clusters := s.clusters.map fun e =>
          (e.1, { e.2 with packets := e.2.packets.map fun p => if p.grain.key == key then { p with grain := f p.grain } else p })
        cores := s.cores.map fun e =>
          (e.1, { e.2 with runQ := e.2.runQ.map (RunEntry.onGrain key f), filling := e.2.filling.map fun x => (x.1, x.2.onGrain key f) }) }
    else none

/-! ### Replicas (R326-R328) -/

/-- The stop of R259 at every core of some clusters. -/
def stopEvents (h : Nat) (gids : List Nat) : List Event :=
  gids.flatMap fun g => (List.range 16).map fun k => .launchStopAtCore h (g * 32 + k)

/-- Remote watches that agents outside the launch hold on replica-group addresses leave the old primary's ports, wherever their grains are,
and are inserted at the new primary's (R323, R328). -/
def moveWatches (s : State) (h old new : Nat) : State :=
  let l := s.launch h
  let moves := fun (g : Grain) (w : Watch) => g.launch != h && w.armed && (l.allot.take l.perReplica).contains w.named
    && inHomeSegs l (w.addr % 2 ^ 38) && w.addr / 2 ^ 38 == replicaMap l old w.named
  s.grainPlaces.foldl (fun s loc => match grainOf s loc with
    | none => s
    | some g =>
      (List.finRange 5).foldl (fun s r =>
        let w := g.watches[r]
        if !moves g w then s
        else
          let c := s.cluster (w.addr / 2 ^ 38)
          let s := s.setCluster (w.addr / 2 ^ 38) { c with watchTab := c.watchTab.filter fun e => !(e.waiter == loc && e.reg == r) }
          let g := (grainOf s loc).getD g
          let w' := { w with addr := replicaMap l new w.named * 2 ^ 38 + w.addr % 2 ^ 38, polling := false }
          (putGrain s loc { g with watches := g.watches.set r w' }).dueOnce (.remoteWatchInsert loc r)) s) s

/-- The external updates that the grains of a replica have compared: those of the grains it still has, wherever they are. -/
def State.extUpdatesOf (s : State) (h r : Nat) : List Update :=
  let gs := s.grainPlaces.filterMap (grainOf s) ++ s.clusters.flatMap (fun e => e.2.packets.map (·.grain))
    ++ s.cores.flatMap fun e => e.2.entries.filterMap fun x => match x.kind with
      | .arrived g => some g
      | _ => none
  gs.flatMap fun g => if g.launch == h && g.replica == r then g.extUpdates else []
/-- A new primary sends the external updates that its grains have compared again; an owner that holds a tag does not perform it again
(R330). -/
def resendUpdates (s : State) (h r : Nat) : State :=
  (s.extUpdatesOf h r).foldl (fun s u =>
    let gid := u.req.acc.addr / 2 ^ 38
    let c := s.cluster gid
    (s.setCluster gid { c with heldUpdates := c.heldUpdates ++ [u] }).due [.remoteUpdateApply gid]) s

/-- A quarantine of replica `r` by vote or by loss (R327, R328): its cores are stopped, its clusters leave the allotment until they are
tested, and a new primary answers reads and resends external requests (R330, R331). `rank` is the rank of the grain whose comparison
decided it, of which the receipt holds the low 32 bits (R333; notes/assumptions/97.md). -/
def quarantine (s : State) (h r : Nat) (byLoss : Bool) (rank ordinal : Nat) : State :=
  let l := s.launch h
  let live := l.reps.live.filter (· != r)
  let primary := if l.reps.primary = r then live.headD 0 else l.reps.primary
  let reps := { l.reps with live, primary, quarantined := some r, byLoss,
                            decidedBy := if byLoss then 0 else rank, decidedAt := if byLoss then 0 else ordinal }
  let s := (s.setLaunch h { l with reps }).logged l.node fun x => { x with quarantines := x.quarantines + 1 }
  let s := s.due (stopEvents h (l.ownClusters r))
  let s := (l.ownClusters r).foldl (fun s gid =>
    let c := s.cluster gid
    if c.status == .enabled || c.status == .quarantined then s.setCluster gid { c with status := .quarantined, quarantines := (s.pkg (clusterNode gid)).log.poweredSec :: c.quarantines } else s) s
  let s := if l.reps.primary = r then moveWatches s h r primary else s
  let s := if l.reps.primary = r then resendUpdates s h primary else s
  s.allLocs.foldl (fun s loc =>
    let g := s.grainAt loc
    if g.launch == h && g.replica == primary then
      (s.due (g.pend.filterMap fun p => match p.kind with
        | .atomic _ _ false none => some (.excursionAtOwner loc p.id)
        | _ => none)).wakeFrom .forwarded loc
    else if g.launch == h then s.wakeFrom .forwarded loc
    else s) s

/-- The decision on the flits of one comparison (R327): proceed, a mismatch, or the minority of a vote. -/
inductive Verdict where
  | proceed
  | mismatch
  | minority (r : Nat)
  deriving DecidableEq, Repr

/-- R327's table over the replica, class and signature of each live partner. -/
def decide3 (fs : List (Nat × Nat × Word)) : Verdict :=
  match fs with
  | [a, b] => if a.2 = b.2 then .proceed else .mismatch
  | [a, b, c] =>
    if a.2 = b.2 ∧ b.2 = c.2 then .proceed
    else if a.2 = b.2 then .minority c.1
    else if a.2 = c.2 then .minority b.1
    else if b.2 = c.2 then .minority a.1
    else .mismatch
  | _ => .proceed

/-- A REPLICA_VOTE is recorded and the launch continues (R237, R259). -/
def recordVote (s : State) (h r : Nat) (where_ : Nat) : State :=
  let c := s.core (where_ / 16)
  let s := s.setCore (where_ / 16) (c.trap .replicaVote (where_ % 16) (BitVec.ofNat 64 r))
  let s := s.logged (clusterNode (coreCluster (where_ / 16))) fun x => { x with votes := x.votes + 1 }
  let l := s.launch h
  s.setLaunch h { l with voted := true }

/-- Sends this grain's flit to the live partners that have none of it yet. -/
def sendFlits (s : State) (flit : CmpFlit) : State :=
  let g := s.grain
  let left := (s.launch g.launch).reps.live.filter fun r => r != g.replica && !g.cmpSent.contains r
  (s.setGrain { g with cmpSent := g.cmpSent ++ left }).due (left.map fun r => .replicaCompareFlit ⟨g.launch, g.ident, r⟩ flit)

/-- The signature of the grain, its ordinal and flits after a comparison point. -/
def Grain.compared (g : Grain) : Grain :=
  { g with sig := 0#64, ordinal := g.ordinal + 1, cmpSent := [],
           cmpFlits := g.cmpFlits.filter fun f => f.ordinal != BitVec.ofNat 64 g.ordinal }

/-- A comparison point (R327). A launch with one live replica makes none: its signature returns to 0 (R324). -/
def compareM (cls off : Nat) (data : List Byte) : M Unit := do
  let s ← get
  let g := s.grain
  let l := s.launch g.launch
  if l.reps.live.length ≤ 1 then onGrain fun g => { g with sig := 0#64 }
  else
    let sg := sigRecord g.sig off cls data
    let flit : CmpFlit := { replica := BitVec.ofNat 2 g.replica, ordinal := BitVec.ofNat 64 g.ordinal, cls := BitVec.ofNat 8 cls, sig := sg }
    modify fun s => sendFlits s flit
    let g := (← get).grain
    let others := l.reps.live.filter (· != g.replica)
    let got := others.map fun r => g.cmpFlits.find? fun f => f.replica.toNat == r && f.ordinal == flit.ordinal
    if got.all Option.isSome then
      let fs := (g.replica, cls, sg) :: got.filterMap fun o => o.map fun f => (f.replica.toNat, f.cls.toNat, f.sig)
      match decide3 fs with
      | .mismatch => trapM .replicaMismatch (BitVec.ofNat 64 g.replica)
      | .minority r =>
        if r = g.replica then throw (Stop.parkIn (← get) .forwarded)
        else modify fun s =>
          let s := if ((s.launch g.launch).reps.quarantined).isSome then s
            else quarantine (recordVote s g.launch r (packed s.cur)) g.launch r false g.rank.toNat g.ordinal
          s.setGrain s.grain.compared
      | .proceed => onGrain Grain.compared
      modify fun s =>
        let l := s.launch g.launch
        s.setLaunch g.launch { l with reps := { l.reps with points := l.reps.points.set g.replica (l.reps.points.getD g.replica 0 + 1) } }
    else
      parkKeep .forwarded

/-- A release point: the waits, then the comparison of a replicated launch (R281, R327). The offset is already replica-relative. -/
def releaseM (sc : Scope) (cls off : Nat) (data : List Byte) : M Unit := do
  releaseWaitsM sc
  compareM cls off data

/-- The replica-relative offset of an address for the grain whose turn it is. -/
def sigOffM (addr : Nat) : M Nat := do
  let s ← get
  pure (sigOffset (s.launch s.grain.launch) s.grain.replica addr)

/-- An address on a cluster outside the replica's own allotment, in a replicated launch (R322, R327). -/
def outsideReplica (s : State) (addr : Nat) : Bool :=
  let l := s.launch s.grain.launch
  decide (2 ≤ l.reps.count) && !(l.ownClusters s.grain.replica).contains (addr / 2 ^ 38)

/-! ### The run queue and the spill engine (R251, R252, R383) -/

/-- The highest class present; a lower code is a higher class (R239, R244). -/
def bestEntry (s : State) (k : Nat) : Option RunEntry :=
  let c := s.core k
  let ok := fun (e : RunEntry) => match e.kind with
    | .spilled id => match PMap.get? id (s.cluster (coreCluster k)).slates with
      | some x => match x.tile with
        | some (t, _) => (c.tiles[t]).owner.isNone
        | none => true
      | none => false
    | _ => true
  (List.range 4).findSome? fun cls => c.runQ.find? fun e => e.cls.toNat == cls && ok e

/-- The spill engine of a core's cluster is idle (R4, R252): it spills or fills one slot of the cluster at a time. -/
def State.engineIdle (s : State) (k : Nat) : Bool :=
  (List.range 16).all fun i =>
    let c := s.core (coreCluster k * 32 + i)
    c.spilling.isNone && c.filling.isNone
/-- A grain waits for the reload of a weight slot, or has not seen that it failed (R298). -/
def reloads (s : State) (l : Loc) : Bool := (s.core l.core).wslots.toList.any fun x => x.reload.contains l.slot || x.failed.contains l.slot
/-- A grain may be evicted: no outstanding result but pending waits, an idle sequencer, no store of its own on its way, no page fault, no
fault, no packet on its way, not in monitor mode, no operation at the array, no reload of a weight slot, no pair record whose headers are still read (R40, R178, R229,
R253, R254, R278, R297). -/
def evictable (s : State) (l : Loc) : Bool :=
  let sl := s.slotAt l
  let g := sl.grain
  (match sl.st with
   | .parked .array | .parked .pageFault => false
   | .parked w => !w.held
   | .ready | .gated => true
   | _ => false)
    && g.pend.all (fun p => p.kind.isWait) && !g.seqBusy && !reloads s l && !s.storesPending l && !s.arrayBusy l && g.taken.isNone
/-- A queued grain of the same or a higher class, whether or not it can be filled now (R119, R252). -/
def queuedFor (s : State) (l : Loc) : Bool := (s.core l.core).runQ.any fun e => decide (e.cls.toNat ≤ (s.grainAt l).cls.toNat)

/-- The slice of a slot has expired (R252): noted, or its count has come and the queue holds such a grain. -/
def lapsed (s : State) (l : Loc) : Bool :=
  (s.slotAt l).occupied && ((s.slotAt l).expired || (decide ((s.slotAt l).sliceEnd ≤ (s.core l.core).cycle) && queuedFor s l))
/-- The expired slots of a core are noted, before its queue changes with the clk their counts came at, after a grain has joined it (`joined`)
with the clk of now: the order of expiry (R252). -/
def noteExpiry (s : State) (k : Nat) (joined : Bool) : State :=
  let c := s.core k
  let note := fun (i : Fin 16) (sl : Slot) =>
    if lapsed s ⟨k, i⟩ && !sl.expired then { sl with expired := true, sliceEnd := if joined then c.cycle else sl.sliceEnd } else sl
  s.setCore k { c with slots := Vector.ofFn fun i => note i c.slots[i] }
/-- Entries join the tail of a core's run queue (R251). -/
def joinQueue (s : State) (k : Nat) (es : List RunEntry) : State :=
  let s := noteExpiry s k false
  let c := s.core k
  noteExpiry (s.setCore k { c with runQ := c.runQ ++ es }) k true
/-- Starts a spill (R252): the grain leaves the rotation. -/
def startSpill (s : State) (l : Loc) : State :=
  let c := s.core l.core
  let s := s.setCore l.core { c with spilling := some l.slot }
  let sl := s.slotAt l
  let s := s.setSlot l { sl with st := .parked .slot }
  s.due [.spillComplete l]

/-- Begins to fill a slot (R251, R383): the entry leaves the queue, and a spilled grain claims its tile. -/
def startFill (s : State) (l : Loc) (e : RunEntry) : State :=
  let s := noteExpiry s l.core false
  let c := s.core l.core
  let tile := match e.kind with
    | .spilled id => ((PMap.get? id (s.cluster (coreCluster l.core)).slates).bind (·.tile)).map Prod.fst
    | _ => none
  let s := s.setCore l.core { c with
    filling := some (l.slot, e), runQ := c.runQ.erase e
    slots := c.slots.set l.slot { c.slots[l.slot] with st := .filling }
    tiles := match tile with
      | some t => c.tiles.set t { c.tiles[t] with owner := some l.slot }
      | none => c.tiles }
  s.due [.fillComplete l]
/-- The expired slot of a core that is spilled next: the earliest expiry of those whose grain can be evicted (R252). -/
def expiredVictim (s : State) (k : Nat) : Option (Fin 16) :=
  let c := s.core k
  match (List.finRange 16).filter fun i => lapsed s ⟨k, i⟩ && evictable s ⟨k, i⟩ && queuedFor s ⟨k, i⟩ with
  | [] => none
  | i :: rest => some (rest.foldl (fun b j => if c.slots[j].sliceEnd < c.slots[b].sliceEnd then j else b) i)
/-- What the spill engine would do for a core (R251, R252): fill an empty slot, else spill an expired one. -/
def engineWork (s : State) (k : Nat) : Option (Loc × Option RunEntry) :=
  let c := s.core k
  if !(c.status == .running || c.status == .closing) then none
  else match (List.finRange 16).find? (fun i => c.slots[i].st == .empty), bestEntry s k with
    | some i, some e => some (⟨k, i⟩, some e)
    | _, _ => (expiredVictim s k).map fun i => (⟨k, i⟩, none)
/-- What the spill engine of a core's cluster does next: the core itself comes first, and otherwise any core that has work for it
(notes/assumptions/53.md). -/
def engineNext (s : State) (k : Nat) : State :=
  if !s.engineIdle k then s
  else
    let cores := k :: (List.range 16).map (coreCluster k * 32 + ·)
    match cores.findSome? (engineWork s) with
    | some (l, some e) => startFill s l e
    | some (l, none) => startSpill s l
    | none => s

/-- Empties a slot; the spill engine may fill it (R251). -/
def vacate (s : State) (l : Loc) : State :=
  let c := s.core l.core
  engineNext (s.setCore l.core { c with slots := c.slots.set l.slot Slot.blank }) l.core

/-- Places a grain in an empty slot of a core and starts its slice count (R252, R254). -/
def placeAt (s : State) (l : Loc) (g : Grain) : State :=
  let c := s.core l.core
  s.setSlot l { st := .ready, grain := g, since := c.cycle, sliceEnd := c.cycle + c.sliceCycles.toNat, lastIssue := none, msave := none,
                expired := false, invDone := false }
/-- An arriving grain takes an empty slot, else the tail of its class in the run queue; a full queue refuses it (R254). -/
def arrive (s : State) (k : Nat) (g : Grain) : Option (State × Option Loc) :=
  let c := s.core k
  if c.status != .running then none
  else match (List.finRange 16).find? fun i => c.slots[i].st == .empty with
    | some i => some (placeAt s ⟨k, i⟩ g, some ⟨k, i⟩)
    | none =>
      if c.runQ.length < 64 then
        some (joinQueue s k [{ kind := .arrived g, cls := g.cls, launch := g.launch }], none)
      else none

/-- The first waiter of a tile looks again (R202). -/
def wakeTile (s : State) (k : Nat) (t : Fin 4) : State :=
  match ((s.core k).tiles[t]).waiters with
  | w :: _ => (coreLocs k).foldl (fun s l => if (s.slotAt l).occupied && (s.grainAt l).key == w then s.wakeFrom .tile l else s) s
  | [] => s
/-- Frees the tiles of a slot (R202, R203). -/
def freeTiles (s : State) (l : Loc) : State :=
  let c := s.core l.core
  let freed := (List.finRange 4).filter fun t => (c.tiles[t]).owner == some l.slot
  let s := s.setCore l.core { c with tiles := c.tiles.map fun t => if t.owner == some l.slot then { t with owner := none } else t }
  freed.foldl (fun s t => wakeTile s l.core t) s
/-- Splits a gang: the odd halves are lost, the odd slot is free (R199). A fault has cleared Ganged before (R23). -/
def splitGang (s : State) (l : Loc) : State :=
  let g := s.grainAt l
  if gangedOf g.pw || (s.slotAt ⟨l.core, l.slot + 1⟩).st == .oddHalf then
    let s := s.setGrainAt l { g with pw := setBit g.pw 46 false, vh := Vector.replicate 16 0#128 }
    vacate s ⟨l.core, l.slot + 1⟩
  else s

/-! ### Slates (R253, R382, R383) -/

/-- The number a save address of a cluster goes by among its slates. -/
def saveKey (gid addr : Nat) : Nat := gid * 2 ^ 48 + 2 ^ 47 + addr % 2 ^ 38 / 2048
/-- The number of a free slate among the 80 of a core in its cluster's pool (R382); of the 64 of its run queue and 16 of its slots one is
always free. -/
def poolKey (s : State) (core : Nat) : Nat :=
  let gid := coreCluster core
  let first := gid * 2 ^ 48 + 80 * coreIndex core
  first + ((List.range 80).find? fun i => (PMap.get? (first + i) (s.cluster gid).slates).isNone).getD 79
/-- The place in its channel of a slate of the pool, 2.5 MiB that the prefect reserves at boot (R382). -/
def poolPlace (key : Nat) : Nat :=
  hbmKey (key / 2 ^ 48) (Config.slatePool (key / 2 ^ 48) % (2 ^ 31 - 2621440) / 2048 * 2048 + 2048 * (key % 2 ^ 48))
/-- Adds a slate. -/
def State.setSlate (s : State) (gid key : Nat) (x : Slate) : State :=
  let c := s.cluster gid
  s.setCluster gid { c with slates := PMap.set key x c.slates }
/-- Page waits of a slot's transfer units end with their work: at a spill, which restarts them later, when the grain leaves, and at an
SUNBIND (R383, R121, R217). -/
def dropStreamWaits (s : State) (l : Loc) (which : Fin 4 → Bool) : State :=
  let trim := fun (e : FaultEntry) => { e with waiters := e.waiters.filter fun w => match w with
    | .stream l' n => !(l' == l && which n)
    | _ => true }
  { s with clusters := s.clusters.map fun e => (e.1, { e.2 with faults := e.2.faults.map trim, faultWait := e.2.faultWait.map trim }) }
/-- Saves the grain of a slot under a number and frees its tile (R383 steps 1 to 3): a gang is split, fetched stream elements are
discarded, and watch entries and wakes follow the grain. The slot itself is not yet freed. -/
def saveGrain (s : State) (l : Loc) (key : Nat) (image : List Byte) : State :=
  let s := splitGang s l
  let g := s.grainAt l
  let g := { g with streams := g.streams.map fun st => if st.output then st else { st with fetched := [], walked := st.pos } }
  let tile := (List.finRange 4).findSome? fun t =>
    if ((s.core l.core).tiles[t]).owner == some l.slot then some (t, ((s.core l.core).tiles[t]).data) else none
  let s := s.setSlate (coreCluster l.core) key { grain := g, tile, weights := [], image }
  freeTiles (renameLoc (dropStreamWaits s l fun _ => true) l (slateLoc key)) l
/-- Its tile is free, so that the grain of a slate can take it back (R27, R383). -/
def tileFree (s : State) (k : Nat) (x : Slate) : Bool :=
  match x.tile with
  | some (t, _) => ((s.core k).tiles[t]).owner.isNone
  | none => true
/-- Puts the grain of a slate into a slot (R253, R383): its tile is claimed again, watches and waits resume. -/
def restoreGrain (s : State) (l : Loc) (key : Nat) (x : Slate) : State :=
  let gid := coreCluster l.core
  let c := s.cluster gid
  let s := s.setCluster gid { c with slates := PMap.erase key c.slates }
  let q := s.core l.core
  let s := match x.tile with
    | some (t, d) => s.setCore l.core { q with tiles := q.tiles.set t { q.tiles[t] with owner := some l.slot, data := d } }
    | none => s
  let s := renameLoc (placeAt s l x.grain) (slateLoc key) l
  let s := (List.finRange 4).foldl (fun s n =>
    if (x.grain.streams[n]).bound && !(x.grain.streams[n]).output then s.dueOnce (.inputStreamFetch l n) else s) s
  x.grain.pend.foldl (fun s p => s.dueOnce (.longLatencyResult l p.id)) s
/-- A segment as a launch page and a slate hold it. -/
def Seg.bytes (d : Seg) : List Byte := leBytes 8 d.w0.toNat ++ leBytes 8 d.w1.toNat ++ leBytes 8 d.w2.toNat
/-- A pending wait as a slate holds it (R382). -/
def waitBytes (p : Pend) (woken : Bool) : List Byte :=
  let pack := fun (kind d c from_ : Nat) =>
    leBytes 1 kind ++ leBytes 1 d ++ leBytes 1 c ++ leBytes 1 (if woken then 1 else 0) ++ leBytes 4 0 ++ leBytes 8 from_
  match p.kind with
  | .seqwait _ d _ sc => pack 1 d.toNat (scopeNum sc).val 0
  | .waitw d m => pack 2 d.toNat m.toNat 0
  | .recv d ch none => pack 3 d.toNat ch.toNat 0
  | .recv d ch (some n) => pack 4 d.toNat ch.toNat n
  | _ => []
/-- The pending waits of a slate (R253, R382): operations that wait, a barrier it has arrived at, an RWPOP (`pop`). -/
def waitsOf (g : Grain) (pop : Bool) : List Byte :=
  let woken := fun (p : Pend) => match p.kind with
    | .seqwait .. => (g.watches[(0 : Fin 5)]).fired
    | .waitw _ m => (List.range 4).any fun i => m.getLsbD i && (g.watches.toList.getD (i + 1) Watch.off).fired
    | _ => false
  let ops := (g.pend.filter fun p => p.kind.isWait).map fun p => waitBytes p (woken p)
  let bar := match g.barrier with
    | some b => [leBytes 1 5 ++ leBytes 1 0 ++ leBytes 1 (scopeNum b.sc).val ++ List.replicate 13 0#8]
    | none => []
  let rw := if pop then [leBytes 1 6 ++ List.replicate 15 0#8] else []
  ((ops ++ bar ++ rw).take 4).flatten
/-- A signed stride of a pattern record (R215). -/
def strideBytes (x : Int) : List Byte := leBytes 4 (BitVec.ofInt 32 x).toNat
/-- A transfer unit as a slate holds it: its pattern record with the base resolved, then its position (R215, R382). -/
def streamBytesOf (st : Stream) : List Byte :=
  if !st.bound then List.replicate 40 0#8
  else leBytes 8 st.base ++ leBytes 2 st.c0 ++ leBytes 2 st.c1 ++ leBytes 2 st.c2 ++ leBytes 2 (if st.output then 1 else 0)
    ++ strideBytes st.s0 ++ strideBytes st.s1 ++ strideBytes st.s2 ++ leBytes 4 0 ++ leBytes 8 st.pos
/-- The plaintext of a slate (R382). -/
def slateBytes (g : Grain) (tile : Option (Fin 4 × List (BitVec 32))) (pop : Bool) : List Byte :=
  let priv := (List.finRange 8).foldl (fun n i => n + (if (g.sg[i]).priv then 2 ^ i.val else 0)) 0
  let owns := match tile with
    | some (t, _) => 2 ^ 14 + 2 ^ 15 * t.val
    | none => 0
  let waits := waitsOf g pop
  let flagsOf := (List.finRange 5).foldl (fun n i =>
    n + (if (g.watches[i]).armed then 2 ^ i.val else 0) + (if (g.watches[i]).fired then 2 ^ (i.val + 5) else 0)) 0
  leBytes 8 g.pc.toNat ++ g.g.toList.flatMap (fun x => leBytes 8 x.toNat) ++ leBytes 8 (setBit g.pw 46 false).toNat ++ leBytes 8 g.sig.toNat
    ++ leBytes 8 (g.ctx.toNat + 2 ^ 12 * g.cls.toNat + owns + 2 ^ 17 * priv) ++ leBytes 8 g.segSet.toNat ++ leBytes 8 g.home
    ++ leBytes 8 g.rank.toNat ++ leBytes 4 g.spawns ++ leBytes 4 g.rupds ++ g.epochs.toList.flatMap (leBytes 4) ++ leBytes 8 g.ordinal
    ++ leBytes 4 0 ++ g.watches.toList.flatMap (fun w => leBytes 8 w.addr ++ leBytes 8 w.thr.toNat)
    ++ waits ++ List.replicate (64 - waits.length) 0#8 ++ g.streams.toList.flatMap streamBytesOf ++ leBytes 32 flagsOf
    ++ g.v.toList.flatMap (fun x => leBytes 16 x.toNat) ++ g.sg.toList.flatMap (fun d => if d.priv then d.bytes else List.replicate 24 0#8)
    ++ List.replicate 64 0#8 ++ match tile with
      | some (_, d) => (List.range 256).flatMap fun k => leBytes 4 (d.getD k 0#32).toNat
      | none => []
/-- A weight record of 16 bytes (R232): source, length, context, state. -/
def WSlot.bytes (x : WSlot) : List Byte :=
  leBytes 8 x.source ++ leBytes 2 x.length ++ leBytes 2 x.ctx.toNat
    ++ leBytes 1 (match x.st with
      | .valid => 1
      | .invalidated => 2
      | _ => 0) ++ leBytes 3 0
/-- The plaintext of a weight save: the eight records. -/
def weightBytes (xs : List WSlot) : List Byte := ((xs.flatMap WSlot.bytes) ++ List.replicate 1024 0#8).take 1024
/-- Puts bytes over those at an offset. -/
def patchBytes (bs : List Byte) (off : Nat) (new : List Byte) : List Byte := bs.take off ++ new ++ bs.drop (off + new.length)
/-- The key of a context's saves, for slates (0) or weight saves (1) (R392): what it is derived from the spec does not say. -/
def saveKeyOf (ctx : BitVec 12) (purpose : Nat) : BitVec 256 := (Config.derived 8 [ctx.toNat, purpose]).setWidth 256
/-- The sealed image of a save (R392): the ciphertext of its layout, with the tag in bytes 960 to 975 and the version in bytes 976 to 983. -/
def sealedImage (ctx : BitVec 12) (purpose ver : Nat) (text : List Byte) : List Byte :=
  let x := sealBytes (saveKeyOf ctx purpose) (sealNonce ctx ver) [] text
  patchBytes ((x.drop 12).take text.length) 960 (x.drop (12 + text.length) ++ leBytes 8 ver)
/-- The version of a core's next save, and the core's counter after it (R392). -/
def nextVersion (s : State) (core : Nat) : Nat × State :=
  let gid := coreCluster core
  let c := s.cluster gid
  let ver := (PMap.get? core c.sramVersion).getD 0#64
  (ver.toNat, s.setCluster gid { c with sramVersion := PMap.set core (ver + 1#64) c.sramVersion })

/-- Writes the sealed image of a grain to a slate of the pool (R383 step 3, R392): the core's version goes up. -/
def sealPool (s : State) (core key : Nat) (ctx : BitVec 12) (text : List Byte) : List Byte × State :=
  let (ver, s) := nextVersion s core
  let image := sealedImage ctx 0 ver text
  let whole := (List.range (text.length / 32)).map (poolPlace key / 32 + ·)
  (image, { s with mem := s.mem.writeBytes (poolPlace key) image, poison := s.poison.filter fun l => !whole.contains l })
/-- The plaintext of the slate of a slot's grain (R382). -/
def slateOfSlot (s : State) (l : Loc) : List Byte :=
  let tile := (List.finRange 4).findSome? fun t =>
    let y := (s.core l.core).tiles[t]
    if y.owner == some l.slot then some (t, y.data) else none
  slateBytes (s.grainAt l) tile (s.agenda.contains (.stealRetryTimer l))
/-- The slate of the pool still is what was written there (R392). -/
def poolIntact (s : State) (key : Nat) (x : Slate) : Bool :=
  s.mem.bytes (poolPlace key) x.image.length == x.image
    && !(List.range (x.image.length / 32)).any fun i => s.poison.contains (poolPlace key / 32 + i)

/-- A launch whose last grain, update and command is gone is complete (R258). -/
def checkDone (s : State) (h : Nat) : State :=
  let l := s.launch h
  if l.live = 0 && l.st == .running
      && !s.clusters.any (fun e => e.2.allUpdates.any (fun u => u.req.launch == h) || e.2.packets.any (fun p => p.grain.launch == h)
          || e.2.cmds.any (fun c => c.launch == h && c.st != .done) || e.2.farFrees.any (fun f => f.launch == h)) then
    s.dueOnce (.launchComplete h)
  else s

/-! ### Barriers (R157, R158) -/

/-- Launch-time ranks of a unit. -/
def groupRanks (l : Launch) (r : Nat) (sc : Scope) (unit : Nat) : List Nat :=
  (List.range l.total).filter fun k => scopeUnit sc (l.coreOf r k) == unit
/-- The number a group instance goes by: unit and replica. -/
def groupUnit (r unit : Nat) : Nat := unit * 4 + r
/-- Members that have exited count as arrived (R157). -/
def groupComplete (l : Launch) (r : Nat) (sc : Scope) (unit : Nat) (arrived : List Nat) : Bool :=
  (groupRanks l r sc unit).all fun k => arrived.contains k || l.exited.contains (k * 4 + r)
/-- The cores of a group in order (R158). -/
def groupCores (l : Launch) (r : Nat) (sc : Scope) (unit : Nat) : List Nat :=
  sortBy (fun a b => decide (a ≤ b)) ((groupRanks l r sc unit).map (l.coreOf r)).dedup
/-- Releases every group whose members have all arrived: a resume is due at each of its cores. -/
def releaseGroups (s : State) (h : Nat) : State :=
  let l := s.launch h
  let ready := l.barriers.filter fun b =>
    b.releasedTo.isEmpty && groupComplete l (b.unit % 4) b.sc (b.unit / 4) b.arrived
  ready.foldl (fun s b => s.due ((groupCores l (b.unit % 4) b.sc (b.unit / 4)).filterMap fun k =>
    if s.agenda.contains (.barrierStaggerResume h b.sc k) then none else some (.barrierStaggerResume h b.sc k))) s

/-! ### The end of a grain (R118) -/

/-- Removes a grain that has ended on a cluster from the accounts of its launch. -/
def retireGrain (s : State) (gid : Nat) (g : Grain) : State :=
  let l := s.launch g.launch
  let id := g.ident * 4 + g.replica
  let s := s.setLaunch g.launch
    { l with live := l.live - 1, exited := if g.spawned then l.exited else l.exited ++ [id]
             exitedAt := if g.spawned then l.exitedAt else PMap.set id gid l.exitedAt }
  checkDone (releaseGroups s g.launch) g.launch

/-- Watch-table entries of a waiter are removed (R273). -/
def dropWaiter (s : State) (l : Loc) : State :=
  { s with
    agenda := s.agenda.filter fun e => match e with
      | .remoteWatchWake w _ _ => w != l
      | .remoteWatchInsert w _ => w != l
      | .watchPollTimer w _ => w != l
      | _ => true
    clusters := s.clusters.map fun e => (e.1, { e.2 with watchTab := e.2.watchTab.filter fun w => w.waiter != l }) }

/-- The grain in a slot ends: its tiles, gang and slot are freed (R118 steps 4 and 5). -/
def endGrain (s : State) (l : Loc) : State :=
  let g := s.grainAt l
  let s := splitGang (freeTiles (dropStreamWaits (dropWaiter s l) l fun _ => true) l) l
  retireGrain (vacate s l) (coreCluster l.core) g

/-! ### Migration (R121, R147) -/

/-- The core an address draws work to (R146). -/
def targetCore (addr : Nat) : Nat :=
  let a := addr % 2 ^ 38
  addr / 2 ^ 38 * 32 + (if a < 0x200000 then a / 0x20000 else a / 4096 % 16)

/-- Why a migration is refused (R19, R237). -/
def migrateDenied (s : State) (target : Nat) : Option Nat :=
  let g := s.grain
  if vdirtyOf g.pw then some 0
  else if sdirtyOf g.pw then some 1
  else if s.curCore.tiles.toList.any (fun t => t.owner == some s.cur.slot) then some 2
  else if gangedOf g.pw then some 3
  else if g.anyPrivate then some 4
  else if outsideReplica s (coreCluster target * 2 ^ 38) then some 5
  else none

/-- What a migration packet carries (R19, R147): the rest of the grain is as at its start. -/
def Grain.packet (g : Grain) : Grain :=
  { Grain.blank with pc := g.pc, g := g.g, pw := g.pw, sg := g.sg, segSet := g.segSet, ctx := g.ctx, cls := g.cls, launch := g.launch,
                     rank := g.rank, stage := g.stage, sheaf := g.sheaf, ear := g.ear, index := g.index, replica := g.replica,
                     home := g.home, created := g.created, spawned := g.spawned, ident := g.ident, spawns := g.spawns,
                     rupds := g.rupds, sig := g.sig, ordinal := g.ordinal, ndCount := g.ndCount, epochs := g.epochs,
                     nextOp := g.nextOp, sends := g.sends, recvs := g.recvs, pair := g.pair, forwarded := g.forwarded,
                     cmpSent := g.cmpSent, cmpFlits := g.cmpFlits, windows := g.windows, extUpdates := g.extUpdates }

/-- The waits of R40 before a grain leaves or ends: every result, and the sequencer (R178). DEDUCED: an outstanding SEQWAIT, WAITW, RECV or
RECVS is waited for as well (notes/assumptions/69.md). -/
def quietM : M Unit := do
  let g ← grainM
  parkWhen (!g.pend.isEmpty) .drain
  parkWhen g.seqBusy .sequencer

/-- Sends the grain to another core (R147 steps 5 and 6): it keeps its slot until the target accepts it. Its stores to windows are written
back where they were made, so that a release at the new place finds them performed at system scope (R279, R281, R289). -/
def departM (target addr : Nat) : M Unit := do
  modify fun s =>
    let s := writeBack s s.here
    let p : Packet := { target, addr, sender := packed s.cur, grain := s.grain.packet, source := some s.cur }
    let c := s.cluster s.here
    let s := s.setCluster s.here { c with packets := c.packets ++ [p] }
    (s.parkCur .arrival).due [.migrationArrival s.cur]

/-- Moves the grain to a core, after its waits (R121, R147). -/
def migrateM (target addr : Nat) : M Unit := do
  let s ← get
  match migrateDenied s target with
  | some k => trapM .migrateDenied (BitVec.ofNat 64 k)
  | none => if target = s.cur.core then pure () else departM target addr

/-! ### Grains at their start (R19, R149) -/

/-- The cluster-local address of a launch's page on a core (R245). -/
def pageAddr (s : State) (h core : Nat) : Nat :=
  let c := s.core core
  coreIndex core * 0x20000 + (PMap.get? h c.partitions).getD 0 * (scratchSize c.l1Split / 4)

/-- A launch-time grain (R19, R240). -/
def startGrain (s : State) (h r rank : Nat) : Grain :=
  let l := s.launch h
  let (f, st, e, i) := l.indices rank
  let core := l.coreOf r rank
  { Grain.blank with
    pc := l.entry
    g := (Vector.replicate 10 0#64 |>.set 0 (BitVec.ofNat 64 rank)).set 1 (BitVec.ofNat 64 (pageAddr s h core))
    sg := l.segs, segSet := BitVec.ofNat 64 h, ctx := l.ctx, cls := l.cls, launch := h, rank := BitVec.ofNat 64 rank,
    stage := BitVec.ofNat 64 st, sheaf := BitVec.ofNat 64 f, ear := BitVec.ofNat 64 e, index := BitVec.ofNat 64 i, replica := r,
    home := packed ⟨core, ⟨l.slotOf r rank % 16, Nat.mod_lt _ (by decide)⟩⟩, created := core, ident := rank }

/-- A grain that SPAWN creates (R149). -/
def childGrain (s : State) (pc g0 : Word) (target : Nat) : Grain :=
  let g := s.grain
  { Grain.blank with
    pc
    g := ((Vector.replicate 10 0#64 |>.set 0 g0).set 1 (BitVec.ofNat 64 (pageAddr s g.launch target))).set 2 (g.reg 2)
    sg := (s.launch g.launch).segs, segSet := g.segSet, ctx := g.ctx, cls := (s.launch g.launch).cls, launch := g.launch,
    rank := g.rank, stage := g.stage, sheaf := g.sheaf, ear := g.ear, index := g.index, replica := g.replica, home := g.home,
    created := target, spawned := true, ident := childIdent g.ident g.spawns false, epochs := g.epochs }

end Sys2Proof.Machine
end

