-- ==== Sys2Proof/Machine/Ctl.lean ====
section
/-! DEFINITION. Branches, jumps and grain control: major CTL and BR (spec/04_scalar_and_control_instructions.md R115-R126). -/

namespace Sys2Proof.Machine

/-- Sets the PC of the grain whose turn it is. -/
def jumpM (pc : Word) : M Unit := onGrain fun g => { g with pc := pc }
/-- The target of a relative transfer (R116). -/
def pcRel (pc : Word) (off : Int) : Word := pcAdd pc (2 * off)
/-- pc_target (R116). -/
def pcTarget (r : Word) : M Word :=
  if r.getLsbD 0 then trapM .misaligned (segInfo r) else pure (0x0800000000000000#64 ||| (r &&& 0x007FFFFFFFFFFFFF#64))
/-- The link register (R20). -/
def linkReg : Nat := 9

/-- BR (R115): its predicate is its guard. -/
def execBr (a : BrArgs) (s : State) : Host.Outcome State Fault Refusal :=
  issue (.br a) (some ⟨a.p, a.neg⟩) (Touch.of []) (fun pc => jumpM (pcRel pc (a.off.val true))) s
/-- JMP. -/
def execJmp (a : JmpArgs) (s : State) : Host.Outcome State Fault Refusal :=
  issue (.jmp a) a.gd (Touch.of []) (fun pc => jumpM (pcRel pc (a.off.val true))) s
/-- JMPR. -/
def execJmpr (a : JregArgs) (s : State) : Host.Outcome State Fault Refusal :=
  issue (.jmpr a) a.gd (Touch.of (regRes a.r)) (fun _ => do
    let t ← pcTarget ((← grainM).reg a.r.toNat)
    jumpM t) s
/-- CALL: g9 is the PC of the next instruction. -/
def execCall (a : JmpArgs) (s : State) : Host.Outcome State Fault Refusal :=
  issue (.call a) a.gd (Touch.of [.g 9#4]) (fun pc => do
    onGrain fun g => g.setReg linkReg g.pc
    jumpM (pcRel pc (a.off.val true))) s
/-- CALLR: waits for every outstanding result, and reads its register before it writes g9. -/
def execCallr (a : JregArgs) (s : State) : Host.Outcome State Fault Refusal :=
  issue (.callr a) a.gd (Touch.of (regRes a.r ++ [.g 9#4])) (fun _ => do
    parkWhen (!(← grainM).pend.isEmpty) .drain
    let t ← pcTarget ((← grainM).reg a.r.toNat)
    onGrain fun g => g.setReg linkReg g.pc
    jumpM t) s
/-- RET. -/
def execRet (a : CtlArgs) (s : State) : Host.Outcome State Fault Refusal :=
  issue (.ret a) a.gd (Touch.of [.g 9#4]) (fun _ => do
    let t ← pcTarget ((← grainM).reg linkReg)
    jumpM t) s
/-- NOP (R120). -/
def execNop (a : CtlArgs) (s : State) : Host.Outcome State Fault Refusal :=
  issue (.nop a) a.gd (Touch.of []) (fun _ => pure ()) s
/-- LOOP (R117). -/
def execLoop (a : LoopArgs) (s : State) : Host.Outcome State Fault Refusal :=
  issue (.loop a) a.gd (Touch.of (regRes a.g)) (fun pc => do
    let n := (← grainM).reg a.g.toNat - 1#64
    onGrain fun g => g.setReg a.g.toNat n
    if n ≠ 0#64 then jumpM (pcRel pc (a.off.val true))) s

/-- Unbinds every stream and discards unread input (R118). -/
def Grain.unbindAll (g : Grain) : Grain :=
  { g with streams := Vector.replicate 4 Stream.unbound, pw := setBit g.pw 45 false }
/-- The steps of EXIT (R118). -/
def exitM : M Unit := do
  quietM
  releaseM .system 21 0 []
  onGrain Grain.unbindAll
  modify fun s => endGrain s s.cur
/-- EXIT (R118). -/
def execExit (a : CtlArgs) (s : State) : Host.Outcome State Fault Refusal :=
  issue (.exit a) a.gd (Touch.of []) (fun _ => exitM) s
/-- YIELD (R119). -/
def execYield (a : CtlArgs) (s : State) : Host.Outcome State Fault Refusal :=
  issue (.yield a) a.gd (Touch.of []) (fun _ => do
    quietM
    let s ← get
    if queuedFor s s.cur then
      parkWhen (s.storesPending s.cur) .drain
      if !s.engineIdle s.cur.core then parkOn .drain [retryEvent s.cur]
      modify fun s => startSpill s s.cur) s
/-- RHOME (R121). -/
def execRhome (a : CtlArgs) (s : State) : Host.Outcome State Fault Refusal :=
  issue (.rhome a) a.gd (Touch.of []) (fun _ => do
    quietM
    let s ← get
    let g := s.grain
    let home := if g.spawned then g.created else (unpackLoc g.home).core
    if home ≠ s.cur.core then
      parkWhen (s.storesPending s.cur) .drain
      migrateM home (coreCluster home * 2 ^ 38 + coreIndex home * 0x20000)) s

/-- GETID (R92, R123). -/
def getidValue (s : State) (sel : BitVec 3) : Word :=
  let g := s.grain
  match sel.toNat with
  | 0 => BitVec.ofNat 64 (packed s.cur)
  | 1 => g.rank
  | 2 => g.stage
  | 3 => g.sheaf
  | 4 => g.ear
  | 5 => g.index
  | _ => g.ctx.setWidth 64
/-- GETID. -/
def execGetid (a : GetidArgs) (s : State) : Host.Outcome State Fault Refusal :=
  issue (.getid a) a.gd (Touch.of (regRes a.d)) (fun pc => do dstM pc a.d (getidValue (← get) a.sel)) s

/-- CLOCK's value (R124). -/
def clockM : M Word := do return BitVec.ofNat 64 (← get).curCore.cycle
/-- RAND's value (R125): the grain parks until one is ready. -/
def randM : M Word := do
  let s ← get
  match s.curCore.randReady with
  | some v =>
    onCore fun c => { c with randReady := none, randAt := some c.cycle }
    pure v
  | none =>
    if s.agenda.any (fun e => match e with
      | .randValueReady k _ => k == s.cur.core
      | _ => false) then parkM .entropy
    else parkOn .entropy [.randValueReady s.cur.core (Config.freeWord s.tick 0)]

/-- A value that a primary obtained and forwards to its partners (R331). -/
def forwardValue (s : State) (v : Word) : State :=
  let g := s.grain
  let l := s.launch g.launch
  let s := s.setLaunch g.launch { l with ndSent := l.ndSent ++ [(g.ident, g.ndCount, v)] }
  s.due ((l.reps.live.filter (· != g.replica)).map fun r => .forwardedValueArrival ⟨g.launch, g.ident, r⟩ g.ndCount v)
/-- CLOCK, RAND and NDVAL in a replicated launch (R126, R235, R331): the primary reads and forwards, a partner takes the value forwarded
for its count. -/
def ndReadM (read : M Word) : M Word := do
  let s ← get
  let g := s.grain
  let l := s.launch g.launch
  if l.reps.count ≤ 1 then read
  else
    let sent := (l.ndSent.find? fun e => e.1 == g.ident && e.2.1 == g.ndCount).map fun e => e.2.2
    let step := onGrain fun g => { g with ndCount := g.ndCount + 1, forwarded := PMap.erase g.ndCount g.forwarded }
    match PMap.get? g.ndCount g.forwarded with
    | some v => do step; pure v
    | none =>
      match sent with
      | some v => parkOn .forwarded [.forwardedValueArrival g.key g.ndCount v]
      | none =>
        if l.reps.primary = g.replica then do
          let v ← read
          modify fun s => forwardValue s v
          step
          pure v
        else parkOn .forwarded [retryEvent s.cur]
/-- CLOCK. -/
def execClock (a : CtlRegArgs) (s : State) : Host.Outcome State Fault Refusal :=
  issue (.clock a) a.gd (Touch.of (regRes a.r)) (fun pc => do dstM pc a.r (← ndReadM clockM)) s
/-- RAND. -/
def execRand (a : CtlRegArgs) (s : State) : Host.Outcome State Fault Refusal :=
  issue (.rand a) a.gd (Touch.of (regRes a.r)) (fun pc => do dstM pc a.r (← ndReadM randM)) s
/-- BREAK (R122). -/
def execBrk (a : BreakArgs) (s : State) : Host.Outcome State Fault Refusal :=
  issue (.brk a) a.gd (Touch.of []) (fun _ => trapM .brk (a.code.setWidth 64)) s

end Sys2Proof.Machine
end

