-- ==== Sys2Proof/Machine/Mem.lean ====
section
/-! DEFINITION. Loads and stores: majors LD and ST (spec/05_memory_remote_and_sync_instructions.md R128-R140). -/

namespace Sys2Proof.Machine

/-- A long-latency operation begins (R39, R130): it is outstanding, its window opens with `la` positions, and its result is due. -/
def pendM (pc : Word) (kind : PendKind) (dst : List Res) (la : BitVec 4) : M Nat := do
  let g ← grainM
  let id := g.nextOp + 1
  onGrain fun g => { g with nextOp := id, pend := g.pend ++ [⟨id, pc, kind⟩],
                            windows := g.windows ++ [{ op := id, dst, k := la.toNat, pos := 0 }] }
  pure id
/-- The same, with its result due. -/
def pendDueM (pc : Word) (kind : PendKind) (dst : List Res) (la : BitVec 4) : M Unit := do
  let id ← pendM pc kind dst la
  modify fun s => s.due [.longLatencyResult s.cur id]

/-- Bytes and extension of an element of a format (R22, R29, R135): n, floats, portref and seq with zeros, i by sign. -/
def fmtExt (fmt : Nat) : Ext := match fmtEType fmt with
  | some t => if etSigned t then .sign else .zero
  | none => .zero
/-- Extends a loaded value. -/
def extendTo (e : Ext) (size : Nat) (x : Nat) : Word :=
  match e with
  | .zero => BitVec.ofNat 64 (x % 2 ^ (8 * size))
  | .sign => BitVec.ofInt 64 (signExtend (x % 2 ^ (8 * size)) (8 * size))

/-- A load of the LD family (R128, R129, R135): `sz` fixes the size and extension, else the format does; `post` steps a by one element. -/
def loadOp (i : Instr) (gd : Option Guard) (d a : Reg) (la : BitVec 4) (off : List Chunk) (sz : Option (Nat × Ext)) (post : Bool)
    (acq : Bool) (s : State) : Host.Outcome State Fault Refusal :=
  issue i gd (Touch.longOf (regRes d ++ regRes a)) (fun pc => do
    let (p, step) ← ptrM a off loadFmts
    let (size, ext) := sz.getD (step, fmtExt (ptrFmt p))
    let acc ← accM p (readSpec loadFmts size size)
    let clean : Clean := if acq then (if ptrFmt p = 48 then .compare else .always) else .none
    if post then onGrain fun g => g.setReg a.toNat (stepPtr (g.reg a.toNat) 1 step)
    pendDueM pc (.load acc ext d clean (!acq) none) (regRes d) la) s
/-- LD. -/
def execLd (a : MemArgs) (s : State) : Host.Outcome State Fault Refusal := loadOp (.ld a) a.gd a.d a.a a.la a.off none false false s
/-- LDI: then a advances one element. -/
def execLdi (a : MemArgs) (s : State) : Host.Outcome State Fault Refusal := loadOp (.ldi a) a.gd a.d a.a a.la a.off none true false s
/-- LD8. -/
def execLd8 (a : MemArgs) (s : State) : Host.Outcome State Fault Refusal :=
  loadOp (.ld8 a) a.gd a.d a.a a.la a.off (some (1, .sign)) false false s
/-- LD16. -/
def execLd16 (a : MemArgs) (s : State) : Host.Outcome State Fault Refusal :=
  loadOp (.ld16 a) a.gd a.d a.a a.la a.off (some (2, .sign)) false false s
/-- LD32. -/
def execLd32 (a : MemArgs) (s : State) : Host.Outcome State Fault Refusal :=
  loadOp (.ld32 a) a.gd a.d a.a a.la a.off (some (4, .sign)) false false s
/-- LD64. -/
def execLd64 (a : MemArgs) (s : State) : Host.Outcome State Fault Refusal :=
  loadOp (.ld64 a) a.gd a.d a.a a.la a.off (some (8, .sign)) false false s
/-- LDN8. -/
def execLdn8 (a : MemArgs) (s : State) : Host.Outcome State Fault Refusal :=
  loadOp (.ldn8 a) a.gd a.d a.a a.la a.off (some (1, .zero)) false false s
/-- LDN16. -/
def execLdn16 (a : MemArgs) (s : State) : Host.Outcome State Fault Refusal :=
  loadOp (.ldn16 a) a.gd a.d a.a a.la a.off (some (2, .zero)) false false s
/-- LDN32. -/
def execLdn32 (a : MemArgs) (s : State) : Host.Outcome State Fault Refusal :=
  loadOp (.ldn32 a) a.gd a.d a.a a.la a.off (some (4, .zero)) false false s
/-- LDACQ: an owner read and the acquire of R133. -/
def execLdacq (a : ScopedArgs) (s : State) : Host.Outcome State Fault Refusal :=
  loadOp (.ldacq a) a.gd a.d a.a a.la a.off none false true s

/-- PREF (R135): the line comes into the L1, through its owner's L2 (R268, R269); a check that fails or a page fault drops it. DESIGN CHOICE:
the access checked is one byte with no alignment (notes/assumptions/85.md). -/
def execPref (a : AddrArgs) (s : State) : Host.Outcome State Fault Refusal :=
  issue (.pref a) a.gd (Touch.of (regRes a.a)) (fun _ => do
    let s ← get
    let g := s.grain
    let p := g.reg a.a.toNat
    match ptrStep p with
    | none => pure ()
    | some step =>
      match checkAcc s (stepPtr p (offsetVal a.off) step) (readSpec allFmts 1 1) with
      | .error _ => pure ()
      | .ok acc =>
        match placeOf s acc.ctx acc.addr with
        | .error (.miss gid va) => parkOn .walk [.tlbWalkComplete gid acc.ctx (BitVec.ofNat 38 va)]
        | .error (.held _ _) => parkM .walk
        | .error _ => pure ()
        | .ok _ =>
          modify fun s => (physLines s acc.ctx (acc.addr / 32 * 32) 32).foldl (fun s k => l2Request s (acc.addr / 2 ^ 38) k) s
          modify fun s => l1Fill s s.cur.core acc.ctx acc.named acc.addr) s

/-- LDREC (R136). -/
def execLdrec (a : RecArgs) (s : State) : Host.Outcome State Fault Refusal :=
  issue (.ldrec a) a.gd (Touch.longOf (regRes a.a)) (fun pc => do
    let (p, _) ← ptrM a.a a.off plainFmts
    let acc ← accM p (readSpec plainFmts 192 64)
    pendDueM pc (.ldrec acc a.e) [] a.la) s

/-- A store (R138, R139): `sz` fixes the bytes, else the format does. -/
def storeOp (i : Instr) (a : StoreArgs) (sz : Option Nat) (post alloc : Bool) (s : State) : Host.Outcome State Fault Refusal :=
  issue i a.gd (Touch.of (regRes a.s ++ regRes a.a)) (fun pc => do
    let x ← srcM pc a.s
    let (p, step) ← ptrM a.a a.off loadFmts
    let size := sz.getD step
    let acc ← accM p (writeSpec loadFmts size size)
    if post then onGrain fun g => g.setReg a.a.toNat (stepPtr (g.reg a.a.toNat) 1 step)
    storeM acc (leBytes size x.toNat) alloc pc) s
/-- ST. -/
def execSt (a : StoreArgs) (s : State) : Host.Outcome State Fault Refusal := storeOp (.st a) a none false true s
/-- STI: then a advances one element. -/
def execSti (a : StoreArgs) (s : State) : Host.Outcome State Fault Refusal := storeOp (.sti a) a none true true s
/-- ST8. -/
def execSt8 (a : StoreArgs) (s : State) : Host.Outcome State Fault Refusal := storeOp (.st8 a) a (some 1) false true s
/-- ST16. -/
def execSt16 (a : StoreArgs) (s : State) : Host.Outcome State Fault Refusal := storeOp (.st16 a) a (some 2) false true s
/-- ST32. -/
def execSt32 (a : StoreArgs) (s : State) : Host.Outcome State Fault Refusal := storeOp (.st32 a) a (some 4) false true s
/-- ST64. -/
def execSt64 (a : StoreArgs) (s : State) : Host.Outcome State Fault Refusal := storeOp (.st64 a) a (some 8) false true s
/-- STNT: the line is not allocated in the L1. -/
def execStnt (a : StoreArgs) (s : State) : Host.Outcome State Fault Refusal := storeOp (.stnt a) a none false false s
/-- STREL (R140): a release point, then the store, which the detector does not track (R132). -/
def execStrel (a : StrelArgs) (s : State) : Host.Outcome State Fault Refusal :=
  issue (.strel a) a.gd (Touch.of (regRes a.s ++ regRes a.a)) (fun pc => do
    let x ← srcM pc a.s
    let (p, step) ← ptrM a.a a.off loadFmts
    let acc ← accM p (writeSpec loadFmts step step)
    releaseM a.sc 16 0 []
    let bs := leBytes step x.toNat
    signM acc.addr 0 bs
    bufferStore acc bs true pc) s

end Sys2Proof.Machine
end

