-- ==== Sys2Proof/Machine/Vop.lean ====
section
/-! DEFINITION. Vector arithmetic: major VOP (spec/06_vector_instructions.md R173-R184), and how an entry enters the sequencer. -/

namespace Sys2Proof.Machine

/-- The element type of an instruction (R173). -/
def typeOf (g : Grain) (ty : Option EType) : EType := ty.getD (vtypeOf g.pw)
/-- Lanes of a type now (R173). -/
def Grain.lanes (g : Grain) (t : EType) : Nat := g.vbits / etBits t

/-- Registers an entry writes. -/
def writesV (op : SeqOp) : Bool :=
  match op with
  | .fn (.cmp ..) => false
  | .fn (.extr _) => false
  | .fn (.lanesToPreds _) => false
  | .accw .. => false
  | .vst _ => false
  | _ => true

/-- An entry of the grain as it issues (R175, R176); in the body of a VLOOP it takes its place in pass 1 (R195). -/
def entryOf (g : Grain) (pc : Word) (op : SeqOp) (ty : EType) (d : Reg) (s t : VSrc) : SeqEntry :=
  { pc, op, ty, env := envOf g.pw, preds := g.pw.setWidth 32, d, s, t, loop := g.vloop.map fun v => (v.id, v.place - 1),
    again := (g.vloop.map fun v => v.count - 1).getD 0, started := false, out := .v 0, flags := 0#5 }
/-- Entries of one VLOOP. -/
def SeqEntry.sameLoop (e x : SeqEntry) : Bool := e.loop.isSome && e.loop.map Prod.fst == x.loop.map Prod.fst
/-- An entry comes after another in the passes of their loop. -/
def SeqEntry.laterPass (e x : SeqEntry) : Bool :=
  match e.loop, x.loop with
  | some (i, a), some (j, b) => i == j && decide (b < a)
  | _, _ => false
/-- Puts an entry into its place (R177, R195): in the order of its loop's passes, and otherwise after every entry there is. -/
def seqInsert (e : SeqEntry) (q : List SeqEntry) : List SeqEntry :=
  match q.findIdx? (fun x => x.laterPass e), q.reverse.findIdx? (fun x => e.sameLoop x) with
  | some i, _ => q.take i ++ e :: q.drop i
  | none, some j => q.take (q.length - j) ++ e :: q.drop (q.length - j)
  | none, none => q ++ [e]
/-- The same entry in the next pass (R195). -/
def SeqEntry.nextPass (e : SeqEntry) : SeqEntry :=
  { e with loop := e.loop.map fun p => (p.1, p.2 + 16), again := e.again - 1, started := false, out := .v 0, flags := 0#5 }
/-- The entry has started, and the place it keeps in the sequencer is that of its next pass (R195). -/
def SeqEntry.passedOn (e : SeqEntry) : Bool := e.started && decide (0 < e.again)
/-- The entries the sequencer holds (R176): each instruction of a loop's body counts once while passes of it are left. -/
def Grain.seqHeld (g : Grain) : Nat := (g.seq.filter fun e => !e.passedOn).length
/-- An entry enters the sequencer; with 16 held the grain parks (R176). VDIRTY is set at issue (R25). -/
def enterM (e : SeqEntry) : M Unit := do
  let g ← grainM
  parkWhen (decide (16 ≤ g.seqHeld)) .sequencer
  onGrain fun g => { g with seq := seqInsert e g.seq, pw := if writesV e.op then setBit g.pw 44 true else g.pw }
  modify fun s => s.dueOnce (.sequencerEntryStart s.cur.core)

/-- A source of a VOP instruction: a v register, or a g register for every lane (R78, R174). -/
def vopSrc (pc : Word) (bank : BitVec 3) (r : Reg) : M VSrc := do
  if bank = 1#3 then return .value (← srcM pc r) else return .reg r
/-- Banks of an instruction without XREG. -/
def noXreg : XReg := ⟨0#3, 0#3, 0#3, false⟩
/-- g registers that a VOP instruction reads through bank 001. -/
def vopRegs (x : Option XReg) (s t : Option Reg) : List Res :=
  let x := x.getD noXreg
  (match s with | some r => if x.s = 1#3 then regRes r else [] | none => [])
    ++ (match t with | some r => if x.t = 1#3 then regRes r else [] | none => [])

/-- A binary VOP instruction (R181, R182): shifts refuse float types, and so does sat. -/
def vopBin (i : Instr) (a : VopArgs) (op : LaneOp) (s : State) : Host.Outcome State Fault Refusal :=
  issue i a.gd (Touch.of (vopRegs a.xr (some a.s) a.t)) (fun pc => do
    let g ← grainM
    let ty := typeOf g a.ty
    reservedWhen (ty.isFloat && (a.sat || op == .shl || op == .shr)) i
    let x := a.xr.getD noXreg
    match a.t with
    | some t =>
      let u ← vopSrc pc x.s a.s
      let v ← vopSrc pc x.t t
      enterM (entryOf (← grainM) pc (.fn (.bin op a.sat)) ty a.d u v)
    | none =>
      let v ← vopSrc pc x.s a.s
      enterM (entryOf (← grainM) pc (.fn (.bin op a.sat)) ty a.d (.reg a.d) v)) s
/-- A unary VOP instruction (R181). -/
def vopUn (i : Instr) (a : VunArgs) (fn : VecFn) (s : State) : Host.Outcome State Fault Refusal :=
  issue i a.gd (Touch.of (vopRegs a.xr (some a.s) none)) (fun pc => do
    let ty := typeOf (← grainM) a.ty
    let u ← vopSrc pc (a.xr.getD noXreg).s a.s
    enterM (entryOf (← grainM) pc (.fn fn) ty a.d u u)) s

/-- VMOV. -/
def execVmov (a : VunArgs) (s : State) : Host.Outcome State Fault Refusal := vopUn (.vmov a) a .mov s
/-- VADD. -/
def execVadd (a : VopArgs) (s : State) : Host.Outcome State Fault Refusal := vopBin (.vadd a) a .add s
/-- VSUB. -/
def execVsub (a : VopArgs) (s : State) : Host.Outcome State Fault Refusal := vopBin (.vsub a) a .sub s
/-- VMUL. -/
def execVmul (a : VopArgs) (s : State) : Host.Outcome State Fault Refusal := vopBin (.vmul a) a .mul s
/-- VFMA (R58). -/
def execVfma (a : VfmaArgs) (s : State) : Host.Outcome State Fault Refusal :=
  issue (.vfma a) a.gd (Touch.of (vopRegs a.xr (some a.s) (some a.t))) (fun pc => do
    let x := a.xr.getD noXreg
    let u ← vopSrc pc x.s a.s
    let v ← vopSrc pc x.t a.t
    enterM (entryOf (← grainM) pc (.fn .fma) a.ty a.d u v)) s
/-- VMIN. -/
def execVmin (a : VopArgs) (s : State) : Host.Outcome State Fault Refusal := vopBin (.vmin a) a .min s
/-- VMAX. -/
def execVmax (a : VopArgs) (s : State) : Host.Outcome State Fault Refusal := vopBin (.vmax a) a .max s
/-- VAND. -/
def execVand (a : VopArgs) (s : State) : Host.Outcome State Fault Refusal := vopBin (.vand a) a .and s
/-- VOR. -/
def execVor (a : VopArgs) (s : State) : Host.Outcome State Fault Refusal := vopBin (.vor a) a .or s
/-- VXOR. -/
def execVxor (a : VopArgs) (s : State) : Host.Outcome State Fault Refusal := vopBin (.vxor a) a .xor s
/-- VSHL. -/
def execVshl (a : VopArgs) (s : State) : Host.Outcome State Fault Refusal := vopBin (.vshl a) a .shl s
/-- VSHR. -/
def execVshr (a : VopArgs) (s : State) : Host.Outcome State Fault Refusal := vopBin (.vshr a) a .shr s
/-- VABS. -/
def execVabs (a : VunArgs) (s : State) : Host.Outcome State Fault Refusal := vopUn (.vabs a) a .abs s
/-- VNEG. -/
def execVneg (a : VunArgs) (s : State) : Host.Outcome State Fault Refusal := vopUn (.vneg a) a .neg s
/-- VCVT (R183): sat with a float type on either side is refused. -/
def execVcvt (a : VcvtArgs) (s : State) : Host.Outcome State Fault Refusal :=
  issue (.vcvt a) a.gd (Touch.of (vopRegs a.xr (some a.s) none)) (fun pc => do
    let ty := typeOf (← grainM) a.ty
    reservedWhen (a.sat && (ty.isFloat || a.dst.isFloat)) (.vcvt a)
    let u ← vopSrc pc (a.xr.getD noXreg).s a.s
    enterM (entryOf (← grainM) pc (.fn (.cvt a.dst a.sat)) ty a.d u u)) s
/-- VCMP (R184): bank 1 needs at most 16 lanes. -/
def execVcmp (a : VcmpArgs) (s : State) : Host.Outcome State Fault Refusal :=
  issue (.vcmp a) a.gd (Touch.of (vopRegs a.xr (some a.s) (some a.t) ++ (if a.bank then [] else [.p0]))) (fun pc => do
    let g ← grainM
    reservedWhen (a.bank && decide (16 < g.lanes a.ty)) (.vcmp a)
    let x := a.xr.getD noXreg
    let u ← vopSrc pc x.s a.s
    let v ← vopSrc pc x.t a.t
    enterM (entryOf (← grainM) pc (.fn (.cmp a.cond a.bank)) a.ty 0#4 u v)) s

end Sys2Proof.Machine
end

