-- ==== Sys2Proof/Machine/Vx.lean ====
section
/-! DEFINITION. Vector memory forms, lane moves, reductions, quantising, accumulator rows, special functions and the control of the
sequencer: major VX (spec/06_vector_instructions.md R185-R199, spec/07 R201). -/

namespace Sys2Proof.Machine

/-! ### Memory forms (R179, R185-R187) -/

/-- A memory form waits until the sequencer is empty, and until earlier acquires are done (R179, R283). DEDUCED: one in the body of a VLOOP does
not wait for the replays that follow it (notes/assumptions/25.md). -/
def memFormM : M Unit := do
  let g ← grainM
  parkWhen (g.seq.any fun e => !g.ownReplay e) .sequencer
  parkWhen (g.pend.any fun p => p.kind.isAcquire) .window
/-- Writes a v register from bytes, lane 0 first. -/
def setVBytes (r : Reg) (bs : List Byte) : M Unit := onGrain fun g => g.setV r (leNat bs)
/-- The next elements of a stream as bytes (R185). -/
def streamBytes (pc : Word) (n : Fin 4) (b : Nat) : Nat → M (List Byte)
  | 0 => pure []
  | k + 1 => do
    let x ← streamNext pc n
    let rest ← streamBytes pc n b k
    pure (leBytes b x.toNat ++ rest)
/-- Appends bytes to a stream, element by element. -/
def appendBytes (pc : Word) (n : Fin 4) (b : Nat) (bs : List Byte) : Nat → M Unit
  | 0 => pure ()
  | k + 1 => do
    streamAppend pc n (BitVec.ofNat 64 (leNat (bs.take b)))
    appendBytes pc n b (bs.drop b) k
/-- Elements a VLD or VST moves through a stream (R185; notes/assumptions/24.md for a ganged grain). -/
def streamCount (g : Grain) (n : Fin 4) : Nat := g.vbits / etBits (g.streams[n]).fmt
/-- An access through a v register's memory form: 16 bytes, or 32 while ganged, aligned to the element step (R185). -/
def vmemSpec (g : Grain) (step : Nat) (store : Bool) : AccSpec :=
  if store then writeSpec plainFmts (g.vbits / 8) step else readSpec plainFmts (g.vbits / 8) step
/-- A stream transfer of a VLOOP's body stays in the sequencer for the passes after the first (R195, R197). -/
def captureStream (pc : Word) (op : SeqOp) (v : Reg) : M Unit := do
  let e := entryOf (← grainM) pc op .n8 v (.reg v) (.reg v)
  if 0 < e.again then
    onGrain fun g => { g with seq := seqInsert e.nextPass g.seq }
    modify fun s => s.dueOnce (.sequencerEntryStart s.cur.core)
/-- The unit of a stream that a memory form names, checked for use in a direction before anything is moved (R21). -/
def streamUseM (n : Fin 4) (output : Bool) : M Unit := do
  let st := (← grainM).streams[n]
  trapWhen (!st.bound) .streamMisuse (streamInfo n 1)
  trapWhen (st.output != output) .streamMisuse (streamInfo n 0)
/-- VLD (R185). -/
def execVld (a : VmemArgs) (s : State) : Host.Outcome State Fault Refusal :=
  issue (.vld a) a.gd (Touch.of (regRes a.a)) (fun pc => do
    match streamOf a.a with
    | some n =>
      memFormM
      streamUseM n false
      let g ← grainM
      let bs ← streamBytes pc n (etBytes (g.streams[n]).fmt) (streamCount g n)
      setVBytes a.v bs
      captureStream pc (.vld n.val) a.v
    | none =>
      memFormM
      let (p, step) ← ptrM a.a a.off plainFmts
      let g ← grainM
      let acc ← accM p (vmemSpec g step false)
      let bs ← readM acc true
      modify fun s => detAccess s s.cur pc acc.addr acc.size false
      setVBytes a.v bs) s
/-- VST (R185). -/
def execVst (a : VmemArgs) (s : State) : Host.Outcome State Fault Refusal :=
  issue (.vst a) a.gd (Touch.of (regRes a.a)) (fun pc => do
    match streamOf a.a with
    | some n =>
      memFormM
      streamUseM n true
      let g ← grainM
      appendBytes pc n (etBytes (g.streams[n]).fmt) (leBytes (g.vbits / 8) (g.vval a.v)) (streamCount g n)
      captureStream pc (.vst n.val) a.v
    | none =>
      memFormM
      let (p, step) ← ptrM a.a a.off plainFmts
      let g ← grainM
      let acc ← accM p (vmemSpec g step true)
      storeM acc (leBytes (g.vbits / 8) (g.vval a.v)) true pc) s

/-- The lane accesses of VGATH and VSCAT, all checked in lane order (R186). -/
def lanesM (a : VgathArgs) (store : Bool) : M (List Acc × EType) := do
  memFormM
  let ty := typeOf (← grainM) a.ty
  let (p, step) ← ptrM a.a a.off plainFmts
  trapWhen (step != etBytes ty) .formatInvalid (fmtInfo p 0)
  let g ← grainM
  let idx := (lanesOf g.vbits (etBits ty) (g.vval a.vi)).map fun x => signExtend x (etBits ty)
  let accs ← idx.mapM fun i => accM (stepPtr p i step) (if store then writeSpec plainFmts step step else readSpec plainFmts step step)
  pure (accs, ty)
/-- VGATH. -/
def execVgath (a : VgathArgs) (s : State) : Host.Outcome State Fault Refusal :=
  issue (.vgath a) a.gd (Touch.of (regRes a.a)) (fun pc => do
    let (accs, _) ← lanesM a false
    let bs ← accs.mapM fun acc => do
      let b ← readM acc true
      modify fun s => detAccess s s.cur pc acc.addr acc.size false
      pure b
    setVBytes a.v bs.flatten) s
/-- VSCAT: lanes are stored in ascending order. -/
def execVscat (a : VgathArgs) (s : State) : Host.Outcome State Fault Refusal :=
  issue (.vscat a) a.gd (Touch.of (regRes a.a)) (fun pc => do
    let (accs, ty) ← lanesM a true
    let g ← grainM
    let xs := lanesOf g.vbits (etBits ty) (g.vval a.v)
    for p in accs.zip xs do
      storeM p.1 (leBytes (etBytes ty) p.2) true pc) s

/-- VDQNT (R187): e counts elements, and the block that holds them is read and checked whole. DESIGN CHOICE: that e is a multiple of the lane
count is checked after the format and before the checks of R33 (notes/assumptions/89.md). -/
def execVdqnt (a : VmemArgs) (s : State) : Host.Outcome State Fault Refusal :=
  issue (.vdqnt a) a.gd (Touch.of (regRes a.a)) (fun pc => do
    let g ← grainM
    reservedWhen (typeOf g a.ty != .f32) (.vdqnt a)
    memFormM
    let p := g.reg a.a.toNat
    match qfmtOf (ptrFmt p), ptrStep p with
    | some q, some step =>
      let e := offsetVal a.off
      let n := g.lanes .f32
      let per := 8 * groupSize (ptrLog p)
      let p' := stepPtr p (e / per) step
      trapWhen (e % n != 0) .misaligned (segInfo p')
      let acc ← accM p' { readSpec [ptrFmt p] step 32 with seqRule := true }
      let bs ← readSettledM acc
      modify fun s => detAccess s s.cur pc acc.addr acc.size false
      match decodeBlock q (ptrLog p) bs with
      | none => trapM .formatInvalid (fmtInfo p 1)
      | some gs =>
        let pos := (e % per).toNat
        let rs := (List.range n).map fun i =>
          let x := gs.getD ((pos + i) / groupSize (ptrLog p)) ⟨0, 0, []⟩
          dequant x.scale x.zero (x.codes.getD ((pos + i) % groupSize (ptrLog p)) none)
        let r := collect 32 rs
        onGrain fun g => { g.setV a.v r.1 with pw := orFlags (g.setV a.v r.1).pw r.2 }
    | _, _ => trapM .formatInvalid (fmtInfo p 0)) s

/-! ### Lane moves (R188) -/

/-- An entry over v registers alone. -/
def vxEntry (i : Instr) (gd : Option Guard) (ty : Option EType) (fn : VecFn) (d s t : Reg) (st : State) :
    Host.Outcome State Fault Refusal :=
  issue i gd (Touch.of []) (fun pc => do
    let g ← grainM
    enterM (entryOf g pc (.fn fn) (typeOf g ty) d (.reg s) (.reg t))) st
/-- VBCAST: its source is read by the codes of R20. -/
def execVbcast (a : VregArgs) (s : State) : Host.Outcome State Fault Refusal :=
  issue (.vbcast a) a.gd (Touch.of (regRes a.s)) (fun pc => do
    let ty := typeOf (← grainM) a.ty
    let x ← srcM pc a.s
    enterM (entryOf (← grainM) pc (.fn .bcast) ty a.d (.value x) (.value x))) s
/-- VEXTR: its g destination is kept by the scoreboard of R178. -/
def execVextr (a : VlaneArgs) (s : State) : Host.Outcome State Fault Refusal :=
  issue (.vextr a) a.gd (Touch.of []) (fun pc => do
    let g ← grainM
    let ty := typeOf g a.ty
    reservedWhen (decide (g.lanes ty ≤ a.lane.toNat)) (.vextr a)
    parkWhen (g.extrPending (regRes a.d)) .lane
    enterM (entryOf g pc (.fn (.extr a.lane.toNat)) ty a.d (.reg a.s) (.reg a.s))) s
/-- VINS. -/
def execVins (a : VlaneArgs) (s : State) : Host.Outcome State Fault Refusal :=
  issue (.vins a) a.gd (Touch.of (regRes a.s)) (fun pc => do
    let g ← grainM
    let ty := typeOf g a.ty
    reservedWhen (decide (g.lanes ty ≤ a.lane.toNat)) (.vins a)
    let x ← srcM pc a.s
    enterM (entryOf (← grainM) pc (.fn (.ins a.lane.toNat)) ty a.d (.value x) (.value x))) s
/-- VSHUF. -/
def execVshuf (a : VtriArgs) (s : State) : Host.Outcome State Fault Refusal := vxEntry (.vshuf a) a.gd a.ty .shuf a.d a.s a.t s
/-- A bank needs at most 16 lanes (R184, R188). -/
def bankM (i : Instr) (ty : EType) (bank : Bool) : M Unit := do
  reservedWhen (bank && decide (16 < (← grainM).lanes ty)) i
/-- VSEL reads its predicates at issue (R178). -/
def execVsel (a : VselArgs) (s : State) : Host.Outcome State Fault Refusal :=
  issue (.vsel a) a.gd (Touch.predsOf (if a.hi then [] else [.p0])) (fun pc => do
    let g ← grainM
    let ty := typeOf g a.ty
    bankM (.vsel a) ty a.hi
    enterM (entryOf g pc (.fn (.sel a.hi)) ty a.d (.reg a.s) (.reg a.t))) s
/-- VMOVP (R188): from predicates it reads them at issue; to predicates it is a predicate writer. -/
def execVmovp (a : VmovpArgs) (s : State) : Host.Outcome State Fault Refusal :=
  let p0 : List Res := if a.bank then [] else [.p0]
  issue (.vmovp a) a.gd (if a.toPred then Touch.of p0 else Touch.predsOf p0) (fun pc => do
    let g ← grainM
    let ty := typeOf g a.ty
    bankM (.vmovp a) ty a.bank
    enterM (entryOf g pc (.fn (if a.toPred then .lanesToPreds a.bank else .predsToLanes a.bank)) ty a.v (.reg a.v) (.reg a.v))) s

/-! ### Reductions and quantising (R189, R190) -/

/-- VRSUM. -/
def execVrsum (a : VregArgs) (s : State) : Host.Outcome State Fault Refusal := vxEntry (.vrsum a) a.gd a.ty .rsum a.d a.s a.s s
/-- VDOT. -/
def execVdot (a : VtriArgs) (s : State) : Host.Outcome State Fault Refusal := vxEntry (.vdot a) a.gd a.ty .dot a.d a.s a.t s
/-- VQNT (R190): the header is checked at issue. -/
def execVqnt (a : VselArgs) (s : State) : Host.Outcome State Fault Refusal :=
  issue (.vqnt a) a.gd (Touch.of (regRes a.t)) (fun pc => do
    let g ← grainM
    let ty := typeOf g a.ty
    reservedWhen (!(ty == .f16 || ty == .bf16 || ty == .f32)) (.vqnt a)
    let h := (g.reg a.t.toNat).toNat % 2 ^ 32
    trapWhen (h / 2 ^ 24 != 0 || (a.hi && h / 2 ^ 20 % 16 != 0)) .formatInvalid (BitVec.ofNat 64 (512 * 3))
    enterM (entryOf g pc (.fn (.qnt h a.hi)) ty a.d (.reg a.s) (.reg a.s))) s

/-! ### Accumulator rows (R191) -/

/-- TRAP_INFO of ACC_NOT_OWNED (R237). -/
def accInfo (s : State) (tile : BitVec 2) : Word :=
  match (s.curCore.tiles[tile.toFin]).owner with
  | none => BitVec.ofNat 64 (tile.toNat + 256)
  | some o =>
    if (s.grainAt ⟨s.cur.core, o⟩).ctx = s.grain.ctx then BitVec.ofNat 64 (tile.toNat + 16 * o.val)
    else BitVec.ofNat 64 (tile.toNat + 512)
/-- The grain owns a tile (R27, R201). -/
def ownsTile (s : State) (tile : BitVec 2) : Bool := (s.curCore.tiles[tile.toFin]).owner == some s.cur.slot
/-- ACC_NOT_OWNED unless the grain owns the tile: the first check of every instruction that names one (R201). -/
def ownM (tile : BitVec 2) : M Unit := do
  let s ← get
  trapWhen (!ownsTile s tile) .accNotOwned (accInfo s tile)
/-- A ganged transfer takes quarter 0 or 2. -/
def quarterM (i : Instr) (q : BitVec 2) : M Unit := do
  reservedWhen (gangedOf (← grainM).pw && q.getLsbD 0) i
/-- VACCR. -/
def execVaccr (a : VaccArgs) (s : State) : Host.Outcome State Fault Refusal :=
  issue (.vaccr a) a.gd (Touch.of [.tile a.tile]) (fun pc => do
    quarterM (.vaccr a) a.quarter
    ownM a.tile
    enterM (entryOf (← grainM) pc (.accr a.tile a.row a.quarter) .f32 a.v (.reg a.v) (.reg a.v))) s
/-- VACCW. -/
def execVaccw (a : VaccArgs) (s : State) : Host.Outcome State Fault Refusal :=
  issue (.vaccw a) a.gd (Touch.of [.tile a.tile]) (fun pc => do
    quarterM (.vaccw a) a.quarter
    ownM a.tile
    enterM (entryOf (← grainM) pc (.accw a.tile a.row a.quarter) .f32 a.v (.reg a.v) (.reg a.v))) s

/-! ### Special functions (R192) -/

/-- A special function: float types only. -/
def specialOp (i : Instr) (a : VsfArgs) (fn : Special) (s : State) : Host.Outcome State Fault Refusal :=
  issue i a.gd (Touch.of []) (fun pc => do
    reservedWhen (!a.ty.isFloat) i
    enterM (entryOf (← grainM) pc (.fn (.special fn)) a.ty a.d (.reg a.s) (.reg a.s))) s
/-- VRCP. -/
def execVrcp (a : VsfArgs) (s : State) : Host.Outcome State Fault Refusal := specialOp (.vrcp a) a .rcp s
/-- VRSQ. -/
def execVrsq (a : VsfArgs) (s : State) : Host.Outcome State Fault Refusal := specialOp (.vrsq a) a .rsq s
/-- VSQRT. -/
def execVsqrt (a : VsfArgs) (s : State) : Host.Outcome State Fault Refusal := specialOp (.vsqrt a) a .sqrt s
/-- VEXP2. -/
def execVexp2 (a : VsfArgs) (s : State) : Host.Outcome State Fault Refusal := specialOp (.vexp2 a) a .exp2 s
/-- VLOG2. -/
def execVlog2 (a : VsfArgs) (s : State) : Host.Outcome State Fault Refusal := specialOp (.vlog2 a) a .log2 s
/-- VSIN. -/
def execVsin (a : VsfArgs) (s : State) : Host.Outcome State Fault Refusal := specialOp (.vsin a) a .sin s
/-- VCOS. -/
def execVcos (a : VsfArgs) (s : State) : Host.Outcome State Fault Refusal := specialOp (.vcos a) a .cos s
/-- VTANH. -/
def execVtanh (a : VsfArgs) (s : State) : Host.Outcome State Fault Refusal := specialOp (.vtanh a) a .tanh s

/-! ### Control (R193-R199) -/

/-- The number of a new loop among those the sequencer holds entries of. -/
def Grain.newLoop (g : Grain) : Nat := g.seq.foldl (fun m e => max m ((e.loop.map Prod.fst).getD 0)) 0 + 1
/-- VLOOP (R195): it parks until the sequencer has room for the body. DEDUCED: a ganged grain's sequencer cannot hold the body while fewer
entries than it needs are free (notes/assumptions/71.md). -/
def execVloop (a : VloopArgs) (s : State) : Host.Outcome State Fault Refusal :=
  issue (.vloop a) a.gd (Touch.of (regRes a.g)) (fun _ => do
    let g ← grainM
    let c := (g.reg a.g.toNat).toNat
    let len := a.len.toNat + 1
    reservedWhen (decide (4095 < c)) (.vloop a)
    reservedWhen (gangedOf g.pw && decide (16 < g.seqHeld + len)) (.vloop a)
    parkWhen (decide (16 < g.seqHeld + len)) .sequencer
    onGrain fun g => { g with vloop := some { id := g.newLoop, left := len, place := 0, count := c } }) s
/-- VSYNC (R194). -/
def execVsync (a : VctlArgs) (s : State) : Host.Outcome State Fault Refusal :=
  issue (.vsync a) a.gd (Touch.of []) (fun _ => do parkWhen (← grainM).seqBusy .sequencer) s
/-- VGANG (R198): takes the odd slot above, or leaves p0 at 0; an empty slot that a queued grain is to have waits to be filled. -/
def execVgang (a : VctlArgs) (s : State) : Host.Outcome State Fault Refusal :=
  issue (.vgang a) a.gd (Touch.of [.p0]) (fun _ => do
    quietM
    let s ← get
    let odd := s.slotAt ⟨s.cur.core, s.cur.slot + 1⟩
    if s.cur.slot.val % 2 = 1 ∨ gangedOf s.grain.pw ∨ odd.st ≠ .empty ∨ (bestEntry s s.cur.core).isSome then
      onGrain fun g => { g with pw := setPred g.pw 0#5 false }
    else
      modify fun s => s.setSlot ⟨s.cur.core, s.cur.slot + 1⟩ { Slot.blank with st := .oddHalf }
      onGrain fun g => { g with vh := Vector.replicate 16 0#128, pw := setPred (setBit g.pw 46 true) 0#5 true }) s
/-- VSPLIT (R199). -/
def execVsplit (a : VctlArgs) (s : State) : Host.Outcome State Fault Refusal :=
  issue (.vsplit a) a.gd (Touch.of []) (fun _ => do
    quietM
    modify fun s => splitGang s s.cur) s
/-- VSETT (R193). -/
def execVsett (a : VsettArgs) (s : State) : Host.Outcome State Fault Refusal :=
  issue (.vsett a) a.gd (Touch.of []) (fun _ => onGrain fun g => { g with pw := setVtype g.pw a.dst }) s

end Sys2Proof.Machine
end

