-- ==== Sys2Proof/Machine/Mx.lean ====
section
/-! DEFINITION. Accumulator tiles, the weight buffer, the matrix array's issue side and stream binding: major MX
(spec/07_matrix_stream_net_and_system_instructions.md R201-R219, spec/11 R293-R298, spec/19 R384). -/

namespace Sys2Proof.Machine

/-! ### Accumulator tiles (R201-R205) -/

/-- A tile of the core whose turn it is. -/
def State.tile (s : State) (t : BitVec 2) : Tile := s.curCore.tiles[t.toFin]
/-- Changes a tile. -/
def onTile (t : BitVec 2) (f : Tile → Tile) : M Unit :=
  onCore fun c => { c with tiles := c.tiles.set t.toFin (f c.tiles[t.toFin]) }
/-- Sequencer entries that name a tile (R178). -/
def SeqEntry.names (e : SeqEntry) (t : BitVec 2) : Bool :=
  match e.op with
  | .accr u _ _ => u == t
  | .accw u _ _ => u == t
  | _ => false
/-- Waits for the grain's sequencer entries that name a tile. -/
def tileIdleM (t : BitVec 2) : M Unit := do parkWhen ((← grainM).seq.any fun e => e.names t) .sequencer

/-- MACQ (R202): waiters of one tile are served in the order they began to wait. -/
def execMacq (a : TileArgs) (s : State) : Host.Outcome State Fault Refusal :=
  issue (.macq a) a.gd (Touch.longOf []) (fun _ => do
    let s ← get
    reservedWhen (s.curCore.tiles.toList.any fun t => t.owner == some s.cur.slot) (.macq a)
    let t := s.tile a.tile
    let me := s.grain.key
    if t.owner.isNone && t.waiters.headD me == me then
      onTile a.tile fun t => { owner := some s.cur.slot, data := [], waiters := t.waiters.filter (· != me) }
      onGrain fun g => { g with pw := setBit g.pw 44 true, tileWait := none }
    else
      onTile a.tile fun t => if t.waiters.contains me then t else { t with waiters := t.waiters ++ [me] }
      onGrain fun g => { g with tileWait := some (g.tileWait.getD s.curCore.cycle) }
      parkKeep .tile) s
/-- MREL (R203). -/
def execMrel (a : TileArgs) (s : State) : Host.Outcome State Fault Refusal :=
  issue (.mrel a) a.gd (Touch.longOf [.tile a.tile]) (fun _ => do
    ownM a.tile
    tileIdleM a.tile
    modify fun s => engineNext (freeTiles s s.cur) s.cur.core) s
/-- MZERO (R204). -/
def execMzero (a : TileArgs) (s : State) : Host.Outcome State Fault Refusal :=
  issue (.mzero a) a.gd (Touch.longOf [.tile a.tile]) (fun _ => do
    ownM a.tile
    tileIdleM a.tile
    onTile a.tile fun t => { t with data := [] }) s
/-- The element at row `i` and column `j` of a tile (R27). -/
def Tile.elem (t : Tile) (k : Nat) : BitVec 32 := t.data.getD k 0#32
/-- The memory image of a tile (R27, R205). -/
def Tile.bytes (t : Tile) : List Byte := (List.range 256).flatMap fun k => leBytes 4 (t.elem k).toNat
/-- The elements of a tile's memory image. -/
def tileOfBytes (bs : List Byte) : List (BitVec 32) := (List.range 256).map fun k => BitVec.ofNat 32 (fieldOf bs (4 * k) 4)
/-- MLDC (R205). -/
def execMldc (a : TileMemArgs) (s : State) : Host.Outcome State Fault Refusal :=
  issue (.mldc a) a.gd (Touch.longOf (.tile a.tile :: regRes a.a)) (fun pc => do
    ownM a.tile
    let (p, _) ← ptrM a.a a.off [10]
    let acc ← accM p (readSpec [10] 1024 32)
    tileIdleM a.tile
    pendDueM pc (.mldc acc a.tile) [.tile a.tile] a.la) s
/-- MSTC (R205): a plain store of 1,024 bytes, complete when it has entered the store buffer. -/
def execMstc (a : TileMemArgs) (s : State) : Host.Outcome State Fault Refusal :=
  issue (.mstc a) a.gd (Touch.longOf (.tile a.tile :: regRes a.a)) (fun pc => do
    ownM a.tile
    let (p, _) ← ptrM a.a a.off [10]
    let acc ← accM p (writeSpec [10] 1024 32)
    tileIdleM a.tile
    storeM acc ((← get).tile a.tile).bytes true pc
    let id ← pendM pc (.packet 0) [.tile a.tile] a.la
    onGrain fun g => { g with pend := g.pend.filter fun p => p.id != id }) s

/-! ### The weight buffer (R206-R210, R384) -/

/-- A checked weight image (R206): float elements row by row, or the groups of each column. -/
structure WImage where
  fmt : Nat
  log : Nat
  krows : Nat
  elems : List Nat
  cols : List (List QGroup)
  deriving DecidableEq, Repr

/-- Little-endian elements of `n` bytes. -/
def elemsOf (n : Nat) (bs : List Byte) (count : Nat) : List Nat := (List.range count).map fun i => fieldOf bs (n * i) n
/-- The groups of `nb` blocks of `bb` bytes, or none when one fails R51. -/
def groupsOf (q : QFmt) (log bb : Nat) (bs : List Byte) : Nat → Option (List QGroup)
  | 0 => some []
  | n + 1 => do
    let g ← decodeBlock q log (bs.take bb)
    let rest ← groupsOf q log bb (bs.drop bb) n
    pure (g ++ rest)
/-- TRAP_INFO of a weight image (R237): its header's format and block_log with the kind. -/
def imageInfo (bs : List Byte) (kind : Nat) : Word :=
  BitVec.ofNat 64 (byteAt bs 0 % 64 + 64 * (byteAt bs 1 % 8) + 512 * kind)
/-- R206: the image, or the kind of FORMAT_INVALID it raises: 2 for its header or length, 1 for a block. -/
def weightImage (bs : List Byte) : Except Nat WImage :=
  let fmt := byteAt bs 0
  let log := byteAt bs 1
  let krows := fieldOf bs 2 2
  let zeros := (List.range 26).all fun i => byteAt bs (6 + i) == 0
  if !zeros || fieldOf bs 4 2 != bs.length || krows == 0 || decide (4095 < krows) then .error 2
  else match qfmtOf fmt with
  | some q =>
    let nb := (krows + 8 * groupSize log - 1) / (8 * groupSize log)
    let bb := blockBytes q log
    if !(decide (3 ≤ log) && decide (log ≤ 5)) || krows % groupSize log != 0 || bs.length != 32 + 16 * nb * bb then .error 2
    else match (List.range 16).mapM fun j => groupsOf q log bb (bs.drop (32 + j * nb * bb)) nb with
      | some cols => .ok { fmt, log, krows, elems := [], cols }
      | none => .error 1
  | none =>
    match fmtStep fmt log with
    | some n =>
      if !(decide (8 ≤ fmt) && decide (fmt ≤ 10)) || bs.length != 32 + 16 * krows * n then .error 2
      else .ok { fmt, log, krows, elems := elemsOf n (bs.drop 32) (16 * krows), cols := [] }
    | none => .error 2

/-- A weight slot. -/
def Core.wslot (c : Core) (w : BitVec 3) : WSlot := c.wslots[w.toFin]
/-- Replaces a weight slot. -/
def Core.setWslot (c : Core) (w : BitVec 3) (x : WSlot) : Core := { c with wslots := c.wslots.set w.toFin x }
/-- Operations queued at the array that name a slot. -/
def Core.queuedOn (c : Core) (w : BitVec 3) : Bool := c.arrayQ.any fun o => o.w == w
/-- A slot invalidated (R209): a loaded slot keeps its record and loses its image. -/
def WSlot.invalidate (x : WSlot) : WSlot :=
  match x.st with
  | .valid => { x with st := .invalidated, image := [] }
  | _ => x
/-- The record of a slot as a spill of the records saves it (R232, R384). -/
def WSlot.record (x : WSlot) : WSlot :=
  match x.st with
  | .valid | .invalidated => { WSlot.empty with st := .invalidated, ctx := x.ctx, source := x.source, far := x.far, length := x.length }
  | _ => WSlot.empty
/-- The prefect gives the weight buffer to a context (R384): it spills the holder's records, sealed under the holder's key, and fills the context's
own (R392). -/
def passWeights (s : State) (k : Nat) (ctx : BitVec 12) : State :=
  let (ver, s) := nextVersion s k
  let c := s.core k
  let slots := c.wslots.toList.map WSlot.record
  let saves := PMap.set c.wholder.toNat { slots, image := sealedImage c.wholder 1 ver (weightBytes slots) } c.wsaves
  let mine := ((PMap.get? ctx.toNat saves).map (·.slots)).getD []
  s.setCore k { c with wslots := Vector.ofFn fun i => mine.getD i.val WSlot.empty, wsaves := PMap.erase ctx.toNat saves, wholder := ctx }
/-- A load or a reload of a slot is still to take effect or to be used (R208, R298). -/
def WSlot.taken (x : WSlot) : Bool := !x.loads.isEmpty || x.st == .loading || !x.reload.isEmpty || !x.failed.isEmpty
/-- Runs a step that may have to wait from a state whose changes stand meanwhile. -/
def keepingM {α : Type} (m : M α) : M α := fun s =>
  match m.run s with
  | .error (.park w evs) => .error (.parkIn (evs.foldl State.dueOnce s) w)
  | .error (.page gid ctx va info access) => .error (.parkIn (addWaiter s gid ctx va (.grain s.cur info) access) .pageFault)
  | r => r
/-- Runs a step from a state whose changes stand whether it waits or raises a cause. -/
def standingM {α : Type} (m : M α) : M α := fun s =>
  match keepingM m s with
  | .error (.trap c info) => .error (.trapIn s c info)
  | r => r
/-- R384: WBLD, WBINV, MMA and MMAI wait until their context holds the weight buffer. -/
def holderM : M Unit := do
  let s ← get
  let c := s.curCore
  if c.wholder != s.grain.ctx then
    parkWhen (!c.arrayQ.isEmpty || c.wslots.toList.any WSlot.taken) .array
    modify fun s => passWeights s s.cur.core s.grain.ctx

/-- Reads the header of an image at issue, after the acquires before it (R143); a lost owner or a poisoned line leaves the slot empty (R208),
once the operations that name it are done (R297). -/
def wbldHeaderM (w : BitVec 3) (acc : Acc) : M (List Byte) := do
  let s ← get
  parkWhen (s.grain.earlierFirst (s.grain.nextOp + 1) acc.addr acc.size) .outstanding
  match serveLoad s s.cur.core acc.ctx acc.named acc.addr acc.size false false with
  | .value bs s' => set s'; pure bs
  | .wait s' => throw (Stop.parkIn (s'.dueOnce (.longLatencyResult s.cur 0)) .engineLine)
  | .fault c a =>
    parkWhen (s.curCore.queuedOn w || (s.curCore.wslot w).taken) .array
    throw (Stop.trapIn (s.setCurCore (s.curCore.setWslot w WSlot.empty)) c (BitVec.ofNat 64 a))
  | .noPlace p => noPlaceM acc.ctx p (segInfo acc.ptr) 0
/-- WBLD (R208): loads of one slot take effect in their order of issue at the core, after the operations that name it. -/
def execWbld (a : WbldArgs) (s : State) : Host.Outcome State Fault Refusal :=
  issue (.wbld a) a.gd (Touch.longOf (regRes a.a)) (fun pc => do
    holderM
    standingM do
      let (p, _) ← ptrM a.a a.off plainFmts
      let head ← accM p (readSpec plainFmts 32 32)
      let bs ← wbldHeaderM a.w head
      let len := fieldOf bs 4 2
      trapWhen (decide (len < 32) || decide (8192 < len) || len % 32 != 0) .formatInvalid (imageInfo bs 2)
      let acc ← accM p (readSpec plainFmts len 32)
      let id := (← grainM).nextOp + 1
      let me := (← get).cur.slot
      onCore fun c =>
        let x := c.wslot a.w
        let x := { x with loads := x.loads ++ [(me, id)] }
        c.setWslot a.w (if x.loads.length = 1 && x.reload.isEmpty && !c.queuedOn a.w then { x with st := .loading, image := [] } else x)
      pendDueM pc (.wbld acc a.w) [] a.la) s
/-- The slots WBINV names (R209). -/
def wbinvSlots : Option (BitVec 3) → List (BitVec 3)
  | some w => [w]
  | none => (List.range 8).map (BitVec.ofNat 3)
/-- WBINV (R209). -/
def execWbinv (a : WbinvArgs) (s : State) : Host.Outcome State Fault Refusal :=
  issue (.wbinv a) a.gd (Touch.longOf []) (fun _ => do
    holderM
    let c := (← get).curCore
    standingM (parkWhen ((wbinvSlots a.w).any fun w => c.queuedOn w || (c.wslot w).taken) .array)
    onCore fun c => (wbinvSlots a.w).foldl (fun c w => c.setWslot w (c.wslot w).invalidate) c) s

/-- TRAP_INFO of WBUF_INVALID (R237). -/
def wbufInfo (w : BitVec 3) (kind : Nat) : Word := BitVec.ofNat 64 (w.toNat + 8 * kind)
/-- Whether the protection entries in force admit the recorded source, and a window holds it (R210). -/
def sourceAdmitted (s : State) (core : Nat) (x : WSlot) : Bool :=
  protAdmits (s.core core).prot x.ctx x.source x.length 1#3 && protAdmits (s.cluster (x.source / 2 ^ 38)).prot x.ctx x.source x.length 1#3
    && (windowOf s x.source x.length).isSome
/-- Where the recorded source of a slot lies for the grain of a place: a far one where requests for it go (R210, R322, R323). -/
def WSlot.sourceNow (x : WSlot) (s : State) (l : Loc) : Nat :=
  match x.far with
  | some a => effAddr s (clusterNode (coreCluster l.core)) (s.grainAt l).launch (s.grainAt l).replica a true
  | none => x.source
/-- The slot rules (R210, R298): the image of a valid slot; an invalidated one is reloaded first, and an MMA that waits for the reload uses its
image before a later WBLD takes effect. -/
def weightM (w : BitVec 3) : M (List Byte) := do
  let s ← get
  let c := s.curCore
  let x := c.wslot w
  trapWhen (x.failed.contains s.cur.slot) .wbufInvalid (wbufInfo w 2)
  parkWhen (!x.reload.contains s.cur.slot && (!x.loads.isEmpty || x.st == .loading)) .array
  match x.st with
  | .empty => trapM .wbufInvalid (wbufInfo w 0)
  | .valid =>
    trapWhen (x.ctx != s.grain.ctx) .wbufInvalid (wbufInfo w 1)
    pure x.image
  | _ =>
    trapWhen (x.ctx != s.grain.ctx) .wbufInvalid (wbufInfo w 1)
    let s' := s.setCurCore (c.setWslot w { x with reload := (x.reload ++ [s.cur.slot]).dedup })
    match placesOf s x.ctx (x.sourceNow s s.cur) x.length with
    | .error (.fault gid va) => throw (Stop.parkIn (addWaiter s' gid x.ctx va (.weight s.cur w.toFin) 0) .pageFault)
    | .error (.miss gid va) => throw (Stop.parkIn (s'.dueOnce (.tlbWalkComplete gid x.ctx (BitVec.ofNat 38 va))) .walk)
    | .error (.held _ _) => throw (Stop.parkIn s' .walk)
    | _ => throw (Stop.parkIn (s'.dueOnce (.weightSlotReload s.cur.core w.toFin)) .array)

/-! ### MMA and MMAI (R211-R214) -/

/-- An A pointer resolves into the issuing core's own scratchpad, as a part of check 5 (R212). -/
def scratchM (p : Word) (spec : AccSpec) : M Acc := do
  let s ← get
  let own := decide (resolve s p / 2 ^ 38 = s.here ∧ resolve s p % 2 ^ 38 / 0x20000 = coreIndex s.cur.core)
  match checkAcc s p spec with
  | .ok x => if own then pure x else trapM .segBounds (segInfo p)
  | .error (.protection, info) => if own then trapM .protection info else trapM .segBounds (segInfo p)
  | .error (c, info) => trapM c info
/-- The k-count (R95). -/
def kCount (a : MmaArgs) : Nat := (offsetVal a.k).toNat
/-- The A operand of MMA (R212): its format and place. -/
def mmaA (a : MmaArgs) : M (AOperand × Nat × Nat) := do
  let g ← grainM
  match streamOf a.a with
  | some n =>
    streamOrderM n
    streamUseM n false
    let st := g.streams[n]
    let fmt := (etypeNum st.fmt).toNat
    trapWhen (!(decide (8 ≤ fmt) && decide (fmt ≤ 10))) .formatInvalid (BitVec.ofNat 64 fmt)
    trapWhen (decide (st.total < st.pos + 16 * kCount a)) .streamMisuse (streamInfo n 2)
    pure (.stream (BitVec.ofNat 2 n.val), fmt, 0)
  | none =>
    let (p, step) ← ptrM a.a [] [8, 9, 10]
    let acc ← scratchM p (readSpec [8, 9, 10] (16 * kCount a * step) 32)
    pure (.memory acc, ptrFmt p, 0)
/-- The A operand of MMAI (R212). -/
def mmaiA (a : MmaArgs) : M (AOperand × Nat × Nat) := do
  let (p, step) ← ptrM a.a [] [16, 17, 18, 19]
  let g := groupSize (ptrLog p)
  trapWhen (kCount a % g != 0) .formatInvalid (fmtInfo p 2)
  let acc ← scratchM p (readSpec [16, 17, 18, 19] (16 * ((kCount a + 8 * g - 1) / (8 * g)) * step) 32)
  pure (.memory acc, ptrFmt p, ptrLog p)
/-- The stores of the grain to the A area are performed first (R214), and so are its earlier acquires and accesses of it (R143, R288). -/
def aStoresM : AOperand → M Unit
  | .memory acc => do
    let s ← get
    parkWhen (s.grain.earlierFirst (s.grain.nextOp + 1) acc.addr acc.size) .outstanding
    parkWhen ((s.curCore.storesOf s.cur.slot).any fun b => overlaps b.addr b.bytes.length acc.addr acc.size) .stores
  | .stream _ => pure ()
/-- The operation joins the array's queue and the grain leaves the rotation (R214); it waits for a reload of its slot no more. -/
def arrayM (a : MmaArgs) (pc : Word) (x : AOperand) (fmt log : Nat) (integer : Bool) : M Unit := do
  let s ← get
  let o : ArrayOp := { slot := s.cur.slot, pc, tile := a.tile, a := x, fmt, log, w := a.w, k := kCount a, integer, ctx := s.grain.ctx,
                       launch := s.grain.launch, elems := [], started := false }
  onCore fun c =>
    let w := c.wslot a.w
    { c.setWslot a.w { w with reload := w.reload.filter (· != s.cur.slot) } with arrayQ := c.arrayQ ++ [o] }
  modify fun s => (s.parkCur .array).dueOnce (.mmaStart s.cur.core)
/-- MMA. -/
def execMma (a : MmaArgs) (s : State) : Host.Outcome State Fault Refusal :=
  issue (.mma a) a.gd (Touch.longOf (.tile a.tile :: regRes a.a)) (fun pc => do
    ownM a.tile
    holderM
    standingM do
      let (x, fmt, log) ← mmaA a
      let bs ← weightM a.w
      match weightImage bs with
      | .error kind => trapM .formatInvalid (imageInfo bs kind)
      | .ok w =>
        trapWhen (decide (w.krows < kCount a)) .formatInvalid (imageInfo bs 2)
        tileIdleM a.tile
        aStoresM x
        arrayM a pc x fmt log false) s
/-- MMAI. -/
def execMmai (a : MmaArgs) (s : State) : Host.Outcome State Fault Refusal :=
  issue (.mmai a) a.gd (Touch.longOf (.tile a.tile :: regRes a.a)) (fun pc => do
    ownM a.tile
    holderM
    standingM do
      let (x, fmt, log) ← mmaiA a
      let bs ← weightM a.w
      match weightImage bs with
      | .error kind => trapM .formatInvalid (imageInfo bs kind)
      | .ok w =>
        trapWhen ((qfmtOf w.fmt).isNone || w.log != log || decide (w.krows < kCount a)) .formatInvalid (imageInfo bs 2)
        tileIdleM a.tile
        aStoresM x
        arrayM a pc x fmt log true) s

/-- B(k, j) of an image with the flags of dequantising it (R52, R206). -/
def WImage.elem (w : WImage) (k j : Nat) : Nat × FFlags :=
  match qfmtOf w.fmt with
  | some _ =>
    let g := groupSize w.log
    let x := (w.cols.getD j []).getD (k / g) ⟨0, 0, []⟩
    let r := dequant x.scale x.zero (x.codes.getD (k % g) none)
    (canon32 r.1, r.2)
  | none => (w.elems.getD (16 * k + j) 0, 0#5)
/-- The element type the array multiplies by. -/
def WImage.etype (w : WImage) : EType := if (qfmtOf w.fmt).isSome then .f32 else (fmtEType w.fmt).getD .f32
/-- A tile after an MMA (R63, R211, R213). -/
def mmaTile (t : Tile) (ta : EType) (elems : List Nat) (w : WImage) (k : Nat) : List (BitVec 32) × FFlags :=
  let b := (List.range k).map fun r => (List.range 16).map fun j => w.elem r j
  let rs := (List.range 256).map fun n =>
    mmaElem ta w.etype (t.elem n).toNat
      ((List.range k).map fun r => (elems.getD (16 * r + n / 16) 0, ((b.getD r []).getD (n % 16) (0, 0#5)).1))
  (rs.map fun r => BitVec.ofNat 32 r.1, orAll (rs.map Prod.snd) ||| orAll (b.map fun row => orAll (row.map Prod.snd)))
/-- A tile after an MMAI (R65). -/
def mmaiTile (t : Tile) (rows : List (List QGroup)) (w : WImage) (groups : Nat) : List (BitVec 32) × FFlags :=
  let rs := (List.range 256).map fun n =>
    mmaiElem (t.elem n).toNat (((rows.getD (n / 16) []).zip (w.cols.getD (n % 16) [])).take groups)
  (rs.map fun r => BitVec.ofNat 32 r.1, orAll (rs.map Prod.snd))

/-! ### Stream binding (R215-R219) -/

/-- A signed 32-bit field of a record. -/
def stride (bs : List Byte) (off : Nat) : Int := signExtend (fieldOf bs off 4) 32
/-- The least and the greatest offset of a pattern in elements (R216). -/
def Stream.lowest (st : Stream) : Int :=
  min 0 ((st.c0 - 1 : Int) * st.s0) + min 0 ((st.c1 - 1 : Int) * st.s1) + min 0 ((st.c2 - 1 : Int) * st.s2)
/-- The greatest offset. -/
def Stream.highest (st : Stream) : Int :=
  max 0 ((st.c0 - 1 : Int) * st.s0) + max 0 ((st.c1 - 1 : Int) * st.s1) + max 0 ((st.c2 - 1 : Int) * st.s2)
/-- SBIND (R216). -/
def execSbind (a : SbindArgs) (s : State) : Host.Outcome State Fault Refusal :=
  issue (.sbind a) a.gd (Touch.longOf (regRes a.a)) (fun pc => do
    let (p, _) ← ptrM a.a a.off plainFmts
    let racc ← accM p (readSpec plainFmts 32 32)
    trapWhen ((← grainM).streams[a.n.toFin]).bound .streamMisuse (streamInfo a.n.toNat 1)
    let bs ← readM racc false
    let base := wordOf bs 0
    let dir := fieldOf bs 14 1
    let c0 := fieldOf bs 8 2
    let c1 := fieldOf bs 10 2
    let c2 := fieldOf bs 12 2
    reservedWhen (decide (1 < dir) || fieldOf bs 15 1 != 0 || fieldOf bs 28 4 != 0 || c0 == 0 || c1 == 0 || c2 == 0) (.sbind a)
    match (if (ptrStep base).isSome then fmtEType (ptrFmt base) else none) with
    | none => trapM .formatInvalid (fmtInfo base 0)
    | some fmt =>
      let n := etBytes fmt
      let out := dir == 1
      let st : Stream := { Stream.unbound with bound := true, output := out, fmt, ptr := base, c0, c1, c2,
                                               s0 := stride bs 16, s1 := stride bs 20, s2 := stride bs 24 }
      let spec := if out then writeSpec plainFmts n n else readSpec plainFmts n n
      let lo ← accM (stepPtr base st.lowest n) spec
      discard (accM (stepPtr base st.highest n) spec)
      let st := { st with base := (((resolve (← get) lo.ptr : Int) - st.lowest * n) % (2 ^ 64 : Nat)).toNat }
      onGrain fun g => { g with streams := g.streams.set a.n.toFin st, pw := setBit g.pw 45 true }
      if !out then modify fun s => s.dueOnce (.inputStreamFetch s.cur a.n.toFin)
      let id ← pendM pc (.packet 0) [] a.la
      onGrain fun g => { g with pend := g.pend.filter fun p => p.id != id }) s
/-- Waits until every element appended to an output stream has been performed (R219). -/
def drainM (n : Fin 4) : M Unit := do
  let s ← get
  if !((s.grain.streams[n]).appended.isEmpty) then parkOn .stream [.outputStreamLineWrite s.cur n]
/-- SUNBIND (R217). -/
def execSunbind (a : StreamArgs) (s : State) : Host.Outcome State Fault Refusal :=
  issue (.sunbind a) a.gd (Touch.longOf []) (fun _ => do
    streamOrderM a.n.toFin
    let st := (← grainM).streams[a.n.toFin]
    if st.output then drainM a.n.toFin
    modify fun s => dropStreamWaits s s.cur (· == a.n.toFin)
    onGrain fun g =>
      let ss := g.streams.set a.n.toFin Stream.unbound
      { g with streams := ss, pw := setBit g.pw 45 (ss.toList.any Stream.bound) }) s
/-- What SSTAT returns (R218). -/
def Stream.stat (st : Stream) : Word :=
  if !st.bound then 0#64
  else
    let held := if st.output then st.appended.length else st.fetched.length
    let fin := if st.output then st.appended.isEmpty else decide (st.total ≤ st.pos)
    BitVec.ofNat 64 (1 + (if st.output then 2 else 0) + (if fin then 4 else 0) + 256 * min 255 held + 65536 * (st.total - st.pos))
/-- SSTAT. -/
def execSstat (a : SstatArgs) (s : State) : Host.Outcome State Fault Refusal :=
  issue (.sstat a) a.gd (Touch.longOf (regRes a.d)) (fun pc => do
    let st := (← grainM).streams[a.n.toFin]
    onGrain fun g => g.setReg a.d.toNat st.stat
    let id ← pendM pc (.packet 0) (regRes a.d) a.la
    onGrain fun g => { g with pend := g.pend.filter fun p => p.id != id }) s
/-- SDRAIN (R219). -/
def execSdrain (a : StreamArgs) (s : State) : Host.Outcome State Fault Refusal :=
  issue (.sdrain a) a.gd (Touch.longOf []) (fun _ => do
    streamOrderM a.n.toFin
    streamUseM a.n.toFin true
    drainM a.n.toFin) s

end Sys2Proof.Machine
end

