-- ==== Sys2Proof/Machine/Rmt.lean ====
section
/-! DEFINITION. Atomics, migration, remote updates and spawns: major RMT (spec/05_memory_remote_and_sync_instructions.md R141-R150,
spec/13 R330). -/

namespace Sys2Proof.Machine

/-- Formats of the integer atomics (R128). -/
def intAtomFmts : List Nat := [4, 5, 6, 7, 48]
/-- Formats of ASWAP and ACAS. -/
def swapFmts : List Nat := [4, 5, 6, 7, 10, 11, 48]
/-- Formats of the float atomics. -/
def floatAtomFmts : List Nat := [8, 9, 10, 11]
/-- Formats an atomic takes (R128). -/
def AtomOp.fmts : AtomOp → List Nat
  | .swap | .cas => swapFmts
  | .fadd | .fmin | .fmax => floatAtomFmts
  | _ => intAtomFmts
/-- The RMT variant of an atomic (R93). -/
def AtomOp.variant : AtomOp → Nat
  | .add => 0 | .min => 1 | .max => 2 | .minn => 3 | .maxn => 4 | .and => 5 | .or => 6 | .xor => 7 | .swap => 8 | .cas => 9
  | .fadd => 10 | .fmin => 11 | .fmax => 12
/-- The atomic of an RMT variant. -/
def atomOfVariant (n : Nat) : AtomOp :=
  match n with
  | 0 => .add | 1 => .min | 2 => .max | 3 => .minn | 4 => .maxn | 5 => .and | 6 => .or | 7 => .xor | 8 => .swap | 9 => .cas
  | 10 => .fadd | 11 => .fmin | _ => .fmax
/-- Atomics whose result depends on the order of arrival (R148, R334). -/
def AtomOp.ordered : AtomOp → Bool
  | .swap | .cas | .fadd | .fmin | .fmax => true
  | _ => false
/-- The update of one element of `w` bits (R141): the new value, whether ACAS stored, and the flags. -/
def AtomReq.apply (r : AtomReq) (old : Nat) : Nat × Bool × FFlags :=
  let w := 8 * r.acc.size
  let x := r.x.toNat % 2 ^ w
  let y := r.y.toNat % 2 ^ w
  let si := fun (n : Nat) => signExtend n w
  match r.op with
  | .add => ((old + x) % 2 ^ w, true, 0#5)
  | .min => (if si x < si old then x else old, true, 0#5)
  | .max => (if si old < si x then x else old, true, 0#5)
  | .minn => (min old x, true, 0#5)
  | .maxn => (max old x, true, 0#5)
  | .and => (Nat.land old x, true, 0#5)
  | .or => (Nat.lor old x, true, 0#5)
  | .xor => (Nat.xor old x, true, 0#5)
  | .swap => (x, true, 0#5)
  | .cas => if old = x then (y, true, 0#5) else (old, false, 0#5)
  | .fadd => let v := fatomic .add r.fmt r.rm old x; (v.1, true, v.2)
  | .fmin => let v := fatomic .min r.fmt r.rm old x; (v.1, true, v.2)
  | .fmax => let v := fatomic .max r.fmt r.rm old x; (v.1, true, v.2)
/-- The destinations of an atomic (R130). -/
def atomDst (op : AtomOp) (d : Reg) : List Res :=
  regRes d ++ (if op = .cas then regRes (d + 1#4) else [])
/-- The operand bytes of an atomic for the signature (R325). -/
def AtomReq.data (r : AtomReq) : List Byte :=
  leBytes r.acc.size r.x.toNat ++ (if r.op = .cas then leBytes r.acc.size r.y.toNat else [])

/-- Forms the request of an atomic from its pointer and operands (R34, R128, R141, R142). -/
def atomReqM (op : AtomOp) (d a : Reg) (off : List Chunk) (acquire : Bool) : M AtomReq := do
  let (p, step) ← ptrM a off op.fmts
  let acc ← accM p (atomSpec op.fmts step (decide (ptrSeg p < 4)))
  let g ← grainM
  pure { op, acc, signed := fmtExt (ptrFmt p) == .sign, fmt := (fmtEType (ptrFmt p)).getD .n64, x := g.reg d.toNat,
         y := if op = .cas then g.reg (d.toNat + 1) else 0#64, rm := (envOf g.pw).rm, acquire, launch := g.launch, tag := none }
/-- The doors of a replica (R145, R327, R330): an address outside is a comparison point, any other only a record. Answers whether this
replica sends the request, and the ordinal of the comparison that tags it; a replica that stands alone compares nothing and needs no tag. -/
def doorM (addr cls : Nat) (data : List Byte) : M (Bool × Option Nat) := do
  let s ← get
  if outsideReplica s addr then
    releaseWaitsM .system
    let tag := if 2 ≤ s.curLaunch.reps.live.length then some s.grain.ordinal else none
    compareM cls addr data
    let s ← get
    pure ((s.launch s.grain.launch).reps.primary == s.grain.replica, tag)
  else
    signM addr cls data
    pure (true, none)

/-- An atomic (R141-R145). In a deterministic launch the excursions of those that do not commute count as stores (R132, R142, R334). -/
def atomic (i : Instr) (a : AtomArgs) (op : AtomOp) (s : State) : Host.Outcome State Fault Refusal :=
  issue i a.gd (Touch.longOf (atomDst op a.d ++ regRes a.a)) (fun pc => do
    let r ← atomReqM op a.d a.a a.off a.ord.acquire
    if a.ord.release then releaseWaitsM .system
    let (sends, tag) ← doorM r.acc.addr (op.variant + 1) r.data
    if op.ordered && decide (r.acc.addr / 2 ^ 38 ≠ (← get).here) then
      modify fun s => detAccess s s.cur pc r.acc.addr r.acc.size true
    let id ← pendM pc (.atomic { r with tag } a.d false none) (atomDst op a.d) a.la
    if sends then modify fun s => s.due [.excursionAtOwner s.cur id]) s
/-- AADD. -/
def execAadd (a : AtomArgs) (s : State) : Host.Outcome State Fault Refusal := atomic (.aadd a) a .add s
/-- AMIN. -/
def execAmin (a : AtomArgs) (s : State) : Host.Outcome State Fault Refusal := atomic (.amin a) a .min s
/-- AMAX. -/
def execAmax (a : AtomArgs) (s : State) : Host.Outcome State Fault Refusal := atomic (.amax a) a .max s
/-- AMINN. -/
def execAminn (a : AtomArgs) (s : State) : Host.Outcome State Fault Refusal := atomic (.aminn a) a .minn s
/-- AMAXN. -/
def execAmaxn (a : AtomArgs) (s : State) : Host.Outcome State Fault Refusal := atomic (.amaxn a) a .maxn s
/-- AAND. -/
def execAand (a : AtomArgs) (s : State) : Host.Outcome State Fault Refusal := atomic (.aand a) a .and s
/-- AOR. -/
def execAor (a : AtomArgs) (s : State) : Host.Outcome State Fault Refusal := atomic (.aor a) a .or s
/-- AXOR. -/
def execAxor (a : AtomArgs) (s : State) : Host.Outcome State Fault Refusal := atomic (.axor a) a .xor s
/-- ASWAP. -/
def execAswap (a : AtomArgs) (s : State) : Host.Outcome State Fault Refusal := atomic (.aswap a) a .swap s
/-- ACAS. -/
def execAcas (a : AtomArgs) (s : State) : Host.Outcome State Fault Refusal := atomic (.acas a) a .cas s
/-- AFADD. -/
def execAfadd (a : AtomArgs) (s : State) : Host.Outcome State Fault Refusal := atomic (.afadd a) a .fadd s
/-- AFMIN. -/
def execAfmin (a : AtomArgs) (s : State) : Host.Outcome State Fault Refusal := atomic (.afmin a) a .fmin s
/-- AFMAX. -/
def execAfmax (a : AtomArgs) (s : State) : Host.Outcome State Fault Refusal := atomic (.afmax a) a .fmax s

/-- The 1-byte access of MIGR and SPAWN (R128, R265). -/
def nameSpec : AccSpec := { readSpec allFmts 1 1 with seqRule := false, steer := false }
/-- MIGR (R147). -/
def execMigr (a : AddrArgs) (s : State) : Host.Outcome State Fault Refusal :=
  issue (.migr a) a.gd (Touch.of (regRes a.a)) (fun _ => do
    quietM
    parkWhen ((← get).storesPending (← get).cur) .drain
    let (p, _) ← ptrM a.a a.off allFmts
    let acc ← accM p nameSpec
    let s ← get
    trapWhen ((migrateDenied s (targetCore acc.addr)).isNone && !s.alive (acc.addr / 2 ^ 38)) .peerLost (BitVec.ofNat 64 acc.addr)
    migrateM (targetCore acc.addr) acc.addr) s

/-- Order-dependent updates and receives are refused in replicated and deterministic launches (R148, R165). -/
def nondetM : M Unit := do
  let s ← get
  let l := s.launch s.grain.launch
  trapWhen (decide (2 ≤ l.reps.count) || l.detMode) .nondetForbidden 0#64
/-- An external update that a replica's grain has compared is kept, the last 64 of them (R330; notes/assumptions/73.md). -/
def Grain.keepUpdate (g : Grain) (u : Update) : Grain := { g with extUpdates := (g.extUpdates ++ [u]).drop (g.extUpdates.length + 1 - 64) }
/-- RUPD (R148, R255, R289, R330): the update's packet is on its way to the owner's queue; release ordering waits first. -/
def execRupd (a : RupdArgs) (s : State) : Host.Outcome State Fault Refusal :=
  let op := atomOfVariant a.op.toNat
  issue (.rupd a) a.gd (Touch.longOf (atomDst op a.d ++ regRes a.a)) (fun pc => do
    if op.ordered then nondetM
    let r ← atomReqM op a.d a.a a.off false
    if a.rel then releaseWaitsM .system
    let (sends, _) ← doorM r.acc.addr (op.variant + 1) r.data
    settleLoads r.acc
    let s ← get
    let g := s.grain
    let u : Update := ⟨r, s.cur, childIdent g.ident g.rupds true, a.rel, outsideReplica s r.acc.addr, g.rank⟩
    onGrain fun g => let g := if u.ext then g.keepUpdate u else g; { g with rupds := g.rupds + 1 }
    if sends then
      let gid := r.acc.addr / 2 ^ 38
      onCluster gid fun c => { c with heldUpdates := c.heldUpdates ++ [u] }
      emit (.remoteUpdateApply gid)
    pendDueM pc (.packet r.acc.addr) [] a.la) s
/-- What a grain did before it creates another is performed before the new grain's first action (R283, R284). -/
def creationM : M Unit := do
  let s ← get
  parkWhen (s.grain.pend.any (fun p => p.kind.isLoad || p.kind.isAcquire || p.kind.isAdd) || s.grain.seq.any SeqEntry.stores) .drain
  if s.grain.appendedPending then parkOn .drain (streamFlush s s.cur)
  parkWhen (s.storesPending s.cur) .drain
/-- SPAWN (R149). DESIGN CHOICE: an odd entry is checked after the pointer's format and before the other checks of R33
(notes/assumptions/91.md). -/
def execSpawn (a : MemArgs) (s : State) : Host.Outcome State Fault Refusal :=
  issue (.spawn a) a.gd (Touch.longOf (regRes a.d ++ regRes a.a ++ [.g 2#4])) (fun pc => do
    let (p, _) ← ptrM a.a a.off allFmts
    let e := (← grainM).reg a.d.toNat
    trapWhen (e.getLsbD 0) .misaligned (segInfo e)
    let acc ← accM p nameSpec
    trapWhen (outsideReplica (← get) acc.addr) .migrateDenied 5#64
    creationM
    let target := targetCore acc.addr
    modify fun s =>
      let child := childGrain s (0x0800000000000000#64 ||| (e &&& 0x007FFFFFFFFFFFFF#64)) p target
      let c := s.cluster s.here
      let s := s.setCluster s.here { c with packets := c.packets ++ [{ target, addr := acc.addr, sender := packed s.cur, grain := child, source := none }] }
      let l := s.launch s.grain.launch
      let s := s.setLaunch s.grain.launch { l with live := l.live + 1 }
      s.due [.spawnArrival target]
    onGrain fun g => { g with spawns := g.spawns + 1 }
    pendDueM pc (.packet acc.addr) [] a.la) s

end Sys2Proof.Machine
end

