-- ==== Sys2Proof/Machine/Sync.lean ====
section
/-! DEFINITION. Sequence words, watches, barriers, fences, channels and the issue side of the copy engine: major SYNC
(spec/05_memory_remote_and_sync_instructions.md R151-R171). -/

namespace Sys2Proof.Machine

/-- The access of a sequence word: format seq, 8 bytes, inside SRAM (R128, R151). -/
def seqAccM (p : Word) (a : AccSpec) : M Acc := do
  let s ← get
  match checkAcc s p a with
  | .ok x => if translated x.addr then trapM .segBounds (segInfo p) else pure x
  | .error (.protection, info) => if translated (resolve s p) then trapM .segBounds (segInfo p) else trapM .protection info
  | .error (c, info) => trapM c info
/-- Forms a pointer to a sequence word and checks it (R129, R151). -/
def seqPtrM (a : Reg) (off : List Chunk) (spec : AccSpec) : M Acc := do
  let (p, _) ← ptrM a off [48]
  seqAccM p spec
/-- Reading a sequence word. -/
def seqRead : AccSpec := readSpec [48] 8 8
/-- Advancing a sequence word. -/
def seqWrite : AccSpec := writeSpec [48] 8 8

/-- SEQWAIT (R152). -/
def execSeqwait (a : ScopedArgs) (s : State) : Host.Outcome State Fault Refusal :=
  issue (.seqwait a) a.gd (Touch.longOf (regRes a.d ++ regRes a.a)) (fun pc => do
    let acc ← seqPtrM a.a a.off seqRead
    pendDueM pc (.seqwait acc a.d ((← grainM).reg a.d.toNat) a.sc) (regRes a.d) a.la) s
/-- SEQADV (R154): a release point, then the add at the word. -/
def execSeqadv (a : ScopedArgs) (s : State) : Host.Outcome State Fault Refusal :=
  issue (.seqadv a) a.gd (Touch.longOf (regRes a.d ++ regRes a.a)) (fun pc => do
    let acc ← seqPtrM a.a a.off seqWrite
    let x := (← grainM).reg a.d.toNat
    releaseM a.sc 17 (← sigOffM acc.addr) (leBytes 8 x.toNat)
    settleLoads acc
    pendDueM pc (.seqadd acc x) [] a.la) s
/-- The register of WATCH number `w`; register 0 serves SEQWAIT (R272). -/
def watchReg (w : BitVec 2) : Fin 5 := ⟨w.toNat + 1, by have := w.isLt; omega⟩
/-- The watch a register held is gone, with its entry in a port and all that is on its way for it (R155, R273). -/
def disarm (s : State) (l : Loc) (r : Fin 5) : State :=
  { s with
    agenda := s.agenda.filter fun e => match e with
      | .remoteWatchWake w k _ => !(w == l && k == r)
      | .remoteWatchInsert w k => !(w == l && k == r)
      | .watchPollTimer w k => !(w == l && k == r)
      | _ => true
    clusters := s.clusters.map fun e => (e.1, { e.2 with watchTab := e.2.watchTab.filter fun w => !(w.waiter == l && w.reg == r) }) }
/-- WATCH (R155): re-arming replaces the earlier watch, and a WATCH of it that was still to be registered is complete (R130; DEDUCED,
notes/assumptions/98.md). A local word's watch bit is set before the word is read (R272). -/
def execWatch (a : WatchArgs) (s : State) : Host.Outcome State Fault Refusal :=
  issue (.watch a) a.gd (Touch.longOf (regRes a.d ++ regRes a.a)) (fun pc => do
    let acc ← seqPtrM a.a a.off seqRead
    let thr := (← grainM).reg a.d.toNat
    let r := watchReg a.w
    modify fun s => disarm s s.cur r
    modify fun s => if acc.addr / 2 ^ 38 = s.here then setWatchBit s acc.addr else s
    onGrain fun g => { g with watches := g.watches.set r ⟨true, false, acc.addr, acc.named, thr, false, false⟩,
                              pend := g.pend.filter fun p => p.kind != .watch r }
    pendDueM pc (.watch r) [] a.la) s
/-- WAITW (R155). -/
def execWaitw (a : WaitwArgs) (s : State) : Host.Outcome State Fault Refusal :=
  issue (.waitw a) a.gd (Touch.longOf (regRes a.d)) (fun pc => pendDueM pc (.waitw a.d a.mask) (regRes a.d) a.la) s

/-- The wait of a FENCE (R159). -/
def fenceM (kind : FenceKind) (sc : Scope) : M Unit := do
  let s ← get
  parkWhen (kind != .stores && s.grain.loadsPending) .drain
  parkWhen (kind != .loads && (s.grain.addsPending || (sc != .core && s.storesPending s.cur))) .drain
  if kind ≠ .loads ∧ sc = .system then modify fun s => writeBack s s.here
/-- FENCE. -/
def execFence (a : FenceArgs) (s : State) : Host.Outcome State Fault Refusal :=
  issue (.fence a) a.gd (Touch.longOf []) (fun _ => fenceM a.kind a.sc) s

/-- The arrival of a member (R157). -/
def arriveBarrier (s : State) (sc : Scope) : State :=
  let g := s.grain
  let h := g.launch
  let l := s.launch h
  let u := groupUnit g.replica (scopeUnit sc (unpackLoc g.home).core)
  let e := g.epochs[scopeNum sc]
  let bs : List BarGroup :=
    if l.barriers.any (fun b => b.sc == sc && b.unit == u && b.epoch == e) then
      l.barriers.map fun b =>
        if b.sc == sc && b.unit == u && b.epoch == e then { b with arrived := b.arrived ++ [g.ident], places := b.places ++ [s.here] } else b
    else l.barriers ++ [{ sc, unit := u, epoch := e, arrived := [g.ident], releasedTo := [], places := [s.here], resumeAt := [] }]
  let s := s.setLaunch h { l with barriers := bs }
  releaseGroups (s.setGrain { g with barrier := some ⟨sc, e⟩ }) h
/-- The group instance a waiting grain is a member of. -/
def groupOf (s : State) (b : BarWait) : Option BarGroup :=
  let g := s.grain
  let u := groupUnit g.replica (scopeUnit b.sc (unpackLoc g.home).core)
  (s.launch g.launch).barriers.find? fun x => x.sc == b.sc && x.unit == u && x.epoch == b.epoch
/-- The clusters of a group's members (R158, R282): those they arrived from, and those on which members exited before. -/
def memberClusters (l : Launch) (x : BarGroup) : List Nat :=
  (x.places ++ (groupRanks l (x.unit % 4) x.sc (x.unit / 4)).filterMap fun k => PMap.get? (k * 4 + x.unit % 4) l.exitedAt).dedup
/-- BARW (R157, R158): a release on arrival, an acquire from every member's cluster on resumption. A spawned grain fences instead. -/
def execBarw (a : BarwArgs) (s : State) : Host.Outcome State Fault Refusal :=
  issue (.barw a) a.gd (Touch.longOf []) (fun _ => do
    let s ← get
    let g := s.grain
    if g.spawned then fenceM .all a.sc
    else match g.barrier with
      | none => do
        releaseM a.sc 18 0 (leBytes 1 (scopeNum a.sc).val)
        modify fun s => arriveBarrier s a.sc
        parkKeep .barrier
      | some b =>
        match groupOf s b with
        | some x => do
          parkWhen (!x.releasedTo.contains (unpackLoc g.home).core) .barrier
          modify fun s => (memberClusters (s.launch g.launch) x).foldl
            (fun s gid => s.acquireFrom s.cur.core g.launch g.replica gid) s
          onGrain fun g => { g with barrier := none,
                                    epochs := g.epochs.set (scopeNum b.sc) (g.epochs[scopeNum b.sc] + 1) }
        | none => onGrain fun g => { g with barrier := none }) s

/-- Coordinates in the named allotment of a replica's own (R322). -/
def namedCore (l : Launch) (r core : Nat) : Nat :=
  namedOf l r (core / 32) * 32 + core % 32
/-- A core holds a grain of a launch, in a slot, queued or being filled (R161). -/
def holdsLaunch (s : State) (k h : Nat) : Bool :=
  let c := s.core k
  c.slots.toList.any (fun sl => sl.occupied && sl.grain.launch == h) || c.entries.any (fun e => e.launch == h)
/-- SEND (R161, R162): the release, then the checks of its target. -/
def execSend (a : ChanPairArgs) (s : State) : Host.Outcome State Fault Refusal :=
  issue (.send a) a.gd (Touch.longOf (regRes a.d ++ regRes a.a)) (fun pc => do
    let s ← get
    let g := s.grain
    let l := s.launch g.launch
    if g.spawned then nondetM
    let named := (unpackLoc (g.reg a.a.toNat).toNat).core
    let core := replicaMap l g.replica (coreCluster named) * 32 + coreIndex named
    let x := g.reg a.d.toNat
    releaseM .system 20 (16 * namedCore l g.replica core) (leBytes 8 x.toNat ++ leBytes 1 a.ch.toNat)
    let s ← get
    trapWhen (decide (17 ≤ coreIndex core) || !s.alive (coreCluster core)) .peerLost (BitVec.ofNat 64 (coreCluster core * 2 ^ 38))
    trapWhen (!holdsLaunch s core g.launch) .protection 0#64
    let g := s.grain
    let key := core * 8 + a.ch.toNat
    let num := (PMap.get? key g.sends).getD 0
    let id ← pendM pc (.send core a.ch (s.curCore.cycle + s.curCore.chanWatchdog.toNat)) [] a.la
    let home := unpackLoc g.home
    let f : Flit := { data := x, ctx := g.ctx, launch := g.launch, sender := packed ⟨namedCore l g.replica home.core, home.slot⟩, num,
                      spawned := g.spawned, cluster := s.here, key := g.key }
    onGrain fun g => { g with sends := PMap.set key (num + 1) g.sends }
    modify fun s =>
      let c := s.core core
      let ch := c.chans[a.ch.toFin]
      s.setCore core { c with chans := c.chans.set a.ch.toFin { ch with inFlight := ch.inFlight ++ [(f, s.cur, id)] } }
    modify fun s => s.due [.channelFlitArrival core a.ch]) s

/-- The operation issued last begins to wait on a channel (R163). -/
def waitChannel (s : State) (ch : BitVec 3) : State :=
  let c := s.curCore
  let q := c.chans[ch.toFin]
  s.setCurCore { c with chans := c.chans.set ch.toFin { q with receivers := q.receivers ++ [(s.grain.key, s.grain.nextOp)] } }
/-- RECV (R163, R165). -/
def execRecv (a : ChanArgs) (s : State) : Host.Outcome State Fault Refusal :=
  issue (.recv a) a.gd (Touch.longOf (regRes a.d)) (fun pc => do
    nondetM
    pendDueM pc (.recv a.d a.ch none) (regRes a.d) a.la
    modify fun s => waitChannel s a.ch) s
/-- RECVS (R165). -/
def execRecvs (a : ChanPairArgs) (s : State) : Host.Outcome State Fault Refusal :=
  issue (.recvs a) a.gd (Touch.longOf (regRes a.d ++ regRes a.a)) (fun pc => do
    let from_ := ((← grainM).reg a.a.toNat).toNat % 2 ^ 35
    pendDueM pc (.recv a.d a.ch (some from_)) (regRes a.d) a.la
    modify fun s => waitChannel s a.ch) s
/-- Takes flits that wait for room into a queue (R162); their SENDs complete. -/
def admitFlits (s : State) (core : Nat) (ch : Fin 8) : State :=
  let c := s.core core
  let q := c.chans[ch]
  let n := 16 - q.flits.length
  let taken := q.waiting.take n
  let s := s.setCore core { c with chans := c.chans.set ch { q with flits := q.flits ++ taken.map Prod.fst, waiting := q.waiting.drop n } }
  s.due (taken.map fun t => .longLatencyResult t.2.1 t.2.2)
/-- Removes a flit from a queue (R163). -/
def takeFlit (s : State) (core : Nat) (ch : Fin 8) (f : Flit) : State :=
  let c := s.core core
  let q := c.chans[ch]
  admitFlits (s.setCore core { c with chans := c.chans.set ch { q with flits := q.flits.erase f } }) core ch
/-- The grain of a core, in a slot or spilled, by its key. -/
def keyGrain (s : State) (k : Nat) (key : GrainKey) : Option Grain :=
  match (coreLocs k).find? fun l => (s.slotAt l).occupied && (s.grainAt l).key == key with
  | some l => some (s.grainAt l)
  | none => ((s.cluster (coreCluster k)).slates.find? fun e => e.2.grain.key == key).map (·.2.grain)
/-- The key of a RECVS count: a sender counts its flits for each core and channel (R161), so a receiver counts where it stands. -/
def recvKey (core sender : Nat) (ch : BitVec 3) : Nat := (core * 2 ^ 35 + sender) * 8 + ch.toNat
/-- A receive takes a flit: one of its context, and for RECVS the next one of its sender (R163, R165). -/
def takesFlit (g : Grain) (k : Nat) (ch : BitVec 3) (sender : Option Nat) (f : Flit) : Bool :=
  f.ctx == g.ctx && match sender with
    | none => true
    | some n => f.sender == n && !f.spawned && f.num == (PMap.get? (recvKey k n ch) g.recvs).getD 0
/-- A receive that waits would take a flit. -/
def wouldTake (s : State) (k : Nat) (ch : BitVec 3) (f : Flit) (w : GrainKey × Nat) : Bool :=
  match keyGrain s k w.1 with
  | none => false
  | some g => g.pend.any fun p => p.id == w.2 && match p.kind with
    | .recv _ c sender => c == ch && takesFlit g k ch sender f
    | _ => false
/-- The flit that a receive which does not wait takes: of its context, and none that a receive before it would take (R163, R164). -/
def oldestFlit (s : State) (k : Nat) (ch : BitVec 3) (g : Grain) : Option Flit :=
  let q := (s.core k).chans[ch.toFin]
  q.flits.find? fun f => takesFlit g k ch none f && !q.receivers.any (wouldTake s k ch f)
/-- RECVN (R164): the queue is examined at once, after the receives that wait on it; the window stays. -/
def execRecvn (a : ChanArgs) (s : State) : Host.Outcome State Fault Refusal :=
  issue (.recvn a) a.gd (Touch.longOf (regRes a.d ++ [.p0])) (fun pc => do
    nondetM
    let s ← get
    match oldestFlit s s.cur.core a.ch s.grain with
    | some f =>
      modify fun s => takeFlit s s.cur.core a.ch.toFin f
      modify fun s => s.acquireFrom s.cur.core s.grain.launch s.grain.replica f.cluster
      onGrain fun g => g.setReg a.d.toNat f.data
      predM 0#5 true
    | none => predM 0#5 false
    let id ← pendM pc (.packet 0) (regRes a.d ++ [.p0]) a.la
    onGrain fun g => { g with pend := g.pend.filter fun p => p.id != id }) s
/-- CHSTAT (R164). -/
def execChstat (a : ChanArgs) (s : State) : Host.Outcome State Fault Refusal :=
  issue (.chstat a) a.gd (Touch.longOf (regRes a.d)) (fun pc => do
    let s ← get
    let q := s.curCore.chans[a.ch.toFin]
    let n := (q.flits.filter fun f => f.ctx == s.grain.ctx).length
    let v := n + (if q.waiting.isEmpty then 0 else 32) + (if q.receivers.isEmpty then 0 else 64)
    onGrain fun g => g.setReg a.d.toNat (BitVec.ofNat 64 v)
    let id ← pendM pc (.packet 0) (regRes a.d) a.la
    onGrain fun g => { g with pend := g.pend.filter fun p => p.id != id }) s

/-- CLEAN (R156). -/
def execClean (a : CleanArgs) (s : State) : Host.Outcome State Fault Refusal :=
  issue (.clean a) a.gd (Touch.longOf (regRes a.a)) (fun pc => do
    let acc ← seqPtrM a.a a.off seqRead
    pendDueM pc (.clean acc) [] a.la) s
/-- SHFENCE (R160). -/
def execShfence (a : GuardArgs) (s : State) : Host.Outcome State Fault Refusal :=
  issue (.shfence a) a.gd (Touch.longOf []) (fun _ => do
    parkWhen ((← get).storesPending (← get).cur) .drain
    onCore fun c => { c with shape := Vector.replicate 8 none }) s

/-! ### The copy engine's issue side (R166-R171) -/

/-- A command block (R166). -/
structure Block where
  dst : Word
  src : Word
  len : Nat
  rows : Nat
  flags : Nat
  stride : Nat
  seq : Word
  deriving DecidableEq, Repr
/-- Reads the fields of a block. -/
def blockOf (bs : List Byte) : Block :=
  { dst := wordOf bs 0, src := wordOf bs 8, len := fieldOf bs 16 4, rows := fieldOf bs 20 2 % 4096 + 1, flags := fieldOf bs 20 2 / 4096,
    stride := fieldOf bs 22 2, seq := wordOf bs 24 }
/-- An extent of a command: 32-byte alignment, exempt from the 8-byte rule (R265), checked by R33 over all of it (R167). DESIGN CHOICE: its
pointer may have any valid format (notes/assumptions/94.md). -/
def extentSpec (size : Nat) (dst : Bool) : AccSpec :=
  { fmts := allFmts, size, align := 32, r := !dst, w := dst, x := false, store := dst, seqRule := false, steer := !dst }
/-- The block pointer: 32 bytes with r, in a home segment (R166, R172). -/
def blockSpec : AccSpec := { readSpec plainFmts 32 32 with store := true }
/-- Commands that are not done. -/
def Cluster.active (c : Cluster) : List Cmd := c.cmds.filter fun x => x.st != .done
/-- The command is one of the last 64, whose statuses the engine keeps (R170). -/
def Cluster.recent (c : Cluster) (x : Cmd) : Bool := decide (c.nextCmd ≤ x.id + 64)
/-- A cluster without the statuses of commands before the last 64 (R170). -/
def Cluster.trimCmds (c : Cluster) : Cluster := { c with cmds := c.cmds.filter fun x => x.st != .done || c.recent x }
/-- Where byte `n` of a command's source lies now, after the replica map and steering (R322, R323). -/
def Cmd.srcAt (x : Cmd) (s : State) (n : Nat) : Nat :=
  if x.far then effAddr s (coreCluster x.issuer.core / 512) x.launch x.replica ((x.src + n) % 2 ^ 64) true else x.src + n
/-- Whether a pull that reaches the engine joins another that waits there (R168): the same source, length, rows and stride, another core, and
not more than 64 clk of the first one's core after it arrived. DESIGN CHOICE: pulls of one context only (notes/assumptions/92.md). -/
def joinsPull (s : State) (cmds : List Cmd) (x y : Cmd) : Bool :=
  x.pull && y.pull && y.st == .queued && y.merged.isNone && decide (0 < x.len) && x.ctx == y.ctx && x.srcAt s 0 == y.srcAt s 0
    && x.len == y.len && x.rows == y.rows && x.stride == y.stride
    && (cmds.filter fun z => z.id == y.id || z.merged == some y.id).all (fun z => z.issuer.core != x.issuer.core)
    && decide ((s.core y.issuer.core).cycle ≤ y.issuedAt + 64)
/-- Commands that wait for room reach the engine in order (R167); a pull may join one that waits there already (R168). -/
def admitCmds (s : State) (gid : Nat) : Nat → State
  | 0 => s
  | fuel + 1 =>
    let c := s.cluster gid
    match c.cmds.find? fun x => x.st == .waiting with
    | none => s
    | some x =>
      if 64 ≤ (c.active.filter fun y => y.st != .waiting).length then s
      else
        let x' := { x with st := .queued, issuedAt := (s.core x.issuer.core).cycle,
                           merged := (c.cmds.find? fun y => joinsPull s c.cmds x y).map (·.id) : Cmd }
        let s := s.setCluster gid { c with cmds := c.cmds.map fun y => if y.id == x.id then x' else y }
        admitCmds (s.due (((s.grainAt x.issuer).pend.filter fun p => p.kind == .command x.id).map fun p => .longLatencyResult x.issuer p.id))
          gid fuel
/-- XPULL and XFILL (R166-R169). -/
def command (i : Instr) (a : BlockArgs) (pull : Bool) (s : State) : Host.Outcome State Fault Refusal :=
  issue i a.gd (Touch.longOf (regRes a.a)) (fun pc => do
    if pull then releaseWaitsM .system
    let (p, _) ← ptrM a.a a.off plainFmts
    let bacc ← accM p blockSpec
    let bs ← readM bacc false
    let off ← sigOffM bacc.addr
    if pull then compareM 19 off bs
    let b := blockOf bs
    let pitch := (b.len + 31) / 32 * 32
    let dacc ← accM b.dst (extentSpec (if b.len = 0 then 0 else (b.rows - 1) * pitch + b.len) true)
    if pull then
      discard (accM b.src (extentSpec (if b.len = 0 then 0 else (b.rows - 1) * 32 * b.stride + b.len) false))
    let qacc ← seqAccM b.seq seqWrite
    reservedWhen (b.flags != 0 || (pull && b.stride == 0 && decide (1 < b.rows)) || (!pull && b.stride != 0)) i
    if !pull then onGrain fun g => { g with sig := sigRecord g.sig off 14 bs }
    parkWhen ((← get).storesPending (← get).cur) .release
    settleLoads { dacc with size := b.rows * pitch }
    let s ← get
    let g := s.grain
    let c := s.cluster s.here
    let id := c.nextCmd
    let x : Cmd := { id, pull, block := bacc.addr, dst := dacc.addr, src := if pull then resolve s b.src else 0,
                     far := pull && decide (4 ≤ ptrSeg b.src), replica := g.replica, value := b.src, len := b.len, rows := b.rows,
                     stride := b.stride, seq := qacc.addr, launch := g.launch, ctx := dacc.ctx, issuer := s.cur, rank := g.rank,
                     issuedAt := s.curCore.cycle, st := .waiting, failed := false, poisoned := false,
                     left := b.rows * ((b.len + 31) / 32), merged := none, buf := [] }
    modify fun s =>
      let s := s.setCluster s.here ({ c with cmds := c.cmds ++ [x], nextCmd := id + 1 } : Cluster).trimCmds
      admitCmds (claimLines s s.here x) s.here 64
    emit (.copyCommandStart (← get).here)
    pendDueM pc (.command id) [] a.la) s
/-- XPULL. -/
def execXpull (a : BlockArgs) (s : State) : Host.Outcome State Fault Refusal := command (.xpull a) a true s
/-- XFILL. -/
def execXfill (a : BlockArgs) (s : State) : Host.Outcome State Fault Refusal := command (.xfill a) a false s
/-- The status XSTAT returns for a block address (R170). DESIGN CHOICE: of two commands issued from one block it answers for the one issued last
(notes/assumptions/70.md), and one that still waits for room in the queue counts among the last 64 and is queued
(notes/assumptions/93.md). -/
def statusOf (c : Cluster) (ctx : BitVec 12) (block : Nat) : Word :=
  match c.cmds.reverse.find? fun x => x.block == block && x.ctx == ctx && c.recent x with
  | some x =>
    let st := match x.st with
      | .waiting | .queued => 1
      | .running => 2
      | .done => 3
    BitVec.ofNat 64 (st + (if x.failed then 16 else 0) + (if x.poisoned then 32 else 0) + 2 ^ 32 * x.left)
  | none => 0#64
/-- XSTAT (R170). -/
def execXstat (a : MemArgs) (s : State) : Host.Outcome State Fault Refusal :=
  issue (.xstat a) a.gd (Touch.longOf (regRes a.d ++ regRes a.a)) (fun pc => do
    let (p, _) ← ptrM a.a a.off plainFmts
    let acc ← accM p (readSpec plainFmts 32 32)
    pendDueM pc (.xstat a.d acc.addr) (regRes a.d) a.la) s

end Sys2Proof.Machine
end

