-- ==== Sys2Proof/Machine/Net.lean ====
section
/-! DEFINITION. Net launches: nodes, exchanges at owners, bags and the rewrite instructions of major NET
(spec/07_matrix_stream_net_and_system_instructions.md R220-R227, spec/12_graph_rewriting.md R301-R320). -/

namespace Sys2Proof.Machine

/-! ### The torus of a package (R12) -/

/-- Column and row of a cluster. -/
def torusPos (gid : Nat) : Nat × Nat :=
  let d := gid / 128 % 4
  let c := gid % 128
  (12 * (d % 2) + c % 12, 8 * (d / 2) + c / 12)
/-- The cluster of a package at a position. -/
def torusAt (node x y : Nat) : Nat := node * 512 + (y / 8 * 2 + x / 12) * 128 + (y % 8 * 12 + x % 12)
/-- The neighbour of a cluster in a direction. -/
def neighbour (gid : Nat) (d : Dir) : Nat :=
  let p := torusPos gid
  match d with
  | .east => torusAt (clusterNode gid) ((p.1 + 1) % 24) p.2
  | .west => torusAt (clusterNode gid) ((p.1 + 23) % 24) p.2
  | .north => torusAt (clusterNode gid) p.1 ((p.2 + 1) % 16)
  | .south => torusAt (clusterNode gid) p.1 ((p.2 + 15) % 16)

/-! ### Nodes and portrefs (R220, R303, R304) -/

/-- The portref in a register: bits [63:48] are ignored. -/
def portref (x : Word) : Nat := x.toNat % 2 ^ 48
/-- The cluster of a portref. -/
def portCluster (p : Nat) : Nat := p / 2 ^ 22
/-- The node index. -/
def portIndex (p : Nat) : Nat := p / 4 % 2 ^ 20
/-- The port. -/
def portNum (p : Nat) : Nat := p % 4
/-- Cluster-local base of the arena (R301). -/
def Launch.arenaBase (l : Launch) : Nat := (l.segs[1]).w0.toNat
/-- Nodes of the arena. -/
def Launch.nodeCount (l : Launch) : Nat := (l.segs[1]).limit / 32
/-- The global address of a node. -/
def Launch.nodeAddr (l : Launch) (gid i : Nat) : Nat := gid * 2 ^ 38 + l.arenaBase + 32 * i
/-- The global address of a portref's slot. -/
def Launch.slotAddr (l : Launch) (p : Nat) : Nat := l.nodeAddr (portCluster p) (portIndex p) + 8 * portNum p
/-- The tag of a slot. -/
def tagOf (x : Word) : Nat := x.toNat / 2 ^ 62
/-- The arity in a header. -/
def arityOf (h : Word) : Nat := h.toNat / 2 ^ 50 % 4
/-- The dispatch code in a header. -/
def agentOf (h : Word) : Nat := h.toNat / 2 ^ 52 % 64
/-- A slot value: a tag and a portref. -/
def slotVal (tag p : Nat) : Word := BitVec.ofNat 64 (tag * 2 ^ 62 + p)
/-- Tag 11 of a freed node. -/
def freedWord : Word := slotVal 3 0
/-- Tag 10, unlinked. -/
def unlinkedWord : Word := slotVal 2 0
/-- TRAP_INFO of NET_PORT_INVALID (R237). -/
def portInfo (n : Nat) : Word := BitVec.ofNat 64 (n % 2 ^ 48)

/-- A cluster's part of a net launch. -/
def State.netCl (s : State) (gid h : Nat) : NetCl := (PMap.get? h (s.cluster gid).nets).getD NetCl.empty
/-- Changes a cluster's part of a net launch. -/
def State.onNet (s : State) (gid h : Nat) (f : NetCl → NetCl) : State :=
  let c := s.cluster gid
  s.setCluster gid { c with nets := PMap.set h (f (s.netCl gid h)) c.nets }
/-- Changes the part of the grain's own cluster. -/
def onNetM (f : NetCl → NetCl) : M Unit := modify fun s => s.onNet s.here s.grain.launch f
/-- R220: a launch without a rule table runs no NET instruction. -/
def netM : M Launch := do
  let l := (← get).curLaunch
  trapWhen (!l.net) .ruleMissing 4096#64
  pure l

/-! ### Exchanges (R223) -/

/-- How an exchange ends; one that waits says what it asks for meanwhile. -/
inductive Exchanged where
  | done (old : Word) (s : State)
  | wait (ask : State → State)
  | fault (c : Cause) (info : Word)
  | noPlace (p : NoPlace)

/-- What is known of a port from its portref and then from the value offered (R220, R223). -/
def portBad (s : State) (l : Launch) (p : Nat) (v : Word) : Option (Cause × Word) :=
  if !s.reachable (l.slotAddr p) then some (.peerLost, BitVec.ofNat 64 (l.slotAddr p))
  else if l.nodeCount ≤ portIndex p || tagOf v == 3 || (portNum p == 0 && tagOf v != 0) then some (.netPortInvalid, portInfo p)
  else none

/-- One exchange at the owner of a slot, for a grain of a core: after the stores to the node in that core's buffer (R285). -/
def exchange (s : State) (core : Nat) (l : Launch) (p : Nat) (v : Word) : Exchanged :=
  match portBad s l p v with
  | some (c, info) => .fault c info
  | none =>
    let node := l.nodeAddr (portCluster p) (portIndex p)
    let a := l.slotAddr p
    if engineHolds s l.ctx node 32 || (bufferedStore (s.core core) l.ctx node 32).isSome then .wait id
    else match serveOwner s l.ctx node 32 with
    | .fault c _ => .fault c (BitVec.ofNat 64 a)
    | .wait _ => .wait fun s => (burstMiss s l.ctx node 32).getD s
    | .noPlace x => .noPlace x
    | .value bs s =>
      let h := wordOf bs 0
      let old := wordOf bs (8 * portNum p)
      if arityOf h < portNum p || (portNum p != 0 && tagOf old == 3) then .fault .netPortInvalid (portInfo p)
      else
        let new : Nat := if portNum p = 0 then h.toNat / 2 ^ 48 * 2 ^ 48 + portref v
          else tagOf v * 2 ^ 62 + old.toNat / 2 ^ 48 % 2 ^ 14 * 2 ^ 48 + portref v
        match ownerWrite s l.ctx a (leBytes 8 new) with
        | .error x => .noPlace x
        | .ok s => .done (if portNum p = 0 then BitVec.ofNat 64 (portref h) else old) s

/-! ### Bags (R225, R308) -/

/-- Parked RWPOPs of a cluster look again (R310). -/
def wakePops (s : State) (gid : Nat) : State :=
  (clusterLocs s gid).foldl (State.wakeFrom .pair) s
/-- A core's bag. -/
def NetCl.coreBag (n : NetCl) (k : Nat) : List (Word × Word) := (PMap.get? k n.bags).getD []
/-- The smaller of two portrefs first. -/
def pairOf (x y : Nat) : Nat × Nat := if y < x then (y, x) else (x, y)
/-- Delivers a pair record to the owner of its smaller portref: none while the cluster bag is full (R225). A record of the cluster bag stands in
the net region, the next place after the one before it (R302; notes/assumptions/47.md). -/
def deliverPair (s : State) (h k : Nat) (x y : Nat) : Option State :=
  let (a, b) := pairOf x y
  let owner := portCluster a
  let n := s.netCl owner h
  let r := (BitVec.ofNat 64 a, BitVec.ofNat 64 b)
  if owner = coreCluster k ∧ (n.coreBag k).length < 64 then
    some (wakePops (s.onNet owner h fun n => { n with bags := PMap.set k (n.coreBag k ++ [r]) n.bags }) owner)
  else if n.bag.length < 8192 then
    let at_ := owner * 2 ^ 38 + (s.launch h).ruleTable + 0x4000 + 16 * (n.bagAt % 8192)
    let s := { s with mem := s.mem.writeBytes at_ (leBytes 8 a ++ leBytes 8 b) }
    some (wakePops (s.onNet owner h fun n => { n with bag := n.bag ++ [r], bagAt := n.bagAt + 1 }) owner)
  else none
/-- A bag of a cluster changes by a take, and the records that wait for room there try again (R225, R308). -/
def State.taken (s : State) (gid h : Nat) (f : NetCl → NetCl) : State := (s.onNet gid h f).dueOnce (.pairRecordArrival gid)
/-- Takes a record: from a core bag at its newest or oldest end, or from a cluster bag at its oldest (R308). -/
def takeNewest (s : State) (gid h k : Nat) : Option ((Word × Word) × State) :=
  let b := (s.netCl gid h).coreBag k
  b.getLast?.map fun r => (r, s.taken gid h fun n => { n with bags := PMap.set k b.dropLast n.bags })
/-- Takes the oldest record of a core bag. -/
def takeOldest (s : State) (gid h k : Nat) : Option ((Word × Word) × State) :=
  let b := (s.netCl gid h).coreBag k
  b.head?.map fun r => (r, s.taken gid h fun n => { n with bags := PMap.set k (b.drop 1) n.bags })
/-- Takes the oldest record of a cluster bag. -/
def takeCluster (s : State) (gid h : Nat) : Option ((Word × Word) × State) :=
  let b := (s.netCl gid h).bag
  b.head?.map fun r => (r, s.taken gid h fun n => { n with bag := b.drop 1 })
/-- Clusters of a launch. -/
def Launch.clusters (l : Launch) : List Nat := (l.cores.map coreCluster).dedup
/-- A cluster holds a grain of a launch. -/
def clusterHolds (s : State) (gid h : Nat) : Bool := (List.range 16).any fun k => holdsLaunch s (gid * 32 + k) h
/-- The search of RWPOP (R226, R310). -/
def searchPair (s : State) (l : Launch) (h k : Nat) : Option ((Word × Word) × State) :=
  let gid := coreCluster k
  let own := (takeNewest s gid h k).orElse fun _ => takeCluster s gid h
  if l.detMode then own
  else own.orElse fun _ =>
    ((List.range 15).findSome? fun i => takeOldest s gid h (gid * 32 + (coreIndex k + 1 + i) % 16)).orElse fun _ =>
      ([.east, .north, .west, .south].map (neighbour gid)).findSome? fun n => if clusterHolds s n h then takeCluster s n h else none

/-! ### Allocation (R221, R314-R316) -/

/-- The free ring of a core. -/
def NetCl.ring (n : NetCl) (k : Nat) : List Nat := (PMap.get? k n.rings).getD []
/-- Takes a node for a core: from its ring, refilled with up to 32 nodes of the free list when it is empty (R316). DESIGN CHOICE: ring and
list are taken from at their heads and added to at their tails (notes/assumptions/96.md). -/
def NetCl.alloc (n : NetCl) (k : Nat) : Option (Nat × NetCl) :=
  match n.ring k with
  | i :: r => some (i, { n with rings := PMap.set k r n.rings })
  | [] =>
    match n.free with
    | [] => none
    | i :: rest => some (i, { n with rings := PMap.set k (rest.take 31) n.rings, free := rest.drop 31 })
/-- A node returns to the ring of the core that freed it, or to the free list (R221, R315). -/
def NetCl.release (n : NetCl) (x : Retire) : NetCl :=
  match x.core with
  | some k => if (n.ring k).length < 256 then { n with rings := PMap.set k (n.ring k ++ [x.index]) n.rings }
    else { n with free := n.free ++ [x.index] }
  | none => { n with free := n.free ++ [x.index] }
/-- Outstanding link operations of a parity. -/
def NetCl.addOut (n : NetCl) (odd : Bool) (up : Bool) : NetCl :=
  let f := fun (x : Nat) => if up then x + 1 else x - 1
  if odd then { n with outOdd := f n.outOdd } else { n with outEven := f n.outEven }

/-- The index of the node at an address of a launch's arena (R220). -/
def Launch.nodeAt (l : Launch) (addr : Nat) : Option Nat :=
  let va := addr % 2 ^ 38
  if va < l.arenaBase ∨ l.nodeCount ≤ (va - l.arenaBase) / 32 then Option.none else Option.some ((va - l.arenaBase) / 32)
/-- NALLOC (R221): the node's words are stored as the grain's stores are. -/
def execNalloc (a : PairArgs) (s : State) : Host.Outcome State Fault Refusal :=
  issue (.nalloc a) a.gd (Touch.longOf (regRes a.d ++ regRes a.a)) (fun pc => do
    let l ← netM
    let (p, _) ← ptrM a.a [] [32]
    trapWhen (decide (4 ≤ ptrSeg p)) .farStore (segInfo p)
    trapWhen (l.nodeAt (resolve (← get) p)).isNone .formatInvalid (fmtInfo p 0)
    let acc ← accM p { fmts := [32], size := 32, align := 32, r := true, w := true, x := false, store := true, seqRule := true, steer := false }
    let s ← get
    let h := s.grain.launch
    match (s.netCl s.here h).alloc s.cur.core with
    | none => trapM .nodeArenaEmpty 0#64
    | some (i, n) =>
      bufferStore { acc with addr := l.nodeAddr s.here i } (leBytes 8 0 ++ (List.range 3).flatMap fun _ => leBytes 8 unlinkedWord.toNat)
        true pc
      onNetM fun _ => n
      let off : Int := (l.arenaBase + 32 * i : Nat) - ((s.grain.seg (ptrSeg p)).w0.toNat : Int)
      let v := (p &&& (0xFFF#64 <<< 52)) ||| (BitVec.ofInt 52 off).setWidth 64
      onGrain fun g => g.setReg a.d.toNat v
      let id ← pendM pc (.packet 0) (regRes a.d) a.la
      onGrain fun g => { g with pend := g.pend.filter fun p => p.id != id }) s

/-- A node already freed or in the retire queue (R221, R315). -/
def nodeFreed (n : NetCl) (i : Nat) (w1 : Word) : Bool := tagOf w1 == 3 || n.retire.any fun r => r.index == i
/-- A freed node joins the retire queue of its cluster (R315); its entry stands in the net region (R302; notes/assumptions/47.md). -/
def retireNode (s : State) (gid h : Nat) (x : Retire) : State :=
  let n := s.netCl gid h
  let at_ := gid * 2 ^ 38 + (s.launch h).ruleTable + 0x24000 + 8 * (n.retireAt % 4096)
  let s := { s with mem := s.mem.writeBytes at_ ((List.range 8).map fun i => Config.freeByte s.tick i) }
  s.onNet gid h fun n => { n with retire := n.retire ++ [x], retireAt := n.retireAt + 1 }
/-- The rights of an NFREE and the protection entries admit it (R33, R34); no other check of R33 is its own. -/
def freeRightsM (p : Word) (near : Bool) (addr : Nat) : M Unit := do
  let s ← get
  let spec : AccSpec := { readSpec [32] 32 32 with r := !near, w := near }
  let d := s.grain.seg (ptrSeg p)
  trapWhen (if near then !d.w else !d.r) .segRights (segInfo p ||| rightsInfo spec)
  trapWhen (!protAdmits s.curCore.prot s.grain.ctx addr 32 spec.need) .protection (segInfo p)
  trapWhen (!protAdmits (s.cluster (addr / 2 ^ 38)).prot s.grain.ctx addr 32 spec.need) .protection (segInfo p ||| (1#64 <<< 56))
/-- NFREE (R221, R315): a local node joins its cluster's retire queue; a far one goes to the owner's channel core, which makes the checks. -/
def execNfree (a : NodeArgs) (s : State) : Host.Outcome State Fault Refusal :=
  issue (.nfree a) a.gd (Touch.longOf (regRes a.a)) (fun pc => do
    let l ← netM
    let g ← grainM
    let p := g.reg a.a.toNat
    let near := decide (ptrSeg p < 4)
    let good := ptrFmt p == 32 && ptrLog p == 0 && ptrOff p % 32 == 0
    let s ← get
    if near then
      match (if good then l.nodeAt (resolve s p) else none) with
      | none => trapM .netPortInvalid (portInfo (ptrOff p))
      | some i =>
        freeRightsM p true (resolve s p)
        if 4096 ≤ (s.netCl s.here g.launch).retire.length then parkOn .pair [retryEvent s.cur]
        let bs ← readM { ptr := p, addr := l.nodeAddr s.here i + 8, named := s.here, size := 8, ctx := g.ctx } false
        let s ← get
        let n := s.netCl s.here g.launch
        trapWhen (nodeFreed n i (wordOf bs 0)) .netPortInvalid (portInfo (ptrOff p))
        set (retireNode s s.here g.launch { index := i, stamp := n.epoch, core := some s.cur.core })
    else
      let addr := effAddr s (clusterNode s.here) g.launch g.replica (resolve s p) false
      freeRightsM p false addr
      let gid := addr / 2 ^ 38
      let f : FarFree := { addr, good, launch := g.launch, off := ptrOff p, where_ := packed s.cur, rank := g.rank }
      onCluster gid fun c => { c with farFrees := c.farFrees ++ [f] }
      emit (.remoteUpdateApply gid)
    let id ← pendM pc (.packet 0) [] a.la
    onGrain fun g => { g with pend := g.pend.filter fun p => p.id != id }) s

/-! ### Node instructions (R222) -/

/-- The word or port in the XIMM chunks. -/
def nodeWord (w : List Chunk) : Nat := (offsetVal w).toNat
/-- The access to a word of a node. -/
def nodeAccM (a : Reg) (w : List Chunk) (store : Bool) : M Acc := do
  let _ ← netM
  let (p, _) ← ptrM a [] [32]
  let spec : AccSpec := if store then writeSpec [32] 32 32 else readSpec [32] 32 32
  let acc ← accM p spec
  pure { ptr := p, addr := acc.addr + 8 * nodeWord w, named := acc.named, size := 8, ctx := acc.ctx }
/-- NLD. -/
def execNld (a : NodeWordArgs) (s : State) : Host.Outcome State Fault Refusal :=
  issue (.nld a) a.gd (Touch.longOf (regRes a.d ++ regRes a.a)) (fun pc => do
    let acc ← nodeAccM a.a a.w false
    pendDueM pc (.load acc .zero a.d .none true none) (regRes a.d) a.la) s
/-- NST. -/
def execNst (a : NodeWordArgs) (s : State) : Host.Outcome State Fault Refusal :=
  issue (.nst a) a.gd (Touch.longOf (regRes a.d ++ regRes a.a)) (fun pc => do
    let acc ← nodeAccM a.a a.w true
    storeM acc (leBytes 8 ((← grainM).reg a.d.toNat).toNat) true pc) s
/-- A result that arrives at the next turn: its window opens and closes with nothing outstanding. -/
def nextTurnM (pc : Word) (d : Reg) (la : BitVec 4) (v : Word) : M Unit := do
  onGrain fun g => g.setReg d.toNat v
  let id ← pendM pc (.packet 0) (regRes d) la
  onGrain fun g => { g with pend := g.pend.filter fun p => p.id != id }
/-- NREF. -/
def execNref (a : NodeWordArgs) (s : State) : Host.Outcome State Fault Refusal :=
  issue (.nref a) a.gd (Touch.longOf (regRes a.d ++ regRes a.a)) (fun pc => do
    let l ← netM
    let (p, _) ← ptrM a.a [] [32]
    trapWhen (ptrOff p % 32 != 0) .misaligned (segInfo p)
    let addr := resolve (← get) p
    match l.nodeAt addr with
    | none => trapM .netPortInvalid (portInfo (ptrOff p))
    | some i =>
      trapWhen ((addr % 2 ^ 38 - l.arenaBase) % 32 != 0) .netPortInvalid (portInfo (ptrOff p))
      nextTurnM pc a.d a.la (BitVec.ofNat 64 (addr / 2 ^ 38 * 2 ^ 22 + i * 4 + nodeWord a.w))) s
/-- NOWN. -/
def execNown (a : PairArgs) (s : State) : Host.Outcome State Fault Refusal :=
  issue (.nown a) a.gd (Touch.longOf (regRes a.d ++ regRes a.a)) (fun pc => do
    let _ ← netM
    nextTurnM pc a.d a.la (BitVec.ofNat 64 (portCluster (portref ((← grainM).reg a.a.toNat))))) s

/-! ### Exchanges as instructions (R223, R224) -/

/-- An operation of the link protocol begins: stamped with the parity of its cluster's epoch (R314). -/
def linkM (pc : Word) (step : NetStep) (d : Option Reg) (q n : Word) (la : BitVec 4) : M Unit := do
  let s ← get
  let odd := decide ((s.netCl s.here s.grain.launch).epoch % 2 = 1)
  onNetM fun n => n.addOut odd true
  pendDueM pc (.net step d q n odd) (match d with | some r => regRes r | none => []) la
/-- PXCHG. -/
def execPxchg (a : PairArgs) (s : State) : Host.Outcome State Fault Refusal :=
  issue (.pxchg a) a.gd (Touch.longOf (regRes a.d ++ regRes a.a)) (fun pc => do
    let l ← netM
    let g ← grainM
    let p := portref (g.reg a.a.toNat)
    let v := g.reg a.d.toNat
    match portBad (← get) l p v with
    | some (c, info) => trapM c info
    | none =>
      releaseWaitsM .system
      linkM pc .pxchg (some a.d) (BitVec.ofNat 64 p) v a.la) s
/-- PLINK. -/
def execPlink (a : PairArgs) (s : State) : Host.Outcome State Fault Refusal :=
  issue (.plink a) a.gd (Touch.longOf (regRes a.d ++ regRes a.a)) (fun pc => do
    let l ← netM
    let g ← grainM
    let q := portref (g.reg a.d.toNat)
    let n := portref (g.reg a.a.toNat)
    match portBad (← get) l q (slotVal 1 n) with
    | some (c, info) => trapM c info
    | none =>
      releaseWaitsM .system
      linkM pc .linkFirst none (BitVec.ofNat 64 q) (BitVec.ofNat 64 n) a.la) s

/-- One step of the protocol after the exchange it made returned `v` (R224): the next step, or none when the wire is settled. -/
def linkNext (q n : Word) (step : NetStep) (v : Word) (clk : Nat) : Option NetStep :=
  let pv := BitVec.ofNat 64 (portref v)
  let pushIf := fun (x y : Word) => if portNum x.toNat = 0 ∧ portNum y.toNat = 0 then some (NetStep.push x y clk) else none
  match step with
  | .pxchg => none
  | .linkFirst => if tagOf v = 1 then (if n.toNat < pv.toNat then some (.connect1 n pv) else none) else some (.linkSecond pv)
  | .linkSecond e =>
    if tagOf v = 0 ∧ pv = q then some (.linkBack e)
    else if tagOf v = 1 ∧ n.toNat < pv.toNat then some (.connect1 n pv)
    else none
  | .linkBack e => pushIf n e
  | .connect1 x y => some (.connect2 x y)
  | .connect2 x y => pushIf x y
  | .push .. => none
/-- The exchange a step makes: the port and the value. -/
def linkExchange (q n : Word) (step : NetStep) : Nat × Word :=
  match step with
  | .pxchg => (q.toNat, n)
  | .linkFirst => (q.toNat, slotVal 1 n.toNat)
  | .linkSecond e => (e.toNat, slotVal 0 n.toNat)
  | .linkBack e => (n.toNat, slotVal 0 e.toNat)
  | .connect1 x y => (x.toNat, slotVal 0 y.toNat)
  | .connect2 x y => (y.toNat, slotVal 0 x.toNat)
  | .push x y _ => (x.toNat, y)

/-- The operation is over: it leaves the grain's outstanding operations and its grain looks again (R40). -/
def finishPend (s : State) (l : Loc) (id : Nat) (f : Grain → Grain) : State :=
  let g := s.grainAt l
  (s.setGrainAt l (f { g with pend := g.pend.filter fun p => p.id != id })).wake l
/-- Replaces the kind of an outstanding operation. -/
def setPend (s : State) (l : Loc) (id : Nat) (k : PendKind) : State :=
  let g := s.grainAt l
  s.setGrainAt l { g with pend := g.pend.map fun p => if p.id == id then { p with kind := k } else p }
/-- Delivers a push; it waits while the bag is full, and an owner that is lost never accepts it (R225). -/
def stepPush (s : State) (l : Loc) (p : Pend) (x y : Word) (fin : State → State) : State :=
  let h := (s.grainAt l).launch
  let owner := portCluster (pairOf x.toNat y.toNat).1
  if !s.alive owner then s.faultAt l p.pc .peerLost (BitVec.ofNat 64 ((s.launch h).slotAddr (pairOf x.toNat y.toNat).1))
  else match deliverPair s h l.core x.toNat y.toNat with
  | some s => fin s
  | none => s.dueOnce (.pairRecordArrival owner)
/-- Steps that settle a wire (R224). -/
def NetStep.settles : NetStep → Bool
  | .linkBack _ | .connect1 .. | .connect2 .. => true
  | _ => false
/-- One exchange of a protocol at its owner, with the settling writes that it decides. DEDUCED: these are performed with it, so that no exchange
of the wire's other PLINK comes between, as the outcomes of R313 require (notes/assumptions/76.md). -/
def exchangeSteps (s : State) (l : Launch) (core : Nat) (q n : Word) (clk : Nat) : Nat → NetStep → Exchanged × Option NetStep
  | 0, _ => (.wait id, none)
  | fuel + 1, step =>
    let (port, v) := linkExchange q n step
    match exchange s core l port v with
    | .done old s =>
      let s := s.acquire core (portCluster port) none
      match linkNext q n step old clk with
      | some st => if st.settles then exchangeSteps s l core q n clk fuel st else (.done old s, some st)
      | none => (.done old s, none)
    | r => (r, none)
/-- A step of PXCHG or PLINK at the owner. -/
def stepNet (s : State) (l : Loc) (p : Pend) (step : NetStep) (d : Option Reg) (q n : Word) (odd : Bool) : State :=
  let h := (s.grainAt l).launch
  let gid := coreCluster l.core
  let fin := fun (s : State) (f : Grain → Grain) => finishPend (s.onNet gid h fun n => n.addOut odd false) l p.id f
  match step with
  | .push x y _ => stepPush s l p x y fun s => fin s id
  | _ =>
    let c := s.core l.core
    match exchangeSteps s (s.launch h) l.core q n (c.cycle + c.chanWatchdog.toNat) 4 step with
    | (.wait ask, _) => (ask s).dueOnce (.longLatencyResult l p.id)
    | (.fault c info, _) => s.faultAt l p.pc c info
    | (.noPlace (.refused _ _), _) => s.faultAt l p.pc .segBounds 0#64
    | (.noPlace x, _) => noPlaceDue s (s.launch h).ctx x (.op l p.id) 1 (.longLatencyResult l p.id)
    | (.done old s, next) =>
      match next with
      | none => fin s fun g => match d with
        | some r => g.setReg r.toNat old
        | none => g
      | some st =>
        let s := match st with
          | .push .. => s.onNet gid h fun n => { n with created := n.created + 1#64 }
          | _ => s
        (setPend s l p.id (.net st d q n odd)).dueOnce (.longLatencyResult l p.id)

/-! ### Pairs as instructions (R225-R227) -/

/-- RWPUSH. -/
def execRwpush (a : PairArgs) (s : State) : Host.Outcome State Fault Refusal :=
  issue (.rwpush a) a.gd (Touch.longOf (regRes a.d ++ regRes a.a)) (fun pc => do
    let l ← netM
    let g ← grainM
    let x := portref (g.reg a.d.toNat)
    let y := portref (g.reg a.a.toNat)
    trapWhen (portNum x != 0) .netPortInvalid (portInfo x)
    trapWhen (portNum y != 0) .netPortInvalid (portInfo y)
    trapWhen (decide (l.nodeCount ≤ portIndex x)) .netPortInvalid (portInfo x)
    trapWhen (decide (l.nodeCount ≤ portIndex y)) .netPortInvalid (portInfo y)
    let c := (← get).curCore
    onNetM fun n => { n with created := n.created + 1#64 }
    pendDueM pc (.push (BitVec.ofNat 64 x) (BitVec.ofNat 64 y) (c.cycle + c.chanWatchdog.toNat)) [] a.la) s
/-- The rule entry of two agents (R226). -/
def ruleEntry (s : State) (l : Launch) (gid a b : Nat) : Nat :=
  leNat ((List.range 4).map fun i => s.mem.read (gid * 2 ^ 38 + l.ruleTable + 4 * (64 * a + b) + i))
/-- The header of a node, read at its owner. -/
def headerM (l : Launch) (p : Word) : M Word := do
  trapWhen (decide (l.nodeCount ≤ portIndex p.toNat)) .netPortInvalid (portInfo p.toNat)
  let bs ← readM { ptr := 0#64, addr := l.nodeAddr (portCluster p.toNat) (portIndex p.toNat), named := portCluster p.toNat, size := 8, ctx := l.ctx } false
  pure (wordOf bs 0)
/-- The pair that RWPOP rewrites: the record it has taken already, or one that its search takes (R226, R309). -/
def pairM (l : Launch) : M (Option (Word × Word)) := do
  let s ← get
  match s.grain.taken with
  | some r => pure (some r)
  | none =>
    match searchPair s l s.grain.launch s.cur.core with
    | none => pure none
    | some (r, s') =>
      set s'
      onGrain fun g => { g with taken := some r }
      pure (some r)
/-- RWPOP (R226, R310). -/
def execRwpop (a : CtlArgs) (s : State) : Host.Outcome State Fault Refusal :=
  issue (.rwpop a) a.gd (Touch.longOf [.g 0#4, .g 1#4, .g 2#4, .g 3#4]) (fun _ => do
    let l ← netM
    let g ← grainM
    match g.pair with
    | some p => trapM .netPortInvalid (portInfo p.1.toNat)
    | none => pure ()
    modify fun s =>
      let l := s.launch g.launch
      if l.popped.contains g.ident then s else s.setLaunch g.launch { l with popped := l.popped ++ [g.ident] }
    match ← pairM l with
    | none =>
      if l.finished then exitM
      else
        modify fun s => s.dueOnce (.stealRetryTimer s.cur)
        parkKeep .pair
    | some (x, y) =>
      let (hx, hy) ← keepingM (do
        let hx ← headerM l x
        let hy ← headerM l y
        pure (hx, hy))
      modify fun s => (s.acquire s.cur.core (portCluster x.toNat) none).acquire s.cur.core (portCluster y.toNat) none
      let e := ruleEntry (← get) l s.here (agentOf hx) (agentOf hy)
      trapWhen (decide (l.agents ≤ agentOf hx) || decide (l.agents ≤ agentOf hy) || !e.testBit 31 || e / 2 ^ 28 % 4 != 0) .ruleMissing
        (BitVec.ofNat 64 (agentOf hx + 64 * agentOf hy))
      let (u, v, hu, hv) := if e.testBit 30 then (y, x, hy, hx) else (x, y, hx, hy)
      onGrain fun g =>
        let g := (((g.setReg 0 u).setReg 1 v).setReg 2 hu).setReg 3 hv
        { g with pc := (l.entry &&& (0xFFF#64 <<< 52)) ||| BitVec.ofNat 64 (2 * (e % 2 ^ 28)), pair := some (x, y), taken := none }) s
/-- RWDONE (R227, R312). -/
def execRwdone (a : LaArgs) (s : State) : Host.Outcome State Fault Refusal :=
  issue (.rwdone a) a.gd (Touch.longOf []) (fun pc => do
    let _ ← netM
    let g ← grainM
    trapWhen g.pair.isNone .netPortInvalid 0#64
    parkWhen (g.pend.any fun p => match p.kind with
      | .net .. | .push .. => true
      | _ => false) .release
    releaseWaitsM .system
    onNetM fun n => { n with done := n.done + 1#64 }
    onGrain fun g => { g with pair := none }
    let id ← pendM pc (.packet 0) [] a.la
    onGrain fun g => { g with pend := g.pend.filter fun p => p.id != id }) s

end Sys2Proof.Machine
end

