-- ==== Sys2Proof/Machine/Sys.lean ====
section
/-! DEFINITION. System instructions: major SYS (spec/07_matrix_stream_net_and_system_instructions.md R228-R236, spec/01 R37, R38), with
the monitor services (spec/20 R394, R395) and page invalidation (R231). -/

namespace Sys2Proof.Machine

/-- TRAP (R228). -/
def execTrap (a : TrapArgs) (s : State) : Host.Outcome State Fault Refusal :=
  issue (.trap a) a.gd (Touch.of []) (fun _ => trapM .trapInstr ((BitVec.ofInt 32 (a.imm.val false)).setWidth 64)) s

/-- An instruction of the prefect: PRIVILEGE at grain level (R229, R237). -/
def monitorM : M Unit := do trapWhen (!(← get).inMonitor) .privilege 0xFF#64

/-! ### Monitor mode and its services (R229, R394, R395) -/

/-- A length that a service takes (R395). -/
def svcLen (i : Instr) (lo hi : Nat) : M Nat := do
  let n := ((← grainM).reg 2).toNat
  reservedWhen (decide (n < lo) || decide (hi < n)) i
  pure n
/-- The source and destination of SEAL and OPEN, checked by R33. -/
def svcAccs (n m : Nat) : M (Acc × Acc) := do
  let g ← grainM
  let src ← accM (g.reg 1) { readSpec [0] n 1 with seqRule := true }
  let dst ← accM (g.reg 0) (writeSpec [0] m 1)
  pure (src, dst)
/-- The data key of the grain's context (R394). -/
def dataKeyOf (s : State) : Option (BitVec 256) := (s.ctxOf (clusterNode s.here) s.grain.ctx).dataKey
/-- The service that a number names, with its checks; a service not offered, or SEAL and OPEN without a data key, raise PRIVILEGE
(R394). -/
def svcM (i : Instr) (n : Nat) : M Svc := do
  let s ← get
  match n with
  | 0x00 => pure .version
  | 0x01 => pure .measure
  | 0x10 =>
    trapWhen (dataKeyOf s).isNone .privilege 0xFF#64
    trapWhen (decide (2 ≤ s.curLaunch.reps.count)) .nondetForbidden 0#64
    let len ← svcLen i 0 65536
    let (src, dst) ← svcAccs len (len + 28)
    pure (.sealBuf src dst (s.grain.reg 3))
  | 0x11 =>
    trapWhen (dataKeyOf s).isNone .privilege 0xFF#64
    let len ← svcLen i 28 65564
    let (src, dst) ← svcAccs len (len - 28)
    pure (.openBuf src dst (s.grain.reg 3))
  | _ => trapM .privilege 0xFF#64
/-- The prefect's segment registers (R229). -/
def monitorSegs : Vector Seg 8 :=
  Vector.ofFn fun i => ⟨Config.monitorSeg i.val 0, Config.monitorSeg i.val 1, Config.monitorSeg i.val 2⟩
/-- MCALL (R229). -/
def execMcall (a : McallArgs) (s : State) : Host.Outcome State Fault Refusal :=
  issue (.mcall a) a.gd (Touch.of []) (fun pc => do
    trapWhen (← get).inMonitor .privilege 0xFF#64
    quietM
    let svc ← svcM (.mcall a) a.svc.toNat
    modify fun s =>
      let g := s.grain
      let s := s.setSlot s.cur
        { s.slotAt s.cur with st := .monitor, msave := some { pc := g.pc, sg := g.sg, call := pc, svc } }
      s.setGrain { g with pc := Config.monitorEntry a.svc.toNat, sg := monitorSegs }) s

/-- Leaves monitor mode at a PC (R229). -/
def leaveMonitor (s : State) (m : MSave) (pc : Word) : State :=
  s.leaveMonitorAt s.cur m pc
/-- A service's source bytes, read at their owners; none when the read faulted, precisely at the MCALL (R395). -/
def svcRead (m : MSave) (acc : Acc) : M (Option (List Byte)) := do
  let s ← get
  match serveLoad s s.cur.core acc.ctx acc.named acc.addr acc.size false false with
  | .value bs s' => set s'; pure (some bs)
  | .wait s' => throw (Stop.parkIn s' .engineLine)
  | .fault c a =>
    set ((leaveMonitor s m m.call).raise c (BitVec.ofNat 64 a))
    pure none
  | .noPlace (.refused _ _) =>
    set ((leaveMonitor s m m.call).raise .segBounds (segInfo acc.ptr))
    pure none
  | .noPlace p => noPlaceM acc.ctx p (segInfo acc.ptr) 0
/-- A service's destination bytes: stores of the grain, performed at once (R395). Answers whether they were. -/
def svcWrite (m : MSave) (acc : Acc) (bs : List Byte) : M Bool := do
  parkWhen ((← get).storesPending (← get).cur) .stores
  parkWhen (!bs.isEmpty && engineHolds (← get) acc.ctx acc.addr bs.length) .engineLine
  let s ← get
  match ownerWrite s acc.ctx acc.addr bs with
  | .ok s' =>
    set s'
    signM acc.addr 0 bs
    modify fun s => detAccess s s.cur m.call acc.addr acc.size true
    pure true
  | .error (.refused _ _) =>
    set ((leaveMonitor s m m.call).raise .segBounds (segInfo acc.ptr))
    pure false
  | .error p => noPlaceM acc.ctx p (segInfo acc.ptr) 1
/-- The chain value of the grain's context in 8-byte words (R394). -/
def chainWord (s : State) (i : Nat) : Word := wordOf (s.ctxOf (clusterNode s.here) s.grain.ctx).chain (8 * i)
/-- The effect of a service before its MRET. Answers whether the grain goes on. -/
def runSvc (m : MSave) : M Bool := do
  let s ← get
  match m.svc with
  | .version =>
    onGrain fun g => g.setReg 0 (Config.prefectVersion &&& 0xFFFFFFFF#64)
    pure true
  | .measure =>
    onGrain fun g => (List.range 6).foldl (fun g i => g.setReg i (chainWord s i)) g
    pure true
  | .sealBuf src dst aad =>
    match ← svcRead m src with
    | none => pure false
    | some text =>
      let s ← get
      let node := clusterNode s.here
      let x := s.ctxOf node s.grain.ctx
      let out := sealBytes (x.dataKey.getD 0#256) (sealNonce s.grain.ctx x.counter) (leBytes 8 aad.toNat) text
      if ← svcWrite m dst out then
        modify fun s => s.setCtx node s.grain.ctx { s.ctxOf node s.grain.ctx with counter := x.counter + 1 }
        onGrain fun g => g.setReg 0 (BitVec.ofNat 64 (text.length + 28))
        pure true
      else pure false
  | .openBuf src dst aad =>
    match ← svcRead m src with
    | none => pure false
    | some buf =>
      match openBytes ((dataKeyOf (← get)).getD 0#256) (leBytes 8 aad.toNat) buf with
      | none =>
        onGrain fun g => g.setReg 0 0#64
        pure true
      | some text =>
        if ← svcWrite m dst text then
          onGrain fun g => g.setReg 0 1#64
          pure true
        else pure false
/-- MRET (R229): the service takes its effect, and the grain resumes at the saved PC with its segments restored. -/
def execMret (a : CtlArgs) (s : State) : Host.Outcome State Fault Refusal :=
  issue (.mret a) a.gd (Touch.of []) (fun _ => do
    monitorM
    let s ← get
    match (s.slotAt s.cur).msave with
    | none => pure ()
    | some m =>
      if ← runSvc m then modify fun s => leaveMonitor s m m.pc) s

/-! ### Control registers (R37, R38, R230) -/

/-- REPLICA_INFO (R37, R323). -/
def replicaInfo (s : State) : Word :=
  let r := s.curLaunch.reps
  if r.count ≤ 1 then 0x11#64
  else BitVec.ofNat 64 (r.live.length % 4 + 4 * (s.grain.replica % 4) + (if r.primary = s.grain.replica then 16 else 0))
/-- A control register's value. -/
def crRead (s : State) (n : Nat) : Word :=
  let c := s.curCore
  match n with
  | 0 => s.grain.ctx.setWidth 64
  | 1 => BitVec.ofNat 64 (pageAddr s s.grain.launch s.cur.core)
  | 2 => c.staggerStep.setWidth 64
  | 3 => c.sliceCycles.setWidth 64
  | 4 => c.chanWatchdog.setWidth 64
  | 5 => if s.curLaunch.detMode then 1#64 else 0#64
  | 6 => replicaInfo s
  | 7 => c.trapCause
  | 8 => c.trapInfo
  | _ => s.curLaunch.reduceFlags.setWidth 64
/-- CRRD: TRAP_CAUSE and TRAP_INFO are read in monitor mode only. -/
def execCrrd (a : CrArgs) (s : State) : Host.Outcome State Fault Refusal :=
  let n := crIndex a.lo a.hi
  issue (.crrd a) a.gd (Touch.of (regRes a.g)) (fun _ => do
    let s ← get
    trapWhen ((n == 7 || n == 8) && !s.inMonitor) .privilege (BitVec.ofNat 64 n)
    onGrain fun g => g.setReg a.g.toNat (crRead s n)) s
/-- The listed bits of a control register. -/
def crMask (n : Nat) : Word :=
  match n with
  | 0 => 0xFFF#64
  | 2 => 0xFF#64
  | 3 | 4 => 0xFFFFFFFF#64
  | 5 => 1#64
  | 6 => 0x1F#64
  | 7 => 0x1FFF#64
  | _ => BitVec.allOnes 64
/-- The effect of a CRWR. -/
def crWrite (s : State) (n : Nat) (x : Word) : State :=
  let c := s.curCore
  let h := s.grain.launch
  let l := s.curLaunch
  match n with
  | 0 => s.setGrain { s.grain with ctx := x.setWidth 12 }
  | 2 => s.setCurCore { c with staggerStep := x.setWidth 8 }
  | 3 => s.setCurCore { c with sliceCycles := x.setWidth 32 }
  | 4 => s.setCurCore { c with chanWatchdog := x.setWidth 32 }
  | 5 => s.setLaunch h { l with detMode := x.getLsbD 0 }
  | 6 =>
    let r := x.toNat / 4 % 4
    let s := s.setLaunch h { l with reps := { l.reps with count := x.toNat % 4, live := List.range (x.toNat % 4),
                                                          primary := if x.getLsbD 4 then r else l.reps.primary } }
    s.setGrain { s.grain with replica := r }
  | 7 => s.setCurCore { c with trapCause := x }
  | 8 => s.setCurCore { c with trapInfo := x }
  | _ => s
/-- CRWR: only STAGGER_STEP is written at grain level. -/
def execCrwr (a : CrArgs) (s : State) : Host.Outcome State Fault Refusal :=
  let n := crIndex a.lo a.hi
  issue (.crwr a) a.gd (Touch.of (regRes a.g)) (fun _ => do
    trapWhen (n != 2 && !(← get).inMonitor) .privilege (BitVec.ofNat 64 n)
    let x := (← grainM).reg a.g.toNat
    reservedWhen ((x &&& ~~~(crMask n)) != 0#64) (.crwr a)
    modify fun s => crWrite s n x) s

/-! ### Segments (R233) -/

/-- Three registers from F on. -/
def threeRegs (f : BitVec 3) : List Res := [.g (f.setWidth 4), .g (f.setWidth 4 + 1#4), .g (f.setWidth 4 + 2#4)]
/-- Writes a segment register after the checks of R31; it becomes private. -/
def setSegM (i : Instr) (n : BitVec 3) (d : Seg) : M Unit := do
  reservedWhen (!d.valid n.toNat) i
  onGrain fun g => { g with sg := g.sg.set n.toFin d.setPriv }
/-- SEGSET. -/
def execSegset (a : SegArgs) (s : State) : Host.Outcome State Fault Refusal :=
  issue (.segset a) a.gd (Touch.of (threeRegs a.f)) (fun _ => do
    let g ← grainM
    setSegM (.segset a) a.n ⟨g.reg a.f.toNat, g.reg (a.f.toNat + 1), g.reg (a.f.toNat + 2)⟩) s
/-- SEGGET. -/
def execSegget (a : SegArgs) (s : State) : Host.Outcome State Fault Refusal :=
  issue (.segget a) a.gd (Touch.of (threeRegs a.f)) (fun _ => onGrain fun g =>
    let d := g.seg a.n.toNat
    ((g.setReg a.f.toNat d.w0).setReg (a.f.toNat + 1) d.w1).setReg (a.f.toNat + 2) d.w2) s
/-- SEGLD: it parks until the data arrives. -/
def execSegld (a : SegldArgs) (s : State) : Host.Outcome State Fault Refusal :=
  issue (.segld a) a.gd (Touch.of (regRes a.a)) (fun _ => do
    let (p, _) ← ptrM a.a [] plainFmts
    let acc ← accM p (readSpec plainFmts 24 8)
    let bs ← readM acc false
    setSegM (.segld a) a.n ⟨wordOf bs 0, wordOf bs 8, wordOf bs 16⟩) s

/-! ### Invalidating pages (R231) -/

/-- Bytes of a page (R97). -/
def pageBytes : PageSize → Nat
  | .p4k => 2 ^ 12 | .p64k => 2 ^ 16 | .p2m => 2 ^ 21 | .p64m => 2 ^ 26 | .p512m => 2 ^ 29
/-- The physical line `k` is one that a mapping puts behind a page. -/
def TlbEntry.behind (e : TlbEntry) (va size k : Nat) : Bool :=
  let lo := max e.base va
  overlaps (32 * k) 32 (e.place lo) (min (e.base + e.size) (va + size) - lo)
/-- No TLB holds a mapping of the page any more, and its L2 and L1 lines are written back and gone (R231). -/
def invalidatePage (s : State) (gid : Nat) (ctx : BitVec 12) (va size : Nat) : State :=
  let keep := fun (e : TlbEntry) => !(e.ctx == ctx && e.cl == gid && overlaps e.base e.size va size)
  let c := s.cluster gid
  let d := s.die (clusterDie gid)
  let old := (c.tlb ++ d.tlb).filter fun e => !keep e
  let s := s.setCluster gid { c with tlb := c.tlb.filter keep }
  let s := writeBack (s.setDie (clusterDie gid) { d with tlb := d.tlb.filter keep }) gid
  let page := gid * 2 ^ 38 + va
  let inPage := fun (k : Nat) => old.any (fun e => e.behind va size k) || (ctx == 0#12 && overlaps (32 * k) 32 page size)
  let s := ((s.cluster gid).l2.filter fun x => inPage x.addr).foldl (fun s x => l1Invalidate s gid x.addr none) s
  let s := (List.range 16).foldl (fun s k =>
    let q := s.core (gid * 32 + k)
    s.setCore (gid * 32 + k) { q with
      l1 := q.l1.filter fun y => !(y.remote.isNone && y.ctx == ctx && overlaps y.addr 32 page size)
      icache := q.icache.filter fun y => !(y.ctx == ctx && overlaps (32 * y.addr) 32 page size) }) s
  let c := s.cluster gid
  s.setCluster gid { c with l2 := c.l2.filter fun x => !inPage x.addr }
/-- Starts an INVPG or INVPGR; its completion is due. -/
def startInv (s : State) (gid : Nat) (o : InvOp) : State :=
  let s := invalidatePage s gid o.ctx o.va o.size
  let c := s.cluster gid
  (s.setCluster gid { c with invWaits := c.invWaits ++ [o] }).due [.invpgCompletion o.who]
/-- A recorded source lies in a page (R231). -/
def sourceIn (x : WSlot) (gid : Nat) (o : InvOp) : Bool :=
  x.st != .empty && x.ctx == o.ctx && overlaps x.source x.length (gid * 2 ^ 38 + o.va) o.size
/-- INVPGR invalidates the weight slots of the system whose source lies in the page; saved records become empty (R231, R384). -/
def invWeights (s : State) (gid : Nat) (o : InvOp) : State :=
  { s with cores := s.cores.map fun e =>
      (e.1, { e.2 with
        wslots := e.2.wslots.map fun x => if sourceIn x gid o then x.invalidate else x
        wsaves := e.2.wsaves.map fun w => (w.1, { w.2 with slots := w.2.slots.map fun x => if sourceIn x gid o then WSlot.empty else x }) }) }
/-- An operation queued at an array still uses an image from the page (R297). -/
def invHeld (s : State) (gid : Nat) (o : InvOp) : Bool :=
  s.cores.any fun e => (List.finRange 8).any fun w =>
    sourceIn e.2.wslots[w] gid o && e.2.arrayQ.any fun x => x.w.toFin == w
/-- INVPG and INVPGR. -/
def inv (i : Instr) (a : InvArgs) (reassign : Bool) (s : State) : Host.Outcome State Fault Refusal :=
  issue i a.gd (Touch.of (regRes a.a)) (fun _ => do
    monitorM
    let x := (← grainM).reg a.a.toNat
    reservedWhen (decide (2 ^ 38 ≤ x.toNat)) i
    trapWhen (x.toNat % pageBytes a.size != 0) .misaligned x
    trapWhen (!translated x.toNat) .segBounds x
    let s ← get
    let sl := s.slotAt s.cur
    if sl.invDone then modify fun s => s.setSlot s.cur { s.slotAt s.cur with invDone := false }
    else if (s.cluster s.here).invWaits.any fun o => o.who == .grain s.cur then parkM .monitorOp
    else
      modify fun s => startInv s s.here
        { who := .grain s.cur, ctx := s.grain.ctx, va := x.toNat, size := pageBytes a.size, reassign, leases := false, since := 0 }
      parkKeep .monitorOp) s
/-- INVPG. -/
def execInvpg (a : InvArgs) (s : State) : Host.Outcome State Fault Refusal := inv (.invpg a) a false s
/-- INVPGR. -/
def execInvpgr (a : InvArgs) (s : State) : Host.Outcome State Fault Refusal := inv (.invpgr a) a true s

/-! ### Protection entries (R234) -/

/-- Accesses that an outstanding operation still makes. -/
def PendKind.accs : PendKind → List Acc
  | .load a .. | .ldrec a _ | .seqwait a .. | .seqadd a _ | .clean a | .mldc a _ | .wbld a _ => [a]
  | .atomic r .. => [r.acc]
  | _ => []
/-- Accesses that a monitor service still makes: those checked at its MCALL (R395). -/
def Svc.accs : Svc → List Acc
  | .sealBuf src dst _ | .openBuf src dst _ => [src, dst]
  | _ => []
/-- The places of the words that a grain's outstanding operations still read or write; a WATCH that is not registered yet reads its word. -/
def Grain.admitted (g : Grain) : List (BitVec 12 × Nat × Nat) :=
  g.pend.flatMap fun p => match p.kind with
    | .watch r => [(g.ctx, (g.watches[r]).addr, 8)]
    | k => k.accs.map fun a => (a.ctx, a.addr, a.size)
/-- The places a protocol step of a net launch still reaches: the slot of its exchange, or the bags that take its push. -/
def NetStep.places (l : Launch) (q n : Word) (step : NetStep) : List (Nat × Nat) :=
  match step with
  | .push x y _ => [(portCluster (pairOf x.toNat y.toNat).1 * 2 ^ 38 + l.ruleTable + 0x4000, 0x20000)]
  | _ => [(l.slotAddr (linkExchange q n step).1, 8)]
/-- The accesses of a grain's streams that are on their way: the next fetch of an input unit, and what an output unit has yet to write. -/
def streamAccs (s : State) (l : Loc) : List (Nat × Nat) :=
  (List.finRange 4).flatMap fun n =>
    let st := (s.grainAt l).streams[n]
    if !st.bound then []
    else if st.output then
      (List.range st.appended.length).map fun i => (st.elemAt s l (st.pos - st.appended.length + i), etBytes st.fmt)
    else if s.agenda.contains (.inputStreamFetch l n) && decide (st.walked < st.total) then [(st.elemAt s l st.walked, etBytes st.fmt)]
    else []
/-- The accesses of a core's units that are on their way: A operands of queued operations, and weight reloads. -/
def Core.unitAccs (c : Core) : List (BitVec 12 × Nat × Nat) :=
  c.arrayQ.filterMap (fun o => match o.a with
    | .memory a => some (a.ctx, a.addr, a.size)
    | .stream _ => none)
    ++ (c.wslots.toList.filter fun x => !x.reload.isEmpty).map fun x => (x.ctx, x.source, x.length)
/-- An access that an entry admitted has not been performed (R234): a store of a buffer, an operation or a stream of a grain, also of one that
is spilled, a service's, an operand of the array, a reload, an engine command, a remote update or a far free. -/
def admittedUnder (s : State) (p : Prot) (core : Option Nat) : Bool :=
  let hit := fun (ctx : BitVec 12) (addr n : Nat) => p.valid && p.ctx == ctx && overlaps addr n p.base.toNat p.limit
  let here := fun (k : Nat) => match core with
    | some c => k == c
    | none => true
  s.cores.any (fun e => here e.1 && e.2.unitAccs.any fun a => hit a.1 a.2.1 a.2.2)
    || s.allLocs.any (fun l => here l.core && (streamAccs s l).any fun a => hit (s.grainAt l).ctx a.1 a.2)
    || s.allLocs.any (fun l => here l.core && (s.grainAt l).pend.any fun q => match q.kind with
      | .net step _ x y _ => (step.places (s.launch (s.grainAt l).launch) x y).any fun a => hit (s.grainAt l).ctx a.1 a.2
      | .push x y t => (NetStep.places (s.launch (s.grainAt l).launch) x y (.push x y t)).any fun a => hit (s.grainAt l).ctx a.1 a.2
      | _ => false)
    || s.clusters.any (fun e => e.2.allUpdates.any (fun u => here u.from_.core && hit u.req.acc.ctx u.req.acc.addr u.req.acc.size)
      || e.2.farFrees.any fun f => here (f.where_ / 16) && hit (s.launch f.launch).ctx f.addr 32)
    ||
  s.cores.any (fun e => here e.1 && e.2.buffer.any fun b => hit b.ctx b.addr b.bytes.length)
    || s.allLocs.any (fun l => here l.core && (s.grainAt l).admitted.any fun a => hit a.1 a.2.1 a.2.2)
    || s.allLocs.any (fun l => here l.core && ((s.slotAt l).msave.toList.flatMap fun m => m.svc.accs).any fun a => hit a.ctx a.addr a.size)
    || s.clusters.any (fun e => core.all (fun k => coreCluster k == e.1) && e.2.slates.any fun x =>
      x.2.grain.admitted.any fun a => hit a.1 a.2.1 a.2.2)
    || s.clusters.any (fun e => e.2.active.any fun x =>
      here x.issuer.core && (hit x.ctx x.dst (32 * x.granules) || (x.pull && hit x.ctx (x.srcAt s 0) (x.rows * 32 * x.stride + x.len))))
/-- PROTW waits, and output units write what they hold meanwhile (R234). -/
def protWaitM (p : Prot) (core : Option Nat) : M Unit := do
  let s ← get
  if admittedUnder s p core then parkOn .monitorOp (retryEvent s.cur :: s.allLocs.flatMap (streamFlush s))
/-- PROTW. -/
def execProtw (a : ProtwArgs) (s : State) : Host.Outcome State Fault Refusal :=
  issue (.protw a) a.gd (Touch.of (threeRegs a.f)) (fun _ => do
    monitorM
    let g ← grainM
    let w := g.reg (a.f.toNat + 2)
    reservedWhen ((w &&& ~~~(0x3FFF7#64)) != 0#64) (.protw a)
    let p : Prot := { valid := w.getLsbD 17, base := g.reg a.f.toNat, limit := ((g.reg (a.f.toNat + 1)).extractLsb' 0 52).toNat,
                      rights := w.extractLsb' 0 3, ctx := w.extractLsb' 4 12 }
    let s ← get
    if w.getLsbD 16 then
      let c := s.cluster s.here
      protWaitM c.prot[a.e.toFin] none
      onCluster s.here fun c => { c with prot := c.prot.set a.e.toFin p }
    else
      protWaitM s.curCore.prot[a.e.toFin] (some s.cur.core)
      onCore fun c => { c with prot := c.prot.set a.e.toFin p }) s

/-! ### SPILL and FILL (R232) -/

/-- The place of the grain that a slot belongs to: of a gang's odd half the even slot's. -/
def gangLoc (s : State) (l : Loc) : Loc := if (s.slotAt l).st == .oddHalf then ⟨l.core, l.slot - 1⟩ else l
/-- The operand of SPILL and FILL: the slot, whether the weight records are meant, the save address. -/
def spillOperand (i : Instr) (r : Reg) : M (Fin 16 × Bool × Nat) := do
  monitorM
  let x := (← grainM).reg r.toNat
  reservedWhen ((x &&& ~~~(0x3FFFFFF81F#64)) != 0#64) i
  let slot : Fin 16 := (x.extractLsb' 0 4).toFin
  let s ← get
  reservedWhen ((gangLoc s ⟨s.cur.core, slot⟩).slot == s.cur.slot) i
  pure (slot, x.getLsbD 4, s.here * 2 ^ 38 + (x.toNat / 2048 * 2048) % 2 ^ 38)
/-- Writes a sealed save at its address and answers its bytes (R392); a new version is used. -/
def writeSaveM (addr : Nat) (ctx : BitVec 12) (purpose : Nat) (text : List Byte) : M (List Byte) := do
  let (ver, s) := nextVersion (← get) (← get).cur.core
  let image := sealedImage ctx purpose ver text
  match ownerWrite s 0#12 addr image with
  | .error p => noPlaceM 0#12 p (BitVec.ofNat 64 (addr % 2 ^ 38)) 1
  | .ok s' =>
    set s'
    pure image
/-- A prefect's spill or fill of the weight records waits until nothing of the core's is to use them (R208, R232). -/
def weightsIdleM : M Unit := do
  let c := (← get).curCore
  parkWhen (!c.arrayQ.isEmpty || c.wslots.toList.any WSlot.taken) .monitorOp
/-- SPILL. -/
def execSpill (a : CtlRegArgs) (s : State) : Host.Outcome State Fault Refusal :=
  issue (.spill a) a.gd (Touch.of (regRes a.r)) (fun _ => do
    let (slot, weights, addr) ← spillOperand (.spill a) a.r
    let s ← get
    let key := saveKey s.here addr
    if weights then
      weightsIdleM
      let image ← writeSaveM addr s.curCore.wholder 1 (weightBytes (s.curCore.wslots.toList.map WSlot.record))
      modify fun s =>
        let c := s.curCore
        let s := s.setSlate s.here key { grain := Grain.blank, tile := none, weights := c.wslots.toList.map WSlot.record, image }
        s.setCurCore { c with wslots := c.wslots.map WSlot.invalidate }
    else
      let l := gangLoc s ⟨s.cur.core, slot⟩
      match (s.slotAt l).st with
      | .empty => pure ()
      | _ =>
        parkWhen (!evictable s l || !s.engineIdle s.cur.core) .monitorOp
        if (s.grainAt l).appendedPending then parkOn .monitorOp (streamFlush s l)
        let image ← writeSaveM addr (s.grainAt l).ctx 0 (slateOfSlot s l)
        modify fun s =>
          let s := saveGrain (s.setSlot l { s.slotAt l with expired := false }) l key image
          let c := s.core l.core
          s.setCore l.core { c with slots := c.slots.set l.slot Slot.blank }) s
/-- FILL: a save that is not the one written, or is no longer what was written, fails its authentication. -/
def execFill (a : CtlRegArgs) (s : State) : Host.Outcome State Fault Refusal :=
  issue (.fill a) a.gd (Touch.of (regRes a.r)) (fun _ => do
    let (slot, weights, addr) ← spillOperand (.fill a) a.r
    let s ← get
    let key := saveKey s.here addr
    let l : Loc := ⟨s.cur.core, slot⟩
    let bad : Word := BitVec.ofNat 64 addr
    parkWhen (!weights && (s.slotAt l).st != .empty) .monitorOp
    match PMap.get? key (s.cluster s.here).slates with
    | none => trapM .uncorrectable bad
    | some x =>
      trapWhen (x.weights.isEmpty == weights) .uncorrectable bad
      match readOwner s 0#12 addr x.image.length with
      | .value bs =>
        trapWhen (bs != x.image) .uncorrectable bad
        if weights then
          weightsIdleM
          onCore fun c => { c with wslots := Vector.ofFn fun i => x.weights.getD i.val WSlot.empty }
          onCluster s.here fun c => { c with slates := PMap.erase key c.slates }
        else
          parkWhen (!tileFree s l.core x || !s.engineIdle s.cur.core) .monitorOp
          modify fun s => restoreGrain s l key x
      | .noPlace p => noPlaceM 0#12 p (BitVec.ofNat 64 (addr % 2 ^ 38)) 0
      | _ => trapM .uncorrectable bad) s

/-! ### Replica state and HALT (R235, R236) -/

/-- RDSIG. -/
def execRdsig (a : CtlRegArgs) (s : State) : Host.Outcome State Fault Refusal :=
  issue (.rdsig a) a.gd (Touch.of (regRes a.r)) (fun _ => onGrain fun g => g.setReg a.r.toNat g.sig) s
/-- NDVAL. -/
def execNdval (a : NdvalArgs) (s : State) : Host.Outcome State Fault Refusal :=
  issue (.ndval a) a.gd (Touch.of (regRes a.d)) (fun _ => do
    let v ← ndReadM (if a.rand then randM else clockM)
    onGrain fun g => g.setReg a.d.toNat v) s
/-- HALT: the slot leaves the core's pool, the core closes, and its reset is due; a second halt within 24 h is a failure of the core. -/
def execHalt (a : CtlArgs) (s : State) : Host.Outcome State Fault Refusal :=
  issue (.halt a) a.gd (Touch.of []) (fun _ => do
    monitorM
    quietM
    modify fun s =>
      let now := (s.pkg (clusterNode s.here)).log.poweredSec
      let again := s.curCore.halts.any fun t => decide (now < t + 86400)
      let s := s.setSlot s.cur { s.slotAt s.cur with st := .halted }
      let c := s.curCore
      let s := s.setCurCore { c with status := .closing, halts := now :: c.halts }
      s.due [if again then .coreFailureDetected s.cur.core else .coreResetAfterHalt s.cur.core]) s

end Sys2Proof.Machine
end

