-- ==== Sys2Proof/Machine/EvCore.lean ====
section
/-! DEFINITION. Events of cores and grains: issue, results, translation walks, the spill engine, watches, barriers and channels
(spec/08_grains_and_the_barrel.md R249-R256, spec/09 R272, R273, spec/05 R133-R165, spec/19 R378, R383). An event whose condition
does not hold changes nothing (notes/assumptions/6.md). -/

namespace Sys2Proof.Machine

/-! ### Issue (R250) -/

/-- Slots in the order of the rotation after the one served last. -/
def rotation (c : Core) : List (Fin 16) := (List.range 16).map fun i => ⟨(c.served.val + 1 + i) % 16, Nat.mod_lt _ (by decide)⟩
/-- Issue turns an issue throttle leaves (R434): every other clk while it is in force. -/
def issueClk (s : State) (k : Nat) : Bool := !(s.pkg (clusterNode (coreCluster k))).halfIssue || (s.core k).cycle % 2 == 0
/-- The array duty of a core's die: 1 when the die is at 105 °C, else the package's (R434, R435). -/
def arrayDuty (s : State) (k : Nat) : Nat :=
  if (s.die (clusterDie (coreCluster k))).hot then 1 else (s.pkg (clusterNode (coreCluster k))).duty
/-- The clk in which a duty of n lets an array take a step: ⌈(r + 1)·n ÷ 8⌉ > ⌈r·n ÷ 8⌉ for the cycle counter's r (R434). -/
def dutyClk (n r : Nat) : Bool := n == 8 || decide ((r * n + 7) / 8 < ((r + 1) * n + 7) / 8)
/-- A core's array may take an operand step in this clk: no droop stall, and the duty allows it (R434). -/
def arrayStep (s : State) (k : Nat) : Bool :=
  let c := s.core k
  (c.droop == 0 || decide (c.droop ≤ c.cycle)) && dutyClk (arrayDuty s k) (c.cycle % 8)
/-- A slot may issue in the core's next clk: ready or in monitor mode, not being spilled, and not issued in the previous 7 clk. -/
def issuable (s : State) (k : Nat) (i : Fin 16) : Bool :=
  let c := s.core k
  let sl := c.slots[i]
  (c.status == .running || c.status == .closing) && (sl.st == .ready || sl.st == .monitor) && c.spilling != some i
    && (match sl.lastIssue with
        | some t => decide (t + 8 ≤ c.cycle + 1)
        | none => true)
/-- The slot the core serves in its next clk. -/
def nextSlot (s : State) (k : Nat) : Option (Fin 16) :=
  if issueClk s k then (rotation (s.core k)).find? fun i => issuable s k i else none
/-- One clk of a core: the cycle counter advances and the next eligible slot takes its turn. A divide still occupies its later turns
(R109). -/
def barrelClk (s : State) (k : Nat) : State :=
  let c := s.core k
  match nextSlot s k with
  | none => s.setCore k { c with cycle := c.cycle + 1 }
  | some i =>
    let sl := c.slots[i]
    let sl := { sl with lastIssue := some (c.cycle + 1), grain := { sl.grain with skip := sl.grain.skip - 1 } }
    let s := s.setCore k { c with cycle := c.cycle + 1, served := i, slots := c.slots.set i sl }
    { s with cur := ⟨k, i⟩ }
/-- BARREL_ISSUE_CYCLE (R250): the selection. `step` then lets the slot's grain issue. -/
def execBarrelIssueCycle (core : Nat) (s : State) : Host.Outcome State Fault Refusal := event (barrelClk s core)

/-! ### Operations in slots -/

/-- A slot's outstanding operation by its number. -/
def pendAt (s : State) (l : Loc) (id : Nat) : Option Pend :=
  if (s.slotAt l).occupied then (s.grainAt l).pend.find? fun p => p.id == id else none

/-! ### Results (R39, R133, R135-R137) -/

/-- The cleaning of a value read at an owner (R133). -/
def cleanBy (s : State) (core : Nat) (acc : Acc) (c : Clean) (v : Word) : State :=
  match c with
  | .none => s
  | .compare => s.acquireAt core acc.addr acc.named (some v)
  | .always => s.acquireAt core acc.addr acc.named none
/-- A load's data has arrived. -/
def loadDone (s : State) (l : Loc) (p : Pend) (acc : Acc) (ext : Ext) (d : Reg) (clean : Clean) (plain : Bool) (x : Nat) : State :=
  let v := extendTo ext acc.size x
  let s := if plain then detAccess s l p.pc acc.addr acc.size false else s
  cleanBy (finishPend s l p.id fun g => g.setReg d.toNat v) l.core acc clean v
/-- A read at an owner for an outstanding operation: its bytes go to `k`; otherwise the operation waits, also for earlier acquires and for
earlier accesses of its bytes (R143, R288), faults at its own PC, or waits for its page. -/
def readFor (s : State) (l : Loc) (p : Pend) (acc : Acc) (plain : Bool) (k : State → List Byte → State) : State :=
  if (s.grainAt l).earlierFirst p.id acc.addr acc.size then s.dueOnce (.longLatencyResult l p.id)
  else match serveLoad s l.core acc.ctx acc.named acc.addr acc.size plain (plain && shapedLoad acc) with
  | .value bs s => k s bs
  | .wait s => s.dueOnce (.longLatencyResult l p.id)
  | .fault c a => s.faultAt l p.pc c (BitVec.ofNat 64 a)
  | .noPlace (.refused _ _) => s.faultAt l p.pc .segBounds (segInfo acc.ptr)
  | .noPlace x => noPlaceDue s acc.ctx x (.op l p.id) 0 (.longLatencyResult l p.id)
/-- A load (R131): its value is the one read now, or the one fixed when a later store of the grain entered the buffer (R288). -/
def loadResult (s : State) (l : Loc) (p : Pend) (acc : Acc) (ext : Ext) (d : Reg) (clean : Clean) (plain : Bool) (val : Option Word) :
    State :=
  match val with
  | some v =>
    if (s.grainAt l).earlierFirst p.id acc.addr acc.size then s.dueOnce (.longLatencyResult l p.id)
    else loadDone s l p acc ext d clean plain v.toNat
  | none => readFor s l p acc plain fun s bs => loadDone s l p acc ext d clean plain (leNat bs)
/-- LDREC (R136): the entry holds the record. -/
def recordResult (s : State) (l : Loc) (p : Pend) (acc : Acc) (e : BitVec 3) : State :=
  readFor s l p acc false fun s bs =>
    let c := s.core l.core
    let s := s.setCore l.core { c with shape := c.shape.set e.toFin (some { addr := acc.addr, ctx := acc.ctx, launch := (s.grainAt l).launch, data := bs }) }
    finishPend s l p.id id
/-- MLDC (R205). -/
def tileResult (s : State) (l : Loc) (p : Pend) (acc : Acc) (t : BitVec 2) : State :=
  readFor s l p acc false fun s bs =>
    let c := s.core l.core
    let s := s.setCore l.core { c with tiles := c.tiles.set t.toFin { c.tiles[t.toFin] with data := tileOfBytes bs } }
    finishPend s l p.id id

/-! ### Sequence words and watches (R151-R156, R272, R273) -/

/-- The other waits of a grain look again. -/
def retryWaits (s : State) (l : Loc) : State :=
  (s.grainAt l).pend.foldl (fun s p => if p.kind.isWait then s.dueOnce (.longLatencyResult l p.id) else s) s
/-- Arms watch register 0 for a SEQWAIT, and sets the watch bit of a local word; another SEQWAIT's word stands there first (R272). -/
def armSeq (s : State) (l : Loc) (p : Pend) (addr named : Nat) (thr : Word) : State :=
  let g := s.grainAt l
  let w := g.watches[(0 : Fin 5)]
  if w.armed && !(w.addr == addr && w.thr == thr) then s.dueOnce (.longLatencyResult l p.id)
  else if w.armed && !w.fired then s
  else
    let s := s.setGrainAt l { g with watches := g.watches.set 0 ⟨true, false, addr, named, thr, false, false⟩ }
    if addr / 2 ^ 38 = coreCluster l.core then setWatchBit s addr else s.dueOnce (.remoteWatchInsert l 0)
/-- SEQWAIT (R152): its word is read where the requests for it go now (R323). -/
def seqwaitResult (s : State) (l : Loc) (p : Pend) (acc : Acc) (d : Reg) (thr : Word) : State :=
  let g := s.grainAt l
  let acc := acc.now s (clusterNode (coreCluster l.core)) g.launch g.replica
  let w := (s.grainAt l).watches[(0 : Fin 5)]
  if (s.grainAt l).acquireBefore p.id then s.dueOnce (.longLatencyResult l p.id)
  else if w.armed && w.lost && w.named == acc.named && w.thr == thr && w.addr % 2 ^ 38 == acc.addr % 2 ^ 38 then
    s.faultAt l p.pc .peerLost (BitVec.ofNat 64 w.addr)
  else readFor s l p acc false fun s bs =>
    let v := wordOf bs 0
    if thr.toNat ≤ v.toNat then
      let mine := w.addr == acc.addr && w.thr == thr
      let s := finishPend s l p.id fun g =>
        let g := g.setReg d.toNat v
        if mine then { g with watches := g.watches.set 0 Watch.off } else g
      let s := if mine then disarm s l 0 else s
      retryWaits (s.acquireAt l.core acc.addr acc.named (some v)) l
    else armSeq s l p acc.addr acc.named thr
/-- SEQADV's add (R154), after the stores to the word that its core still holds: the grain's own, and a sibling's, which a release at core
scope does not wait for (R281, R285). -/
def seqaddResult (s : State) (l : Loc) (p : Pend) (acc : Acc) (x : Word) : State :=
  let again := Event.longLatencyResult l p.id
  if (s.grainAt l).earlierFirst p.id acc.addr 8 || engineHolds s acc.ctx acc.addr 8
      || ((s.core l.core).storesOf l.slot).any (fun b => overlaps b.addr b.bytes.length acc.addr 8)
      || (bufferedStore (s.core l.core) acc.ctx acc.addr 8).isSome then
    s.dueOnce again
  else match readOwner s acc.ctx acc.addr 8 with
    | .lost => s.faultAt l p.pc .peerLost (BitVec.ofNat 64 acc.addr)
    | .poisoned => s.faultAt l p.pc .uncorrectable (BitVec.ofNat 64 acc.addr)
    | .noPlace _ => s.faultAt l p.pc .segBounds (segInfo acc.ptr)
    | .value bs =>
      match ownerWrite s acc.ctx acc.addr (leBytes 8 (wordOf bs 0 + x).toNat) with
      | .ok s => finishPend s l p.id id
      | .error _ => s.faultAt l p.pc .segBounds (segInfo acc.ptr)
/-- A WATCH is registered: a local word is compared at once, a remote one at its owner port (R155, R273). -/
def watchResult (s : State) (l : Loc) (p : Pend) (r : Fin 5) : State :=
  let g := s.grainAt l
  let w := g.watches[r]
  if !w.armed then finishPend s l p.id id
  else if w.addr / 2 ^ 38 ≠ coreCluster l.core then s.dueOnce (.remoteWatchInsert l r)
  else
    let fired := decide (w.thr.toNat ≤ (seqValue s w.addr).toNat)
    retryWaits (finishPend s l p.id fun g => { g with watches := g.watches.set r { w with fired := w.fired || fired } }) l
/-- WAITW (R155): the mask of fired watches; each is disarmed and acquires. -/
def waitwResult (s : State) (l : Loc) (p : Pend) (d : Reg) (mask : BitVec 4) : State :=
  let g := s.grainAt l
  let armed := (List.range 4).filter fun i => mask.getLsbD i && (g.watches.toList.getD (i + 1) Watch.off).armed
  let at_ := fun (i : Nat) => g.watches.toList.getD (i + 1) Watch.off
  if g.acquireBefore p.id then s.dueOnce (.longLatencyResult l p.id)
  else match armed.find? fun i => (at_ i).lost with
    | some i => s.faultAt l p.pc .peerLost (BitVec.ofNat 64 (at_ i).addr)
    | none =>
      let fired := armed.filter fun i => (at_ i).fired
      if !armed.isEmpty && fired.isEmpty then s
      else
        let s := finishPend s l p.id fun g =>
          { (g.setReg d.toNat (BitVec.ofNat 64 (fired.foldl (fun m i => m + 2 ^ i) 0))) with
            watches := Vector.ofFn fun j => if fired.contains (j.val - 1) && 0 < j.val then Watch.off else g.watches[j] }
        fired.foldl (fun s i => s.acquireAt l.core (at_ i).addr (at_ i).named none) s
/-- Registers a watch at the owner port, which compares it at once; a full table refuses it (R153, R273). -/
def insertWatch (s : State) (l : Loc) (r : Fin 5) : State :=
  match grainOf s l with
  | none => s
  | some g =>
    let w := g.watches[r]
    let gid := w.addr / 2 ^ 38
    if !w.armed || w.fired then s
    else
      let s := match g.pend.find? fun p => p.kind == .watch r with
        | some p => finishPend s l p.id id
        | none => s
      let g := (grainOf s l).getD g
      if !s.reachable w.addr then retryWaits (putGrain s l { g with watches := g.watches.set r { w with lost := true } }) l
      else if w.thr.toNat ≤ (seqValue s w.addr).toNat then s.due [.remoteWatchWake l r (seqValue s w.addr)]
      else
        let c := s.cluster gid
        let rest := c.watchTab.filter fun e => !(e.waiter == l && e.reg == r)
        if rest.length < 256 then
          let s := s.setCluster gid { c with watchTab := rest ++
            [{ addr := w.addr, thr := w.thr, waiter := l, reg := r, ctx := g.ctx, launch := g.launch }] }
          putGrain s l { g with watches := g.watches.set r { w with polling := false } }
        else putGrain s l { g with watches := g.watches.set r { w with polling := true } }
/-- REMOTE_WATCH_INSERT (R273). -/
def execRemoteWatchInsert (loc : Loc) (reg : Fin 5) (s : State) : Host.Outcome State Fault Refusal := event (insertWatch s loc reg)
/-- REMOTE_WATCH_WAKE (R153, R273): a wake of a watch that is gone is discarded; one for a spilled grain is recorded in its slate. -/
def execRemoteWatchWake (loc : Loc) (reg : Fin 5) (v : Word) (s : State) : Host.Outcome State Fault Refusal :=
  match grainOf s loc with
  | none => event s
  | some g =>
    let w := g.watches[reg]
    if w.armed && decide (w.thr.toNat ≤ v.toNat) then
      let s := putGrain s loc { g with watches := g.watches.set reg { w with fired := true, polling := false } }
      event (if (slateOf loc).isSome then s else (retryWaits s loc).wake loc)
    else event s
/-- WATCH_POLL_TIMER (R153): a refused waiter reads its word again and tries the insertion again. -/
def execWatchPollTimer (loc : Loc) (reg : Fin 5) (s : State) : Host.Outcome State Fault Refusal :=
  match grainOf s loc with
  | none => event s
  | some g => event (if (g.watches[reg]).polling then insertWatch s loc reg else s)

/-! ### Channels (R161-R165) -/

/-- The receivers of a channel look again. -/
def wakeReceivers (s : State) (k : Nat) (ch : BitVec 3) : State :=
  (coreLocs k).foldl (fun s l =>
    if (s.slotAt l).occupied then
      (s.grainAt l).pend.foldl (fun s p => match p.kind with
        | .recv _ c _ => if c == ch then s.dueOnce (.longLatencyResult l p.id) else s
        | _ => s) s
    else s) s
/-- RECV and RECVS (R163, R165): receives are served in the order they began to wait. -/
def recvResult (s : State) (l : Loc) (p : Pend) (d : Reg) (ch : BitVec 3) (sender : Option Nat) : State :=
  let g := s.grainAt l
  let q := (s.core l.core).chans[ch.toFin]
  let before := q.receivers.takeWhile fun w => w != (g.key, p.id)
  match q.flits.find? fun f => takesFlit g l.core ch sender f && !before.any (wouldTake s l.core ch f) with
  | none => s
  | some f =>
    let c := s.core l.core
    let s := s.setCore l.core { c with chans := c.chans.set ch.toFin { q with receivers := q.receivers.erase (g.key, p.id) } }
    let s := takeFlit s l.core ch.toFin f
    let s := finishPend s l p.id fun g =>
      let g := g.setReg d.toNat f.data
      match sender with
      | some n => { g with recvs := PMap.set (recvKey l.core n ch) (f.num + 1) g.recvs }
      | none => g
    wakeReceivers (s.acquireFrom l.core g.launch g.replica f.cluster) l.core ch
/-- A flit of a SEND is still on its way or waits for room. -/
def sendHeld (s : State) (l : Loc) (id core : Nat) (ch : BitVec 3) : Bool :=
  let q := (s.core core).chans[ch.toFin]
  (q.waiting ++ q.inFlight).any fun t => t.2.1 == l && t.2.2 == id
/-- CHANNEL_FLIT_ARRIVAL (R161, R162, R163): one of the flits on their way reaches the channel, and waits when its queue is full. The flits
of one sender arrive in the order in which it sent them. -/
def execChannelFlitArrival (core : Nat) (ch : BitVec 3) (s : State) : Host.Outcome State Fault Refusal :=
  let c := s.core core
  let q := c.chans[ch.toFin]
  match (q.inFlight[Config.choice s.tick 0 % q.inFlight.length]?).bind fun t => q.inFlight.find? fun x => x.1.key == t.1.key with
  | none => event s
  | some t =>
    let q := { q with inFlight := q.inFlight.erase t, waiting := q.waiting ++ [t] }
    let s := admitFlits (s.setCore core { c with chans := c.chans.set ch.toFin q }) core ch.toFin
    event (wakeReceivers s.ticked core ch)
/-- CHANNEL_WATCHDOG_EXPIRY (R162). -/
def execChannelWatchdogExpiry (loc : Loc) (op : Nat) (s : State) : Host.Outcome State Fault Refusal :=
  match pendAt s loc op with
  | some p => match p.kind with
    | .send core ch t =>
      if sendHeld s loc op core ch && decide (t ≤ (s.core loc.core).cycle) then
        event (s.faultAt loc p.pc .channelStall (BitVec.ofNat 64 (ch.toNat + 8 * packed ⟨core, 0⟩)))
      else event s
    | _ => event s
  | none => event s
/-- MACQ_WATCHDOG_EXPIRY (R202). -/
def execMacqWatchdogExpiry (loc : Loc) (s : State) : Host.Outcome State Fault Refusal :=
  let c := s.core loc.core
  match (s.grainAt loc).tileWait with
  | some t =>
    if (s.slotAt loc).st == .parked .tile && decide (t + c.chanWatchdog.toNat ≤ c.cycle) then event (s.raiseAt loc .watchdog 0#64 false)
    else event s
  | none => event s
/-- When the watchdog of a push expires (R225). -/
def pushUntil (k : PendKind) : Option Nat :=
  match k with
  | .push _ _ t => some t
  | .net (.push _ _ t) _ _ _ _ => some t
  | _ => none
/-- BAG_PUSH_WATCHDOG_EXPIRY (R225). -/
def execBagPushWatchdogExpiry (loc : Loc) (op : Nat) (s : State) : Host.Outcome State Fault Refusal :=
  match pendAt s loc op with
  | some p => match pushUntil p.kind with
    | some t =>
      if t ≤ (s.core loc.core).cycle then event (s.faultAt loc p.pc .watchdog 1#64) else event s
    | none => event s
  | none => event s

/-! ### Weight loads (R208, R209) -/

/-- The next WBLD of a slot may take effect. -/
def nextLoad (s : State) (k : Nat) (w : BitVec 3) : State :=
  let c := s.core k
  match (c.wslot w).loads with
  | (i, id) :: _ => s.dueOnce (.longLatencyResult ⟨k, i⟩ id)
  | [] => s
/-- WBLD (R208, R298): loads of one slot take effect in order, after the operations queued at the array that name it and after a reload and
the operations that use it. -/
def wbldResult (s : State) (l : Loc) (p : Pend) (acc : Acc) (w : BitVec 3) : State :=
  let again := Event.longLatencyResult l p.id
  let c := s.core l.core
  let x := c.wslot w
  if x.loads.head? != some (l.slot, p.id) || c.queuedOn w || !x.reload.isEmpty || (s.grainAt l).earlierFirst p.id acc.addr acc.size then
    s.dueOnce again
  else
    let pop := fun (s : State) (y : WSlot) =>
      nextLoad ((s.setCore l.core ((s.core l.core).setWslot w { y with loads := x.loads.drop 1, failed := x.failed })).wakeCore (fun w => w == .array || w == .monitorOp) l.core) l.core w
    match serveLoad s l.core acc.ctx acc.named acc.addr acc.size false false with
    | .value bs s =>
      pop (finishPend s l p.id id)
        { WSlot.empty with st := .valid, ctx := acc.ctx, source := acc.addr, far := acc.far, length := acc.size, image := bs }
    | .wait s => (s.setCore l.core ((s.core l.core).setWslot w { x with st := .loading, image := [] })).dueOnce again
    | .fault c a => pop (s.faultAt l p.pc c (BitVec.ofNat 64 a)) WSlot.empty
    | .noPlace (.refused _ _) => pop (s.faultAt l p.pc .segBounds (segInfo acc.ptr)) WSlot.empty
    | .noPlace y => noPlaceDue s acc.ctx y (.op l p.id) 0 again

/-! ### Results of every kind -/

/-- The result of an outstanding operation, or another look at a wait. -/
def serveResult (s : State) (l : Loc) (p : Pend) : State :=
  match p.kind with
  | .load acc ext d clean plain val => loadResult s l p acc ext d clean plain val
  | .ldrec acc e => recordResult s l p acc e
  | .atomic .. => s.dueOnce (.excursionAtOwner l p.id)
  | .packet _ => finishPend s l p.id id
  | .seqwait acc d thr _ => seqwaitResult s l p acc d thr
  | .seqadd acc x => seqaddResult s l p acc x
  | .watch r => watchResult s l p r
  | .waitw d mask => waitwResult s l p d mask
  | .send core ch _ => if sendHeld s l p.id core ch then s else finishPend s l p.id id
  | .recv d ch sender => recvResult s l p d ch sender
  | .clean acc => readFor s l p acc false fun s bs =>
      (finishPend s l p.id id).acquireAt l.core acc.addr acc.named (some (wordOf bs 0))
  | .command id' =>
      if (s.cluster (coreCluster l.core)).cmds.any fun x => x.id == id' && x.st == .waiting then s else finishPend s l p.id id
  | .xstat d block => finishPend s l p.id fun g => g.setReg d.toNat (statusOf (s.cluster (coreCluster l.core)) g.ctx block)
  | .mldc acc t => tileResult s l p acc t
  | .wbld acc w => wbldResult s l p acc w
  | .net step d q n odd => stepNet s l p step d q n odd
  | .push x y _ => stepPush s l p x y fun s => finishPend s l p.id id
/-- LONG_LATENCY_RESULT (R39): the operation's result arrives; the number of no operation only lets a parked instruction that nothing else
wakes look again. -/
def execLongLatencyResult (loc : Loc) (op : Nat) (s : State) : Host.Outcome State Fault Refusal :=
  match pendAt s loc op with
  | some p => event (serveResult s loc p)
  | none => event (s.wakeIf Wait.onRetry loc)

/-! ### Translation walks (R377, R378) -/

/-- Requests that wait for a walk look again. -/
def wakeWalkers (s : State) : State := s.allLocs.foldl (State.wakeFrom .walk) s
/-- TLB_WALK_COMPLETE (R378): the mapping enters both TLBs, or the page is recorded as a fault (R277); a table that no owner read gives fails
the requests that wait. -/
def execTlbWalkComplete (cl : Nat) (ctx : BitVec 12) (va : BitVec 38) (s : State) : Host.Outcome State Fault Refusal :=
  let va := va.toNat
  if !translated va || ctx == 0#12 || !ctxLive s cl ctx || (tlbLookup s ctx cl va).isSome || pageRecorded s ctx cl va then
    event (wakeWalkers s)
  else match walk s ctx cl va with
    | .ok (e, _) =>
      let c := s.cluster cl
      event (wakeWalkers (tlbFill (s.setCluster cl { c with faults := c.faults.filter fun x => !(x.idle && x.ctx == ctx && x.page == va / 4096) }) e))
    | .error reason =>
      event (wakeWalkers (if 2 ≤ reason || !(pageEntries s ctx cl va).isEmpty then s else recordFault s cl ctx va 0 reason []))

/-! ### The spill engine (R251, R252, R368, R383) -/

/-- SLICE_EXPIRY (R252): the slot expires, and is spilled once the engine is idle and its grain can be evicted (R40). -/
def execSliceExpiry (loc : Loc) (s : State) : Host.Outcome State Fault Refusal :=
  event (if lapsed s loc then engineNext (s.setSlot loc { s.slotAt loc with expired := true }) loc.core else s)
/-- The slot a pre-emption spills next (R368): of the lowest class that a queued grain outranks, the one that has held its grain
longest among those that can be evicted; the queued grain may be one that waits for its tile (R383). -/
def preemptVictim (s : State) (k : Nat) : Option (Fin 16) :=
  let c := s.core k
  let can := (List.finRange 16).filter fun i =>
    c.slots[i].occupied && c.runQ.any (fun e => decide (e.cls.toNat < c.slots[i].grain.cls.toNat)) && evictable s ⟨k, i⟩
  let worse := fun (b i : Fin 16) =>
    let cb := c.slots[b].grain.cls.toNat
    let ci := c.slots[i].grain.cls.toNat
    if cb < ci || (cb == ci && decide (c.slots[i].since < c.slots[b].since)) then i else b
  match can with
  | [] => none
  | i :: rest => some (rest.foldl worse i)
/-- PRIORITY_PREEMPT (R368). -/
def execPriorityPreempt (core : Nat) (s : State) : Host.Outcome State Fault Refusal :=
  if !s.engineIdle core then event s
  else match preemptVictim s core with
    | some i => event (startSpill s ⟨core, i⟩)
    | none => event s
/-- Adds one to the count of a number. -/
def countAt (m : PMap Nat) (k : Nat) : PMap Nat := PMap.set k ((PMap.get? k m).getD 0 + 1) m
/-- Counts a spill (R436). -/
def countSpill (s : State) (k : Nat) : State :=
  s.logged (clusterNode (coreCluster k)) fun x => { x with spills := countAt x.spills (coreCluster k) }
/-- Counts a fill (R436). -/
def countFill (s : State) (k : Nat) : State :=
  s.logged (clusterNode (coreCluster k)) fun x => { x with fills := countAt x.fills (coreCluster k) }
/-- Saves the grain that is being spilled to a slate of the pool and frees its tile and its slot (R383). -/
def spillOut (s : State) (loc : Loc) (key : Nat) : State :=
  let (image, s) := sealPool (countSpill s loc.core) loc.core key (s.grainAt loc).ctx (slateOfSlot s loc)
  let s := saveGrain s loc key image
  let c := s.core loc.core
  s.setCore loc.core { c with slots := c.slots.set loc.slot Slot.blank, spilling := none }
/-- SPILL_COMPLETE (R251, R383): the grain's elements are written, its state saved, its tile and slot freed; it joins the tail of its class.
With 64 grains queued one of them leaves the queue for the slot first. -/
def execSpillComplete (loc : Loc) (s : State) : Host.Outcome State Fault Refusal :=
  let c := s.core loc.core
  if c.spilling != some loc.slot then event s
  else if (s.grainAt loc).appendedPending then event ((streamFlush s loc).foldl State.dueOnce (s.dueOnce (.spillComplete loc)))
  else
    let g := s.grainAt loc
    let key := poolKey s loc.core
    let e : RunEntry := { kind := .spilled key, cls := g.cls, launch := g.launch }
    let freed := spillOut s loc key
    if (freed.core loc.core).runQ.length < 64 then event (engineNext (joinQueue freed loc.core [e]) loc.core)
    else
      let filled := engineNext freed loc.core
      if (filled.core loc.core).runQ.length < 64 then event (joinQueue filled loc.core [e]) else event (s.dueOnce (.spillComplete loc))
/-- The replica that a core serves in a launch (R321). -/
def Launch.replicaOf (l : Launch) (core : Nat) : Nat :=
  if l.reps.count ≤ 1 then 0 else ((l.allot.findIdx? (· == coreCluster core)).getD 0) / max 1 l.perReplica
/-- The shape-record entries of a launch when one of its grains starts on a core (R248). -/
def startShapes (s : State) (k h : Nat) : State :=
  let l := s.launch h
  let page := coreCluster k * 2 ^ 38 + pageAddr s h k
  let c := s.core k
  s.setCore k { c with shape := Vector.ofFn fun i =>
    let a := page + 256 + 192 * i.val
    match c.shape[i] with
    | some e => if i.val < l.shapes.length && !(e.addr == a && e.launch == h)
        then some { addr := a, ctx := l.ctx, launch := h, data := s.mem.bytes a 192 } else some e
    | none => if i.val < l.shapes.length then some { addr := a, ctx := l.ctx, launch := h, data := s.mem.bytes a 192 } else none }
/-- Puts a run-queue entry into a slot (R251, R253). A slate that is no longer what was written raises UNCORRECTABLE (R392); a grain that
begins finds the shape records of its launch (R248). -/
def fillSlot (s : State) (l : Loc) (e : RunEntry) : State :=
  match e.kind with
  | .unstarted rank =>
    startShapes (placeAt s l (startGrain s e.launch ((s.launch e.launch).replicaOf l.core) rank)) l.core e.launch
  | .spilled id =>
    match PMap.get? id (s.cluster (coreCluster l.core)).slates with
    | some x =>
      let t := restoreGrain s l id x
      if poolIntact s id x then t else t.raiseAt l .uncorrectable (BitVec.ofNat 64 (poolPlace id)) false
    | none => s
  | .arrived g =>
    let s := placeAt s l g
    if g.spawned && g.nextOp == 0 then startShapes s l.core g.launch else s
/-- FILL_COMPLETE (R383). -/
def execFillComplete (loc : Loc) (s : State) : Host.Outcome State Fault Refusal :=
  let c := s.core loc.core
  match c.filling with
  | none => event s
  | some (i, e) =>
    if i != loc.slot then event s
    else
      let s := s.setCore loc.core { c with filling := none, slots := c.slots.set loc.slot Slot.blank }
      event (engineNext (fillSlot (countFill s loc.core) loc e) loc.core)

/-! ### Barriers (R158) -/

/-- Grains of a group whose launch-time core is `core` look again. -/
def wakeMembers (s : State) (h core : Nat) : State :=
  s.allLocs.foldl (fun s l =>
    if (s.grainAt l).launch == h && (s.grainAt l).barrier.isSome && (unpackLoc (s.grainAt l).home).core == core then s.wakeFrom .barrier l else s) s
/-- BARRIER_STAGGER_RESUME (R38, R158): the release reaches a core, which from then on counts its number in the group times the STAGGER_STEP
it holds; its members resume when that many clk have passed. -/
def execBarrierStaggerResume (launch : Nat) (sc : Scope) (core : Nat) (s : State) : Host.Outcome State Fault Refusal :=
  let l := s.launch launch
  let ready := fun (b : BarGroup) =>
    b.sc == sc && groupComplete l (b.unit % 4) b.sc (b.unit / 4) b.arrived && (groupCores l (b.unit % 4) b.sc (b.unit / 4)).contains core
      && !b.releasedTo.contains core
  let first := (l.barriers.filter ready).foldl (fun (m : Option Nat) b => some (match m with | some e => min e b.epoch | none => b.epoch)) none
  match first with
  | none => event s
  | some e =>
    let c := s.core core
    let on := fun (f : BarGroup → BarGroup) => s.setLaunch launch { l with
      barriers := l.barriers.map fun b => if ready b && b.epoch == e then f b else b }
    let wait := fun (b : BarGroup) =>
      ((groupCores l (b.unit % 4) b.sc (b.unit / 4)).findIdx? (· == core)).getD 0 * c.staggerStep.toNat
    match (l.barriers.find? fun b => ready b && b.epoch == e).bind fun b => PMap.get? core b.resumeAt with
    | none => event ((on fun b => { b with resumeAt := PMap.set core (c.cycle + wait b) b.resumeAt }).due [.barrierStaggerResume launch sc core])
    | some t =>
      if t ≤ c.cycle then event (wakeMembers (on fun b => { b with releasedTo := b.releasedTo ++ [core] }) launch core)
      else event (s.due [.barrierStaggerResume launch sc core])

end Sys2Proof.Machine
end

