-- ==== Sys2Proof/Machine/Ecdsa.lean ====
section
/-! DEFINITION. ECDSA over P-384 with the deterministic nonce of RFC 6979, which receipts, the attestation replies and the alias certificate
name (spec/20_protection_keys_receipts.md R399-R401). -/

namespace Sys2Proof.Machine

/-! ### The curve (SEC 2, secp384r1) -/

/-- The prime of the field. -/
def curveP : Nat :=
  0xfffffffffffffffffffffffffffffffffffffffffffffffffffffffffffffffeffffffff0000000000000000ffffffff
/-- The order of the base point. -/
def curveN : Nat :=
  0xffffffffffffffffffffffffffffffffffffffffffffffffc7634d81f4372ddf581a0db248b0a77aecec196accc52973
/-- A point of the curve; none is the point at infinity. -/
abbrev Point := Option (Nat × Nat)
/-- The base point. -/
def curveG : Point := some
  (0xaa87ca22be8b05378eb1c71ef320ad746e1d3b628ba79b9859f741e082542a385502f25dbf55296c3a545e3872760ab7,
   0x3617de4a96262c6f5d9e98bf9292dc29f8f41dbd289a147ce9da3113b5f0b8c00a60b1ce1d7e819d7a431d7c90ea0e5f)
/-- `a` to the power of the low `k` bits of `e`, modulo `m`. -/
def powMod (m : Nat) : Nat → Nat → Nat → Nat
  | 0, _, _ => 1 % m
  | k + 1, a, e => (if e % 2 = 1 then a else 1) * powMod m k (a * a % m) (e / 2) % m
/-- The inverse modulo a prime of 384 bits. -/
def invMod (m a : Nat) : Nat := powMod m 384 (a % m) (m - 2)
/-- The point where a line of slope `k` through a point meets the curve again, negated. -/
def chord (k x y x2 : Nat) : Point :=
  let x3 := (k * k + 2 * curveP - x - x2) % curveP
  some (x3, (k * (x + curveP - x3) + curveP - y) % curveP)
/-- Addition of points. -/
def pointAdd (a b : Point) : Point :=
  match a, b with
  | none, q => q
  | q, none => q
  | some (x1, y1), some (x2, y2) =>
    if x1 = x2 then
      if (y1 + y2) % curveP = 0 then none
      else chord ((3 * x1 * x1 + curveP - 3) * invMod curveP (2 * y1) % curveP) x1 y1 x2
    else chord ((y2 + curveP - y1) * invMod curveP (x2 + curveP - x1) % curveP) x1 y1 x2
/-- A multiple of a point, by the low `n` bits of the factor. -/
def pointMul : Nat → Nat → Point → Point
  | 0, _, _ => none
  | n + 1, k, q => pointAdd (if k % 2 = 1 then q else none) (pointMul n (k / 2) (pointAdd q q))
/-- The private key that a secret of 768 bits stands for. -/
def privateKey (seed : BitVec 768) : Nat := seed.toNat % (curveN - 1) + 1
/-- The public key of a private one. -/
def publicKey (d : Nat) : Point := pointMul 384 d curveG
/-- The coordinates of a point, 48 bytes each. -/
def pointBytes (q : Point) : List Byte := beBytes 48 (q.getD (0, 0)).1 ++ beBytes 48 (q.getD (0, 0)).2
/-- A public key in SEC 1 uncompressed form. -/
def sec1 (q : Point) : List Byte := 0x04#8 :: pointBytes q

/-! ### Signing (RFC 6979) -/

/-- HMAC-SHA-384 under a key of at most one block. -/
def hmac384 (key msg : List Byte) : List Byte :=
  let k := key ++ List.replicate (128 - key.length) 0#8
  sha384 (k.map (· ^^^ 0x5C#8) ++ sha384 (k.map (· ^^^ 0x36#8) ++ msg))
/-- A signature with nonce `k` of a hash: r and s, where neither is zero. -/
def signWith (d h k : Nat) : Option (Nat × Nat) :=
  match pointMul 384 k curveG with
  | none => none
  | some (x, _) =>
    let r := x % curveN
    let s := invMod curveN k * (h + r * d) % curveN
    if r = 0 ∨ s = 0 then none else some (r, s)
/-- The first candidate for the nonce that makes a signature, of `n` at most. -/
def signTry (d h : Nat) : Nat → List Byte → List Byte → Nat × Nat
  | 0, _, _ => (0, 0)
  | n + 1, key, v =>
    let v := hmac384 key v
    let k := beNat v
    match (if 1 ≤ k ∧ k < curveN then signWith d h k else none) with
    | some x => x
    | none =>
      let key := hmac384 key (v ++ [0#8])
      signTry d h n key (hmac384 key v)
/-- The signature of a message: r and s of 384 bits each (R399). -/
def ecdsa (d : Nat) (msg : List Byte) : BitVec 768 :=
  let h := beNat (sha384 msg)
  let seed := beBytes 48 d ++ beBytes 48 (h % curveN)
  let v := List.replicate 48 1#8
  let key := hmac384 (List.replicate 48 0#8) (v ++ [0#8] ++ seed)
  let v := hmac384 key v
  let key := hmac384 key (v ++ [1#8] ++ seed)
  let x := signTry d h 64 key (hmac384 key v)
  BitVec.ofNat 768 (x.1 * 2 ^ 384 + x.2)

end Sys2Proof.Machine
end

