-- ==== Sys2Proof/Machine/EvMem.lean ====
section
/-! DEFINITION. Events of memory and engines: atomics at owners, remote updates, the bursar, stores performed, the copy engine, bursts,
the vector unit, the matrix array, transfer units, and what replicas exchange (spec/05 R139-R148, R166-R171, spec/06 R176-R197,
spec/09 R268-R277, spec/11 R296-R298, spec/13 R327-R331, spec/21 R408). -/

namespace Sys2Proof.Machine

/-! ### Atomics at their owner (R141-R145, R255, R330, R408) -/

/-- How an atomic at its owner ends. -/
inductive AtomAt where
  | done (r : AtomRes) (s : State)
  | wait (s : State)
  | fault (c : Cause)
  | noPlace (p : NoPlace)

/-- One atomic applied at the owner of its element: one indivisible update. -/
def applyAtomic (s : State) (r : AtomReq) : AtomAt :=
  if engineHolds s r.acc.ctx r.acc.addr r.acc.size then .wait s
  else match serveOwner s r.acc.ctx r.acc.addr r.acc.size with
    | .wait s => .wait s
    | .fault c _ => .fault c
    | .noPlace p => .noPlace p
    | .value bs s =>
      let old := leNat bs
      let (new, ok, flags) := r.apply old
      match ownerWrite s r.acc.ctx r.acc.addr (leBytes r.acc.size new) with
      | .error p => .noPlace p
      | .ok s => .done { old := BitVec.ofNat 64 old, ok, flags } s
/-- The result reaches the grain (R141, R143): d, for ACAS d + 1, the flags and the acquire. -/
def atomicDone (s : State) (l : Loc) (p : Pend) (r : AtomReq) (d : Reg) (x : AtomRes) : State :=
  let v := extendTo (if r.signed then .sign else .zero) r.acc.size x.old.toNat
  let s := finishPend s l p.id fun g =>
    let g := g.setReg d.toNat v
    let g := if r.op = .cas then g.setReg (d.toNat + 1) (if x.ok then 1#64 else 0#64) else g
    { g with pw := orFlags g.pw x.flags }
  if r.acquire then s.acquireAt l.core r.acc.addr r.acc.named none else s
/-- An address outside the clusters of a grain's own replica, in a replicated launch (R322). -/
def outsideOf (s : State) (g : Grain) (addr : Nat) : Bool :=
  let l := s.launch g.launch
  decide (2 ≤ l.reps.count) && !(l.ownClusters g.replica).contains (addr / 2 ^ 38)
/-- A stored result of an external operation (R330); its tag is the launch, the identity and the ordinal of the comparison it passed. -/
def storedExt (s : State) (gid h ident n : Nat) : Option AtomRes :=
  ((s.cluster gid).extOps.find? fun e => e.launch == h && e.ident == ident && e.ordinal == n).map (·.res)
/-- Keeps the tags and results of the last 64 external operations. -/
def storeExt (s : State) (gid h ident n : Nat) (r : AtomRes) : State :=
  let c := s.cluster gid
  let rest := if 64 ≤ c.extOps.length then c.extOps.drop 1 else c.extOps
  s.setCluster gid { c with extOps := rest ++ [{ launch := h, ident, ordinal := n, res := r }] }
/-- The result leaves the owner: to the issuing slot, and for a tagged operation to every live partner (R330). -/
def answerAtomic (s : State) (l : Loc) (p : Pend) (r : AtomReq) (d : Reg) (x : AtomRes) : State :=
  let g := s.grainAt l
  let s := setPend s l p.id (.atomic r d true (some x))
  let s := s.due [.excursionReturn l p.id]
  match r.tag with
  | some n => s.due (((s.launch g.launch).reps.live.filter (· != g.replica)).map fun q => .externalAtomicResult ⟨g.launch, g.ident, q⟩ n x.old)
  | none => s
/-- The bursar slot of a physical address (R408). -/
def bursarSlot (pa : Nat) : Fin 16 :=
  ⟨(pa / 64 % 16 ^^^ pa / 1024 % 16 ^^^ pa / 2 ^ 14 % 16 ^^^ pa / 2 ^ 18 % 16) % 16, Nat.mod_lt _ (by decide)⟩
/-- The bursar slot that performs an atomic, when its element lies in a CXL or host window (R142). -/
def viaBursar (s : State) (r : AtomReq) : Option (Fin 16) :=
  match placeOf s r.acc.ctx r.acc.addr with
  | .ok k => if isOutside k then some (bursarSlot (k % 2 ^ 64)) else none
  | .error _ => none
/-- An atomic of a window as the bursar performs it (R407): the L2 line is written back and invalidated, and what the atomic writes stands in the
window itself. -/
def bursarApply (s : State) (r : AtomReq) : AtomAt :=
  let clean := fun (s : State) => (physLines s r.acc.ctx r.acc.addr r.acc.size).foldl (fun s k => evictLine s (r.acc.addr / 2 ^ 38) k) s
  match applyAtomic (clean s) r with
  | .done x s => .done x (clean s)
  | y => y
/-- An atomic of a grain that its owner applies, with the answers of R330. Says whether it is over; one that is not is due again at `again`. -/
def performAtomic (s : State) (l : Loc) (p : Pend) (r : AtomReq) (d : Reg) (window : Bool) (again : Event) : State × Bool :=
  let g := s.grainAt l
  let gid := r.acc.addr / 2 ^ 38
  match r.tag.bind fun n => storedExt s gid g.launch g.ident n with
  | some x => (answerAtomic s l p r d x, true)
  | none =>
    match (if window then bursarApply s r else applyAtomic s r) with
    | .wait s => (s.dueOnce again, false)
    | .fault c => (s.faultAt l p.pc c (BitVec.ofNat 64 r.acc.addr), true)
    | .noPlace (.refused _ _) => (s.faultAt l p.pc .segBounds (segInfo r.acc.ptr), true)
    | .noPlace x => (noPlaceDue s r.acc.ctx x (.op l p.id) 1 again, false)
    | .done x s =>
      (answerAtomic (match r.tag with
        | some n => storeExt s gid g.launch g.ident n x
        | none => s) l p r d x, true)
/-- EXCURSION_AT_OWNER (R142): after the grain's own earlier accesses of the element (R143) and the buffered stores of its context to it
(R285); a window's atomic goes to the bursar, where it waits in its slot. -/
def execExcursionAtOwner (loc : Loc) (op : Nat) (s : State) : Host.Outcome State Fault Refusal :=
  match pendAt s loc op with
  | some p => match p.kind with
    | .atomic r d false none =>
      let g := s.grainAt loc
      let a := r.acc.addr
      if outsideOf s g a && (s.launch g.launch).reps.primary != g.replica then event s
      else if g.earlierFirst p.id a r.acc.size || (bufferedStore (s.core loc.core) r.acc.ctx a r.acc.size).isSome
          || ((s.core loc.core).storesOf loc.slot).any (fun b => overlaps b.addr b.bytes.length a r.acc.size) then
        event (s.dueOnce (.excursionAtOwner loc op))
      else match viaBursar s r with
        | some i =>
          let die := clusterDie (a / 2 ^ 38)
          let x := s.die die
          let s := s.setDie die { x with bursar := x.bursar.set i (x.bursar[i] ++ [{ req := r, loc := some loc, id := op, upd := none }]) }
          event ((setPend s loc op (.atomic r d true none)).due [.bursarAtomic die i])
        | none => event (performAtomic s loc p r d false (.excursionAtOwner loc op)).1
    | .atomic r _ true none => event (match viaBursar s r with
      | some i => s.dueOnce (.bursarAtomic (clusterDie (r.acc.addr / 2 ^ 38)) i)
      | none => s)
    | _ => event s
  | none => event s
/-- EXCURSION_RETURN (R142). -/
def execExcursionReturn (loc : Loc) (op : Nat) (s : State) : Host.Outcome State Fault Refusal :=
  match pendAt s loc op with
  | some p => match p.kind with
    | .atomic r d _ (some x) => event (atomicDone s loc p r d x)
    | _ => event s
  | none => event s
/-- EXTERNAL_ATOMIC_RESULT (R330): a partner computes what it writes from the old value; `op` is the ordinal that tags the operation. It waits
for a partner that has not come to that comparison yet, wherever that is; a replica that is out, or an operation that has its result, needs
it no more. -/
def execExternalAtomicResult (who : GrainKey) (op : Nat) (old : Word) (s : State) : Host.Outcome State Fault Refusal :=
  let l := s.launch who.launch
  let later := s.dueOnce (.externalAtomicResult who op old)
  if l.st != .running || !l.reps.live.contains who.replica then event s
  else match s.grainPlaces.find? fun x => ((grainOf s x).map Grain.key) == some who with
    | none => event later
    | some x => match grainOf s x with
      | none => event s
      | some g => match g.pend.find? fun p => p.kind.tag == some op with
        | some p => match p.kind with
          | .atomic r d _ none =>
            let (_, ok, flags) := r.apply (old.toNat % 2 ^ (8 * r.acc.size))
            event (atomicDone s x p r d { old, ok, flags })
          | _ => event s
        | none => event (if g.ordinal ≤ op then later else s)

/-! ### Remote updates and far frees (R148, R221, R255) -/

/-- Parked grains of the system that wait for one thing look again. -/
def wakeWaiting (s : State) (w : Wait) : State :=
  s.allLocs.foldl (State.wakeFrom w) s
/-- Two updates of one grain (R289): an update's identity names the grain that issued it. -/
def Update.together (u v : Update) : Bool := u.req.launch == v.req.launch && u.ident / 2 ^ 64 == v.ident / 2 ^ 64
/-- One of the update packets that the fabric holds for a cluster enters its queue of 256 (R255, R289): those of one grain in order. -/
def admitUpdate (s : State) (gid : Nat) : State :=
  let c := s.cluster gid
  if 256 ≤ c.updates.length then s
  else match (c.heldUpdates[Config.choice s.tick 0 % c.heldUpdates.length]?).bind fun u => c.heldUpdates.find? fun v => v.together u with
    | none => s
    | some u => (s.setCluster gid { c with updates := c.updates ++ [u], heldUpdates := c.heldUpdates.erase u }).ticked
/-- The head of a cluster's update queue leaves it. -/
def dropUpdate (s : State) (gid : Nat) : State :=
  let c := s.cluster gid
  s.setCluster gid { c with updates := c.updates.drop 1 }
/-- An update of the head of the queue at its owner or at the bursar: applied, reported imprecisely, or held. One from outside a replica is
performed once (R330). Says whether it is over. -/
def performUpdate (s : State) (gid : Nat) (u : Update) (window : Bool) (again : Event) : State × Bool :=
  let h := u.req.launch
  let lost := fun (c : Cause) =>
    (dropUpdate s gid).raiseLaunch (clusterNode gid) h c (BitVec.ofNat 64 u.req.acc.addr) (packed u.from_) u.rank (some 0) 0
  if u.ext && (storedExt s gid h u.ident 0).isSome then (checkDone (wakeWaiting (dropUpdate s gid) .release) h, true)
  else match (if window then bursarApply s u.req else applyAtomic s u.req) with
    | .wait s => (s.dueOnce again, false)
    | .fault c => (lost c, true)
    | .noPlace (.refused _ _) => (lost .segBounds, true)
    | .noPlace p => (noPlaceDue s u.req.acc.ctx p (.updates gid) 1 again, false)
    | .done r s =>
      let s := dropUpdate s gid
      let s := if u.ext then storeExt s gid h u.ident 0 r else s
      let l := s.launch h
      let s := s.setLaunch h { l with reduceFlags := l.reduceFlags ||| r.flags }
      (checkDone (wakeWaiting s .release) h, true)
/-- The next update of the queue (R255): after the buffered stores of its grain's context to the element; one of a window is passed to the bursar,
and holds the channel core until that has performed it (R407, R408). -/
def updateStep (s : State) (gid : Nat) (u : Update) : State :=
  let again := Event.remoteUpdateApply gid
  if (bufferedStore (s.core u.from_.core) u.req.acc.ctx u.req.acc.addr u.req.acc.size).isSome then s.dueOnce again
  else match viaBursar s u.req with
    | some i =>
      let die := clusterDie gid
      let x := s.die die
      let s := if (x.bursar[i]).any fun o => o.upd == some u then s
        else s.setDie die { x with bursar := x.bursar.set i (x.bursar[i] ++ [{ req := u.req, loc := none, id := 0, upd := some u }]) }
      s.dueOnce (.bursarAtomic die i)
    | none => (performUpdate s gid u false again).1
/-- The first operation of a bursar slot is performed, or waits in its place. Says whether it has left. -/
def bursarStep (s : State) (again : Event) (o : BursarOp) : State × Bool :=
  match o.loc, o.upd with
  | some l, _ => match pendAt s l o.id with
    | some p => match p.kind with
      | .atomic r d true none => performAtomic s l p r d true again
      | _ => (s, true)
    | none => (s, true)
  | none, some u =>
    let gid := u.req.acc.addr / 2 ^ 38
    if (s.cluster gid).updates.head? == some u then
      let (s, gone) := performUpdate s gid u true again
      (if gone then s.dueOnce (.remoteUpdateApply gid) else s, gone)
    else (s, true)
  | none, none => (s, true)
/-- BURSAR_ATOMIC (R407, R408): the slot's operations one at a time, in the order of their arrival. -/
def execBursarAtomic (die : Nat) (slot : Fin 16) (s : State) : Host.Outcome State Fault Refusal :=
  match (s.die die).bursar[slot] with
  | [] => event s
  | o :: _ =>
    let (s, gone) := bursarStep s (.bursarAtomic die slot) o
    if !gone then event s
    else
      let x := s.die die
      let s := s.setDie die { x with bursar := x.bursar.set slot (x.bursar[slot].drop 1) }
      event (if (x.bursar[slot].drop 1).isEmpty then s else s.dueOnce (.bursarAtomic die slot))
/-- A far free at its owner (R221, R315): the node joins the retire queue, or the fault is reported imprecisely. -/
def farFreeStep (s : State) (gid : Nat) (f : FarFree) : State :=
  let c := s.cluster gid
  let l := s.launch f.launch
  let n := s.netCl gid f.launch
  let dropped := s.setCluster gid { c with farFrees := c.farFrees.drop 1 }
  let lost := fun (c : Cause) (info : Word) => dropped.raiseLaunch (clusterNode gid) f.launch c info f.where_ f.rank (some 2) 0
  let badPort := (dropped.errReport (clusterNode gid) f.launch .netPortInvalid 2 (BitVec.ofNat 64 f.addr) f.where_ 0).raiseLaunch (clusterNode gid) f.launch
    .netPortInvalid (portInfo f.off) f.where_ f.rank none 0
  if !s.alive gid then lost .peerLost (BitVec.ofNat 64 f.addr)
  else match (if f.good then l.nodeAt f.addr else none) with
  | none => badPort
  | some i =>
    let a := l.nodeAddr gid i + 8
    if 4096 ≤ n.retire.length || engineHolds s l.ctx a 8 then s.dueOnce (.remoteUpdateApply gid)
    else match serveOwner s l.ctx a 8 with
      | .wait s => s.dueOnce (.remoteUpdateApply gid)
      | .fault c x => lost c (BitVec.ofNat 64 x)
      | .noPlace (.refused _ _) => lost .segBounds (BitVec.ofNat 64 a)
      | .noPlace p => noPlaceDue s l.ctx p (.farFree gid) 0 (.remoteUpdateApply gid)
      | .value bs s =>
        let c := s.cluster gid
        if nodeFreed n i (wordOf bs 0) then badPort
        else checkDone (retireNode (s.setCluster gid { c with farFrees := c.farFrees.drop 1 }) gid f.launch
          { index := i, stamp := n.epoch, core := none }) f.launch
/-- What a cluster's channel core has before it. -/
def Cluster.channelWork (c : Cluster) : Nat × Nat × Nat := (c.heldUpdates.length, c.updates.length, c.farFrees.length)
/-- REMOTE_UPDATE_APPLY (R221, R255): a held packet enters the queue, and the channel core takes the next update and the next far free. -/
def execRemoteUpdateApply (cl : Nat) (s : State) : Host.Outcome State Fault Refusal :=
  let before := (s.cluster cl).channelWork
  let s := admitUpdate s cl
  let s := match (s.cluster cl).updates with
    | u :: _ => updateStep s cl u
    | [] => s
  let s := match (s.cluster cl).farFrees with
    | f :: _ => farFreeStep s cl f
    | [] => s
  let after := (s.cluster cl).channelWork
  event (if after != before && after != (0, 0, 0) then s.dueOnce (.remoteUpdateApply cl) else s)

/-! ### Stores (R139, R279) -/

/-- STORE_PERFORMED (R139, R279): the oldest store of a slot is performed at cluster scope, after earlier stores of its context to its bytes,
which a sibling may have read forwarded (R287). -/
def execStorePerformed (loc : Loc) (s : State) : Host.Outcome State Fault Refusal :=
  let c := s.core loc.core
  match c.storesOf loc.slot with
  | [] => event s
  | b :: rest =>
    let n := b.bytes.length
    let drop := fun (s : State) =>
      let c := s.core loc.core
      s.setCore loc.core { c with buffer := c.buffer.filter fun x => x.id != b.id }
    let first := c.buffer.any fun x => decide (x.id < b.id) && x.ctx == b.ctx && overlaps x.addr x.bytes.length b.addr n
    if first || engineHolds s b.ctx b.addr n then event (s.dueOnce (.storePerformed loc))
    else match writeOwner s b.ctx b.addr b.bytes with
      | .ok s =>
        let s := (l1Store (drop s) loc.core b.ctx b.addr n b.alloc).wakeCore Wait.onStore loc.core
        event (if rest.isEmpty then s else s.dueOnce (.storePerformed loc))
      | .error (.refused _ _) => event ((drop s).faultAt loc b.pc .segBounds (segInfo b.ptr))
      | .error (.unread c) => event ((drop s).faultAt loc b.pc c (BitVec.ofNat 64 b.addr))
      | .error p =>
        let held := match p with
          | .fault _ _ => true
          | _ => false
        let s := if held then s.setCore loc.core
            { c with buffer := c.buffer.map fun x => if x.id == b.id then { x with faulted := true } else x } else s
        event (noPlaceDue s b.ctx p (.store loc) 1 (.storePerformed loc))

/-! ### The copy engine (R166-R171, R276) -/

/-- Changes a command. -/
def onCmd (s : State) (gid id : Nat) (f : Cmd → Cmd) : State :=
  let c := s.cluster gid
  s.setCluster gid { c with cmds := c.cmds.map fun x => if x.id == id then f x else x }
/-- The pull that a command is part of: its own number, or that of the pull it joined (R168). -/
def Cmd.group (x : Cmd) : Nat := x.merged.getD x.id
/-- Pulls and fills that run: merged pulls are one (R168, R276). -/
def Cluster.runningCmds (c : Cluster) : Nat := (((c.cmds.filter fun x => x.st == .running).map Cmd.group).dedup).length
/-- A pull of nonzero length is held for the combining window after it reached the engine (R276). -/
def combining (s : State) (x : Cmd) : Bool := x.pull && decide (0 < x.len) && decide ((s.core x.issuer.core).cycle < x.issuedAt + 64)
/-- The command that starts next: one of length 0 at once, else the first in order (R167, R276; notes/assumptions/78.md). -/
def Cluster.nextStart (c : Cluster) : Option Cmd :=
  match c.cmds.find? fun x => x.st == .queued && x.granules == 0 with
  | some x => some x
  | none => c.cmds.find? fun x => x.st == .queued && x.merged.isNone
/-- COPY_COMMAND_START (R276): the next command starts with the pulls that joined it, once its window has ended and fewer than four run. -/
def execCopyCommandStart (cl : Nat) (s : State) : Host.Outcome State Fault Refusal :=
  let s := admitCmds s cl 64
  let c := s.cluster cl
  match c.nextStart with
  | none => event s
  | some x =>
    if combining s x then event (s.dueOnce (.copyCommandStart cl))
    else if 4 ≤ c.runningCmds && x.granules != 0 then event s
    else
      let s := s.setCluster cl { c with cmds := c.cmds.map fun y => if y.st == .queued && y.group == x.id then { y with st := .running } else y }
      event ((s.due [.copyCommandComplete cl x.id]).dueOnce (.copyCommandStart cl))
/-- Where granule `i` of the source lies, from its first byte. -/
def Cmd.srcOff (x : Cmd) (i : Nat) : Nat :=
  let per := (x.len + 31) / 32
  i / per * 32 * x.stride + 32 * (i % per)
/-- Bytes of granule `i`: the last one of a row is masked. -/
def Cmd.bytesOf (x : Cmd) (i : Nat) : Nat :=
  let per := (x.len + 31) / 32
  min 32 (x.len - 32 * (i % per))
/-- Granules of the source that have been read. -/
def Cmd.readTo (x : Cmd) : Nat := x.granules - x.left + x.buf.length
/-- An earlier command still owns a line of memory (R276). -/
def ownedEarlier (s : State) (x : Cmd) (gid line : Nat) : Bool := (s.cluster gid).cmds.any fun y => y.id < x.id && y.holds s x.ctx line
/-- The engine wrote all granules: a release, then the sequence word advances (R167). -/
def endCmd (s : State) (gid : Nat) (x : Cmd) : State :=
  let s := writeBack s gid
  let s := match ownerWrite s x.ctx x.seq (leBytes 8 (seqValue s x.seq + 1#64).toNat) with
    | .ok s => s
    | .error _ => s
  let s := onCmd s gid x.id fun y => { y with st := .done, left := 0 }
  let s := s.setCluster gid (s.cluster gid).trimCmds
  checkDone (wakeWaiting (s.dueOnce (.copyCommandStart gid)) .engineLine) x.launch
/-- Writes granule `i` of a command; poisoned bytes are written as poisoned, which is an engine write as any other (R171, R265). -/
def writeGranule (s : State) (gid : Nat) (x : Cmd) (i : Nat) (bs : Option (List Byte)) : Except NoPlace State :=
  let a := x.dstOf i
  match bs with
  | some bs => ownerWrite s x.ctx a bs
  | none => do
    if !s.reachable a then throw (.unread .peerLost)
    let ks ← placesOf s x.ctx a 32
    let s := { s with poison := (ks.map (· / 32) ++ s.poison).dedup }
    let s := (physLines s x.ctx a 32).foldl (fun s k => l2Write s gid none true k) s
    pure (onCmd (afterWrite (tlbTouch s x.ctx a 32) a 32) gid x.id fun y => { y with poisoned := true })
/-- The bytes of granule `i`: read at the owner of the source, or the fill value (R167, R169). -/
def granuleBytes (s : State) (x : Cmd) (i : Nat) : Served :=
  if x.pull then serveOwner s x.ctx (x.srcAt s (x.srcOff i)) (x.bytesOf i)
  else .value ((List.range (x.bytesOf i)).map fun j => (leBytes 8 x.value.toNat).getD (j % 8) 0#8) s
/-- The running commands of a group. -/
def Cluster.groupCmds (c : Cluster) (key : Nat) : List Cmd := c.cmds.filter fun y => y.st == .running && y.group == key
/-- Reads the next source granule of a group, once for all its commands (R168, R290). -/
def readGranule (s : State) (cl key : Nat) : State :=
  let again := Event.copyCommandComplete cl key
  let all := (s.cluster cl).groupCmds key
  match all with
  | [] => s
  | x :: _ =>
    if x.granules ≤ x.readTo then s
    else
      let push := fun (s : State) (bs : Option (List Byte)) =>
        (all.foldl (fun s y => onCmd s cl y.id fun z => { z with buf := z.buf ++ [bs] }) s).dueOnce again
      let lost := fun (c : Cause) (info : Word) => (all.foldl (fun s y => failCmd s cl y c info 3) s).dueOnce (.copyCommandStart cl)
      match granuleBytes s x x.readTo with
      | .value bs s => push s (some bs)
      | .wait s => s.dueOnce again
      | .fault .uncorrectable _ => push s none
      | .fault c a => lost c (BitVec.ofNat 64 a)
      | .noPlace (.refused gid va) => lost .segBounds (BitVec.ofNat 64 (gid * 2 ^ 38 + va))
      | .noPlace p => noPlaceDue s x.ctx p (.command cl key true) 0 again
/-- Writes the next granule of one command, or ends it (R167, R171): a destination that has no place holds or fails this command alone. -/
def writeNext (cl key : Nat) (s : State) (x : Cmd) : State :=
  let again := Event.copyCommandComplete cl key
  if x.left = 0 then endCmd s cl x
  else match x.buf with
    | [] => s
    | bs :: rest =>
      let i := x.granules - x.left
      if ownedEarlier s x cl (x.dstOf i / 32) then s.dueOnce again
      else match writeGranule s cl x i bs with
        | .ok s => (wakeWaiting (onCmd s cl x.id fun y => { y with left := y.left - 1, buf := rest }) .engineLine).dueOnce again
        | .error (.refused gid va) =>
          (failCmd s cl x .segBounds (BitVec.ofNat 64 (gid * 2 ^ 38 + va)) 5).dueOnce (.copyCommandStart cl)
        | .error (.unread c) => (failCmd s cl x c (BitVec.ofNat 64 (x.dstOf i)) 5).dueOnce (.copyCommandStart cl)
        | .error p => noPlaceDue s x.ctx p (.command cl x.id false) 1 again
/-- COPY_COMMAND_COMPLETE (R167, R168): the next granule of a command and of the pulls merged with it. -/
def execCopyCommandComplete (cl : Nat) (id : Nat) (s : State) : Host.Outcome State Fault Refusal :=
  let key := match (s.cluster cl).cmds.find? fun x => x.id == id with
    | some x => x.group
    | none => id
  let s := readGranule s cl key
  event (((s.cluster cl).groupCmds key).foldl (writeNext cl key) s)
/-- BURST_WINDOW_CLOSE (R269): a window that gathered one line reads that line; any other fills all eight lines of its region. Lines to be
written back are in memory already. -/
def execBurstWindowClose (cl : Nat) (region : Nat) (s : State) : Host.Outcome State Fault Refusal :=
  let c := s.cluster cl
  match c.bursts.find? fun b => b.region == region with
  | none => event s
  | some b =>
    let s := s.setCluster cl { c with bursts := c.bursts.filter fun x => x.region != region }
    let lines := if b.lines.length ≤ 1 then b.lines else List.range 8
    event (lines.foldl (fun s i => l2Fill s cl (region * 8 + i)) s)

/-! ### The vector unit (R176-R178, R195, R197) -/

/-- v registers an entry reads. -/
def SeqEntry.reads (e : SeqEntry) : List Reg :=
  let src := fun (v : VSrc) => match v with
    | .reg r => [r]
    | .value _ => []
  match e.op with
  | .fn .fma => src e.s ++ src e.t ++ [e.d]
  | .fn (.ins _) => [e.d]
  | .accr .. => []
  | .vld _ => []
  | .vst _ => [e.d]
  | _ => src e.s ++ src e.t
/-- The tile an entry moves to or from. -/
def SeqEntry.tile (e : SeqEntry) : Option (BitVec 2) :=
  match e.op with
  | .accr t _ _ => some t
  | .accw t _ _ => some t
  | _ => none
/-- Entry `e` must wait until the earlier entry `f` has completed (R177): it reads or writes a register that `f` writes, a g register and the
predicates among them, or names its tile. -/
def SeqEntry.after (e f : SeqEntry) : Bool :=
  (writesV f.op && (e.reads.contains f.d || (writesV e.op && e.d == f.d))) || (f.tile.isSome && e.tile == f.tile)
    || (f.gDst.isSome && e.gDst == f.gDst) || (f.writesPreds && e.writesPreds)
/-- The value of a source over the register's width. -/
def srcVal (g : Grain) (ty : EType) : VSrc → Nat
  | .reg r => g.vval r
  | .value x => splat g.vbits (etBits ty) (x.toNat % 2 ^ etBits ty)
/-- The first entry not started and those before it; a replay waits until the whole body of its loop has issued (R195). -/
def Grain.nextEntry (g : Grain) : Option (List SeqEntry × SeqEntry) :=
  match g.seq.dropWhile (·.started) with
  | e :: _ => if g.inBody && g.ownReplay e then none else some (g.seq.takeWhile (·.started), e)
  | [] => none
/-- Elements of a tile row's quarter, or two quarters of a ganged grain (R191). -/
def tileQuarter (t : Tile) (bits : Nat) (row : BitVec 4) (q : BitVec 2) : Nat :=
  ofLanes 32 ((List.range (bits / 32)).map fun j => (t.elem (16 * row.toNat + 4 * q.toNat + j)).toNat)
/-- What the vector unit makes of an entry: a result with flags, a wait, or a fault of a replay. -/
inductive Started where
  | out (o : VecOut) (f : FFlags) (s : State)
  | wait (evs : List Event)
  | fault (c : Cause) (info : Word)
/-- A step of a stream transfer in a replay, run for its slot. -/
def replayStream {α : Type} (s : State) (l : Loc) (m : M α) (k : α → VecOut) : Started :=
  match (m.run { s with cur := l }) with
  | .ok (x, s') => .out (k x) 0#5 { s' with cur := s.cur }
  | .error (.park _ evs) => .wait evs
  | .error (.trap c info) => .fault c info
  | .error (.trapIn _ c info) => .fault c info
  | .error _ => .wait []
/-- Starts an entry of a slot. -/
def startEntry (s : State) (l : Loc) (e : SeqEntry) : Started :=
  let g := s.grainAt l
  match e.op with
  | .fn f =>
    let r := vecFn f g.vbits e.ty e.env e.preds.toNat (srcVal g e.ty e.s) (srcVal g e.ty e.t) (g.vval e.d)
    .out r.1 r.2 s
  | .accr t row q => .out (.v (tileQuarter (s.core l.core).tiles[t.toFin] g.vbits row q)) 0#5 s
  | .accw .. => .out (.v (g.vval e.d)) 0#5 s
  | .vld n => replayStream s l (do
      streamUseM n.toFin false
      streamBytes e.pc n.toFin (etBytes (g.streams[n.toFin]).fmt) (streamCount g n.toFin)) fun bs => .v (leNat bs)
  | .vst n => replayStream s l (do
      streamUseM n.toFin true
      appendBytes e.pc n.toFin (etBytes (g.streams[n.toFin]).fmt) (leBytes (g.vbits / 8) (g.vval e.d)) (streamCount g n.toFin)) fun _ => .v 0
/-- The head entry of a slot whose earlier entries it need not wait for (R177). -/
def headEntry (s : State) (l : Loc) : Option SeqEntry :=
  let sl := s.slotAt l
  match sl.grain.nextEntry with
  | some (before, e) => if sl.occupied && before.all (fun f => !e.after f) then some e else none
  | none => none
/-- The head entry of a slot can start: nor does it wait for an element of its stream, or for room there. -/
def canStart (s : State) (l : Loc) : Bool :=
  match headEntry s l with
  | some e => match startEntry s l e with
    | .wait _ => false
    | _ => true
  | none => false
/-- What the head entry of a slot waits for is due. -/
def askFor (s : State) (l : Loc) : State :=
  match headEntry s l with
  | some e => match startEntry s l e with
    | .wait evs => evs.foldl State.dueOnce s
    | _ => s
  | none => s
/-- Marks the first entry not started as started, with its result. -/
def markStarted (o : VecOut) (f : FFlags) : List SeqEntry → List SeqEntry
  | [] => []
  | e :: r => if e.started then e :: markStarted o f r else { e with started := true, out := o, flags := f } :: r
/-- Starts the head entry of one slot; with passes left the same entry stands in line for the next one (R195). -/
def startAt (s : State) (l : Loc) : State :=
  match (s.grainAt l).nextEntry with
  | none => s
  | some (_, e) =>
    let g := s.grainAt l
    match startEntry s l e with
    | .out o f s' =>
      let g' := s'.grainAt l
      let seq := markStarted o f g.seq
      (s'.setGrainAt l { g' with seq := if 0 < e.again then seqInsert e.nextPass seq else seq }).dueOnce (.sequencerEntryComplete l)
    | .wait evs => evs.foldl State.dueOnce s
    | .fault c info => (s.setGrainAt l { g with seq := [], vloop := none }).raiseFrom l e.pc c info true
/-- Slots of a core in the vector unit's round-robin order. -/
def vecRotation (c : Core) : List (Fin 16) := (List.range 16).map fun i => ⟨(c.vecServed.val + 1 + i) % 16, Nat.mod_lt _ (by decide)⟩
/-- SEQUENCER_ENTRY_START (R177): one entry, from the next slot whose head entry can start. -/
def execSequencerEntryStart (core : Nat) (s : State) : Host.Outcome State Fault Refusal :=
  let s := (coreLocs core).foldl askFor s
  let s := match (vecRotation (s.core core)).filter fun i => canStart s ⟨core, i⟩ with
    | [] => s
    | i :: _ => startAt (s.setCore core { s.core core with vecServed := i }) ⟨core, i⟩
  event (if (coreLocs core).any fun l => (headEntry s l).isSome then s.dueOnce (.sequencerEntryStart core) else s)
/-- Writes predicate bits (R184). -/
def writePreds (pw : Word) (mask vals : Nat) : Word :=
  (pw &&& ~~~(BitVec.ofNat 64 (mask % 2 ^ 31))) ||| BitVec.ofNat 64 (Nat.land vals (mask % 2 ^ 31))
/-- The grain after an entry's result is written. -/
def Grain.complete (g : Grain) (e : SeqEntry) : Grain :=
  let g := match e.out with
    | .v x => if writesV e.op then { g.setV e.d x with pw := g.pw } else g
    | .g x => g.setReg e.d.toNat x
    | .preds mask vals => { g with pw := writePreds g.pw mask vals }
  { g with seq := g.seq.erase e, pw := orFlags g.pw e.flags }
/-- A tile with some elements in row order replaced. -/
def Tile.putElems (t : Tile) (at_ : Nat) (xs : List Nat) : Tile :=
  { t with data := (List.range 256).map fun k => if at_ ≤ k ∧ k < at_ + xs.length then BitVec.ofNat 32 (xs.getD (k - at_) 0) else t.elem k }
/-- SEQUENCER_ENTRY_COMPLETE (R177, R55): one of the slot's started entries completes, each after its own latency. -/
def execSequencerEntryComplete (loc : Loc) (s : State) : Host.Outcome State Fault Refusal :=
  let g := s.grainAt loc
  let going := g.seq.filter (·.started)
  match going[Config.choice s.tick 0 % going.length]? with
  | none => event s
  | some e =>
    if !(s.slotAt loc).occupied then event s
    else
      let s := s.ticked
      let s := match e.op, e.out with
        | .accw t row q, .v x =>
          let c := s.core loc.core
          let tl := (c.tiles[t.toFin]).putElems (16 * row.toNat + 4 * q.toNat) (lanesOf g.vbits 32 x)
          s.setCore loc.core { c with tiles := c.tiles.set t.toFin tl }
        | _, _ => s
      let s := (s.setGrainAt loc ((s.grainAt loc).complete e)).wakeIf Wait.onSequencer loc
      let s := if 1 < going.length then s.dueOnce (.sequencerEntryComplete loc) else s
      event (s.dueOnce (.sequencerEntryStart loc.core))

/-! ### The matrix array (R214, R296-R298) -/

/-- MMA_START (R296): the head operation takes its first step in a clk that the duty allows (R434). -/
def execMmaStart (core : Nat) (s : State) : Host.Outcome State Fault Refusal :=
  let c := s.core core
  match c.arrayQ with
  | o :: rest =>
    if (c.wslot o.w).st != .valid then event s
    else if o.started || !arrayStep s core then event (s.dueOnce (.mmaStart core))
    else event ((s.setCore core { c with arrayQ := { o with started := true } :: rest }).due [.mmaComplete core])
  | [] => event s
/-- Parked users of a core's array look again. -/
def wakeArray (s : State) (k : Nat) : State :=
  (coreLocs k).foldl (fun s l => if !s.arrayBusy l then s.wakeIf (fun w => w == .array || w == .monitorOp) l else s) s
/-- The head operation leaves the array: its grain is ready and the next one may start. -/
def leaveArray (s : State) (k : Nat) (o : ArrayOp) : State :=
  let c := s.core k
  let s := s.setCore k { c with arrayQ := c.arrayQ.drop 1 }
  nextLoad ((wakeArray s k).dueOnce (.mmaStart k)) k o.w
/-- A tile whose contents are unpredictable (R213). -/
def freeTileData (s : State) : List (BitVec 32) := (List.range 256).map fun i => (Config.freeWord s.tick i).setWidth 32
/-- The A operand of the head operation: bytes, elements taken so far, or a failure at its instruction. -/
inductive AFetch where
  | bytes (bs : List Byte)
  | elems (xs : List Word) (s : State)
  | wait (s : State)
  | fault (c : Cause) (info : Word)
/-- Reads A (R212, R214): the scratchpad area, or the next elements of the stream. -/
def fetchA (s : State) (k : Nat) (o : ArrayOp) : AFetch :=
  let l : Loc := ⟨k, o.slot⟩
  match o.a with
  | .memory acc => match readOwner s acc.ctx acc.addr acc.size with
    | .value bs => .bytes bs
    | .lost => .fault .peerLost (BitVec.ofNat 64 acc.addr)
    | .poisoned => .fault .uncorrectable (BitVec.ofNat 64 acc.addr)
    | .noPlace _ => .fault .segBounds (segInfo acc.ptr)
  | .stream n =>
    let g := s.grainAt l
    let st := g.streams[n.toFin]
    let need := 16 * o.k - o.elems.length
    let take := st.fetched.take need
    match take.findSome? fun e => match e with
      | .failed c a => some (c, a)
      | .value _ => none with
    | some (c, a) => .fault c (BitVec.ofNat 64 a)
    | none =>
      let xs := take.filterMap fun e => match e with
        | .value x => some x
        | .failed _ _ => none
      let s := (List.range xs.length).foldl (fun s i => detAccess s l o.pc (st.elemAt s l (st.pos + i)) (etBytes st.fmt) false) s
      let st' : Stream := { st with pos := st.pos + xs.length, fetched := st.fetched.drop xs.length }
      let s := s.setGrainAt l { g with streams := g.streams.set n.toFin st' }
      let c := s.core k
      let o' := { o with elems := o.elems ++ xs }
      let s := s.setCore k { c with arrayQ := o' :: c.arrayQ.drop 1 }
      if xs.length = need then .elems o'.elems s else .wait (s.dueOnce (.inputStreamFetch l n.toFin))
/-- The tile and flags of an operation, none when a block of A is invalid (R51, R213). -/
def arrayResult (t : Tile) (o : ArrayOp) (w : WImage) (bs : List Byte) (xs : List Word) : Option (List (BitVec 32) × FFlags) :=
  if o.integer then
    match qfmtOf o.fmt with
    | none => none
    | some q =>
      let g := groupSize o.log
      let nb := (o.k + 8 * g - 1) / (8 * g)
      let bb := blockBytes q o.log
      ((List.range 16).mapM fun i => groupsOf q o.log bb (bs.drop (i * nb * bb)) nb).map fun rows => mmaiTile t rows w (o.k / g)
  else
    let ty := (fmtEType o.fmt).getD .f32
    let elems := match o.a with
      | .memory _ => elemsOf (etBytes ty) bs (16 * o.k)
      | .stream _ => xs.map BitVec.toNat
    some (mmaTile t ty elems w o.k)
/-- MMA_COMPLETE (R296): the tile holds the final values, the flags are delivered and the grain is ready. -/
def execMmaComplete (core : Nat) (s : State) : Host.Outcome State Fault Refusal :=
  let c := s.core core
  match c.arrayQ with
  | [] => event s
  | o :: _ =>
    if !o.started then event s
    else
      let l : Loc := ⟨core, o.slot⟩
      let spoil := fun (s : State) =>
        let c := s.core core
        (s.setCore core { c with tiles := c.tiles.set o.tile.toFin { c.tiles[o.tile.toFin] with data := freeTileData s } }).ticked
      let finishWith := fun (s : State) (bs : List Byte) (xs : List Word) =>
        let c := s.core core
        let t := c.tiles[o.tile.toFin]
        match weightImage (c.wslot o.w).image with
        | .error kind => (leaveArray (spoil s) core o).faultAt l o.pc .formatInvalid (imageInfo (c.wslot o.w).image kind)
        | .ok w => match arrayResult t o w bs xs with
          | none => (leaveArray (spoil s) core o).faultAt l o.pc .formatInvalid (BitVec.ofNat 64 (o.fmt + 64 * o.log + 512))
          | some (data, fl) =>
            let s := s.setCore core { c with tiles := c.tiles.set o.tile.toFin { t with data } }
            let g := s.grainAt l
            leaveArray (s.setGrainAt l { g with pw := orFlags g.pw fl }) core o
      match fetchA s core o with
      | .bytes bs => event (finishWith s bs [])
      | .elems xs s => event (finishWith s [] xs)
      | .wait s => event (s.dueOnce (.mmaComplete core))
      | .fault c info => event ((leaveArray (spoil s) core o).faultAt l o.pc c info)
/-- WEIGHT_SLOT_RELOAD (R210, R298): the operations that wait for the reload use its image, or raise WBUF_INVALID each. -/
def execWeightSlotReload (core : Nat) (w : Fin 8) (s : State) : Host.Outcome State Fault Refusal :=
  let c := s.core core
  let x := c.wslots[w]
  let x := match x.reload with
    | i :: _ => { x with source := x.sourceNow s ⟨core, i⟩ }
    | [] => x
  let put := fun (s : State) (y : WSlot) =>
    let c := s.core core
    x.reload.foldl (fun s i => s.wakeFrom .array ⟨core, i⟩) (s.setCore core { c with wslots := c.wslots.set w y })
  let failed := put s x.reloadFailed
  if x.st != .invalidated || x.reload.isEmpty then event s
  else if !sourceAdmitted s core x then event failed
  else match serveLoad s core x.ctx (x.source / 2 ^ 38) x.source x.length false false with
    | .value bs s => event (put s { x with st := .valid, image := bs })
    | .wait s => event (s.dueOnce (.weightSlotReload core w))
    | .fault _ _ => event failed
    | .noPlace (.refused _ _) => event failed
    | .noPlace _ => event (put s x)

/-! ### Transfer units (R274, R275) -/

/-- Fetches the elements of one line, as many as the buffer holds. -/
def fetchLine (s : State) (l : Loc) (n : Fin 4) (line : Nat) : Nat → State
  | 0 => s
  | fuel + 1 =>
    let g := s.grainAt l
    let st := g.streams[n]
    let again := Event.inputStreamFetch l n
    let a := st.elemAt s l st.walked
    if st.total ≤ st.walked || st.room ≤ st.fetched.length || a / 32 ≠ line then s
    else
      let push := fun (s : State) (e : StreamElem) =>
        let g := s.grainAt l
        let st' : Stream := { st with walked := st.walked + 1, fetched := st.fetched ++ [e] }
        fetchLine (s.setGrainAt l { g with streams := g.streams.set n st' }) l n line fuel
      let own := ((s.core l.core).storesOf l.slot).any fun b => overlaps b.addr b.bytes.length a (etBytes st.fmt)
      if own || engineHolds s g.ctx a (etBytes st.fmt) then s.dueOnce again
      else match serveOwner s g.ctx a (etBytes st.fmt) with
        | .value bs s =>
          push s (.value (extendTo (if etSigned st.fmt then .sign else .zero) (etBytes st.fmt) (leNat bs)))
        | .wait s => s.dueOnce again
        | .fault c x => push s (.failed c x)
        | .noPlace (.refused _ _) => push s (.failed .segBounds (segInfo (st.elemPtr st.walked)).toNat)
        | .noPlace p => noPlaceDue s g.ctx p (.stream l n) 3 again
/-- INPUT_STREAM_FETCH (R274): the next line of the pattern, once the grain's own stores to its elements are performed (R285). -/
def execInputStreamFetch (loc : Loc) (n : Fin 4) (s : State) : Host.Outcome State Fault Refusal :=
  let st := (s.grainAt loc).streams[n]
  if !(s.slotAt loc).occupied || !st.bound || st.output then event s
  else
    let s := fetchLine s loc n (st.elemAt s loc st.walked / 32) 128
    let s := s.wakeIf Wait.onStream loc
    let st' := (s.grainAt loc).streams[n]
    let s := if st.walked < st'.walked && decide (st'.walked < st'.total) && decide (st'.fetched.length < st'.room) then
      s.dueOnce (.inputStreamFetch loc n) else s
    event (if (s.grainAt loc).seqBusy then s.dueOnce (.sequencerEntryStart loc.core) else s)
/-- Elements of the first line that an output unit holds. -/
def Stream.firstLine (st : Stream) : Nat :=
  let e := st.pos - st.appended.length
  ((List.range st.appended.length).takeWhile fun i => st.elemAddr (e + i) / 32 == st.elemAddr e / 32).length
/-- Writes elements in pattern order, all of them or none. -/
def writeElems (s : State) (ctx : BitVec 12) (st : Stream) (e : Nat) : List Word → Except NoPlace State
  | [] => .ok s
  | x :: r => do
    let s ← ownerWrite s ctx (st.elemAddr e) (leBytes (etBytes st.fmt) x.toNat)
    writeElems s ctx st (e + 1) r
/-- OUTPUT_STREAM_LINE_WRITE (R274): the first buffered line is written. -/
def execOutputStreamLineWrite (loc : Loc) (n : Fin 4) (s : State) : Host.Outcome State Fault Refusal :=
  let g := s.grainAt loc
  let st := g.streams[n]
  let e := st.pos - st.appended.length
  let a := st.elemAddr e
  let k := st.firstLine
  if !(s.slotAt loc).occupied || !st.output || st.appended.isEmpty then event s
  else if engineHolds s g.ctx (a / 32 * 32) 32 then event (s.dueOnce (.outputStreamLineWrite loc n))
  else if !s.reachable a then event (s.raiseLaunch (clusterNode (coreCluster loc.core)) g.launch .peerLost (BitVec.ofNat 64 a) (packed loc) g.rank (some 4) 0)
  else match writeElems s g.ctx st e (st.appended.take k) with
    | .ok s =>
      let g := s.grainAt loc
      let st := { g.streams[n] with appended := st.appended.drop k }
      let s := (s.setGrainAt loc { g with streams := g.streams.set n st }).wakeIf Wait.onStream loc
      let more := !st.appended.isEmpty && (st.pos == st.total || decide (st.firstLine < st.appended.length))
      let s := if more then s.dueOnce (.outputStreamLineWrite loc n) else s
      event (if (s.grainAt loc).seqBusy then s.dueOnce (.sequencerEntryStart loc.core) else s)
    | .error (.refused gid va) =>
      event (s.raiseLaunch (clusterNode gid) g.launch .segBounds (BitVec.ofNat 64 (gid * 2 ^ 38 + va)) (packed loc) g.rank (some 4) 0)
    | .error (.unread c) => event (s.raiseLaunch (clusterNode (coreCluster loc.core)) g.launch c (BitVec.ofNat 64 a) (packed loc) g.rank (some 4) 0)
    | .error p => event (noPlaceDue s g.ctx p (.stream loc n) 3 (.outputStreamLineWrite loc n))

/-! ### RAND and what replicas exchange (R125, R327, R331) -/

/-- RAND_VALUE_READY (R125): at most one value in 16 clk. -/
def execRandValueReady (core : Nat) (v : Word) (s : State) : Host.Outcome State Fault Refusal :=
  let c := s.core core
  let early := match c.randAt with
    | some t => decide (c.cycle < t + 16)
    | none => false
  if early then event (s.dueOnce (.randValueReady core v))
  else if c.randReady.isSome then event (s.wakeCore (· == .entropy) core)
  else event ((s.setCore core { c with randReady := some v }).wakeCore (· == .entropy) core)
/-- A message to a grain of another replica (R327, R331): it waits while that grain has not been created yet, and is dropped once the launch is
over or the replica is out. -/
def toReplica (who : GrainKey) (again : Event) (f : Grain → Grain) (s : State) : State :=
  match s.toGrain who f with
  | some s => s
  | none =>
    let l := s.launch who.launch
    if l.st == .running && l.reps.live.contains who.replica && !l.exited.contains (who.ident * 4 + who.replica) then s.dueOnce again else s
/-- FORWARDED_VALUE_ARRIVAL (R331). -/
def execForwardedValueArrival (who : GrainKey) (count : Nat) (v : Word) (s : State) : Host.Outcome State Fault Refusal :=
  event (toReplica who (.forwardedValueArrival who count v)
    (fun g => { g with forwarded := if g.ndCount ≤ count then PMap.set count v g.forwarded else g.forwarded }) s)
/-- REPLICA_COMPARE_FLIT (R327): the flit is held, and the grain decides at its comparison point. -/
def execReplicaCompareFlit (who : GrainKey) (flit : CmpFlit) (s : State) : Host.Outcome State Fault Refusal :=
  event (toReplica who (.replicaCompareFlit who flit) (fun g =>
    let old := g.cmpFlits.any fun f => f.replica == flit.replica && f.ordinal == flit.ordinal
    { g with cmpFlits := if old then g.cmpFlits else g.cmpFlits ++ [flit] }) s)

end Sys2Proof.Machine
end

