-- ==== Sys2Proof/Machine/EvNet.lean ====
section
/-! DEFINITION. Events of net launches: pair records, steal retries, sweeps and epochs (spec/12_graph_rewriting.md R308-R318). -/

namespace Sys2Proof.Machine

/-- The pushes that wait for a bag of a cluster. -/
def pushesTo (s : State) (cl : Nat) : List (Loc × Pend) :=
  s.allLocs.flatMap fun l => ((s.grainAt l).pend.filter fun p => match p.kind with
    | .push x y _ => portCluster (pairOf x.toNat y.toNat).1 == cl
    | .net (.push x y _) _ _ _ _ => portCluster (pairOf x.toNat y.toNat).1 == cl
    | _ => false).map fun p => (l, p)
/-- A push that ends when it is tried: a bag takes its record, or its owner is lost (R225). -/
def pushReady (s : State) (l : Loc) (p : Pend) : Bool :=
  match p.kind with
  | .push x y _ | .net (.push x y _) _ _ _ _ =>
    !s.alive (portCluster (pairOf x.toNat y.toNat).1) || (deliverPair s (s.grainAt l).launch l.core x.toNat y.toNat).isSome
  | _ => false
/-- PAIR_RECORD_ARRIVAL (R225, R308): one of the records on their way to a cluster reaches a bag there, or is held while it is full. -/
def execPairRecordArrival (cl : Nat) (s : State) : Host.Outcome State Fault Refusal :=
  let ps := pushesTo s cl
  let k := Config.choice s.tick 0 % ps.length
  match (ps.drop k ++ ps.take k).find? fun x => pushReady s x.1 x.2 with
  | none => event s
  | some (l, p) =>
    let s := serveResult s.ticked l p
    event (if (pushesTo s cl).isEmpty then s else s.dueOnce (.pairRecordArrival cl))
/-- STEAL_RETRY_TIMER (R310): a parked RWPOP tries its steal order again. -/
def execStealRetryTimer (loc : Loc) (s : State) : Host.Outcome State Fault Refusal :=
  event (s.wakeFrom .pair loc)

/-- Every launch-time grain has issued RWPOP or exited (R317). -/
def sweepGate (l : Launch) : Bool := (List.range l.total).all fun k => l.popped.contains k || l.exited.contains (k * 4)
/-- A grain of a launch holds a pair, wherever it is. -/
def pairHeld (s : State) (h : Nat) : Bool :=
  let holds := fun (g : Grain) => g.launch == h && (g.pair.isSome || g.taken.isSome)
  (s.grainPlaces.filterMap (grainOf s)).any holds
    || s.clusters.any (fun e => e.2.packets.any fun p => holds p.grain)
    || s.cores.any fun e => e.2.entries.any fun x => match x.kind with
        | .arrived g => holds g
        | _ => false
/-- Every bag of a cluster is empty. -/
def NetCl.bagsEmpty (n : NetCl) : Bool := n.bag.isEmpty && n.bags.all fun b => b.2.isEmpty
/-- The counts of a sweep. -/
def sweepCounts (s : State) (l : Launch) (h : Nat) : List (Nat × Nat) :=
  l.clusters.map fun gid => ((s.netCl gid h).created.toNat, (s.netCl gid h).done.toNat)
/-- A sum of counts. -/
def sumBy {α : Type} (f : α → Nat) (xs : List α) : Nat := xs.foldl (fun n x => n + f x) 0
/-- A sweep that may count toward the end (R318). -/
def sweepQuiet (s : State) (l : Launch) (h : Nat) : Bool :=
  sweepGate l && !pairHeld s h && l.clusters.all (fun gid => (s.netCl gid h).bagsEmpty)
    && sumBy Prod.fst (sweepCounts s l h) == sumBy Prod.snd (sweepCounts s l h)
/-- The epoch advances when every cluster has acknowledged it and no operation of the epoch before is outstanding (R314). -/
def epochStep (s : State) (h : Nat) : State :=
  let l := s.launch h
  let out := fun (n : NetCl) => if l.epoch % 2 = 1 then n.outEven else n.outOdd
  if l.clusters.all fun gid => (s.netCl gid h).epoch == l.epoch && out (s.netCl gid h) == 0 then
    (s.setLaunch h { l with epoch := l.epoch + 1 }).due (l.clusters.map fun gid => .epochAdopt gid h (l.epoch + 1))
  else s
/-- NET_SWEEP (R314, R317, R318): the counts of every cluster are read, the epoch may advance, and two equal quiet sweeps end the net. -/
def execNetSweep (launch : Nat) (s : State) : Host.Outcome State Fault Refusal :=
  let l := s.launch launch
  if !l.net || l.st != .running || l.finished then event s
  else
    let now := sweepCounts s l launch
    if sweepQuiet s l launch then
      if l.sweeps == [now] then
        let s := s.setLaunch launch { l with finished := true, pairsDone := BitVec.ofNat 64 (sumBy Prod.snd now) }
        event (checkDone (wakeWaiting s .pair) launch)
      else event (epochStep (s.setLaunch launch { l with sweeps := [now] }) launch)
    else event (epochStep (s.setLaunch launch { l with sweeps := [] }) launch)

/-- Frees the retired nodes that an epoch allows, in queue order (R315). -/
def freeRetired (s : State) (gid h epoch : Nat) : List Retire → State
  | [] => s
  | x :: r =>
    let l := s.launch h
    let again := Event.epochAdopt gid h epoch
    if epoch < x.stamp + 2 then s
    else match ownerWrite s l.ctx (l.nodeAddr gid x.index + 8) (leBytes 8 freedWord.toNat) with
      | .ok s => freeRetired (s.onNet gid h fun n => NetCl.release { n with retire := n.retire.drop 1 } x) gid h epoch r
      | .error (.refused g va) => s.raiseLaunch (clusterNode gid) h .segBounds (BitVec.ofNat 64 (g * 2 ^ 38 + va)) (packed ⟨gid * 32, 0⟩) 0#64 none 0
      | .error (.unread c) =>
        s.raiseLaunch (clusterNode gid) h c (BitVec.ofNat 64 (l.nodeAddr gid x.index + 8)) (packed ⟨gid * 32, 0⟩) 0#64 none 0
      | .error p => noPlaceDue s l.ctx p (.retire gid h) 1 again
/-- EPOCH_ADOPT (R314, R315). -/
def execEpochAdopt (cl : Nat) (launch : Nat) (epoch : Nat) (s : State) : Host.Outcome State Fault Refusal :=
  let n := s.netCl cl launch
  if epoch < n.epoch || (s.launch launch).epoch < epoch || !(s.launch launch).net then event s
  else
    let s := s.onNet cl launch fun n => { n with epoch }
    event (freeRetired s cl launch epoch n.retire)

end Sys2Proof.Machine
end

