-- ==== Sys2Proof/Machine/EvQueue.lean ====
section
/-! DEFINITION. Queues, launch records and their checks, allotments and the scheduler (spec/18_queues_and_dispatch.md R361-R370,
spec/08 R239-R246, spec/12 R301, spec/13 R321). -/

namespace Sys2Proof.Machine

/-! ### Queues (R361-R363) -/

/-- A segment table entry of 24 bytes, its private bit dropped (R30, R244). -/
def segAt (bs : List Byte) (off : Nat) : Seg := ⟨wordOf bs off, wordOf bs (off + 8), wordOf bs (off + 16) &&& ~~~(0x100#64)⟩
/-- The segments of a launch record. -/
def recordSegs (rcd : List Byte) : Vector Seg 8 := Vector.ofFn fun i => segAt rcd (128 + 24 * i.val)

/-- A queue of a package. -/
def State.queueAt (s : State) (node : Nat) (q : BitVec 16) : Queue := (PMap.get? q.toNat (s.pkg node).queues).getD Queue.reset
/-- Replaces a queue. -/
def State.setQueue (s : State) (node : Nat) (q : BitVec 16) (x : Queue) : State :=
  let p := s.pkg node
  s.setPkg node { p with queues := PMap.set q.toNat x p.queues }
/-- A package that takes the host's commands: booted, not in recovery mode, not failed (R432, R433). -/
def Pkg.up (p : Pkg) : Bool := p.boot == 7 && !p.recovery && !p.failed
/-- The context a queue is bound to. -/
def Queue.ctx (x : Queue) : BitVec 12 := x.context.setWidth 12
/-- Bound to a context. -/
def Queue.bound (x : Queue) : Bool := x.context.getLsbD 12
/-- Records of a ring. -/
def Queue.size (x : Queue) : Nat := 2 ^ (x.ringLog2.toNat % 32)
/-- No launch of the queue runs. -/
def Queue.idle (x : Queue) : Bool := x.running.isNone && x.graph.isNone
/-- The register qstatus as the host reads it (R361). -/
def Queue.qstatus (x : Queue) : Word :=
  BitVec.ofNat 64 ((if x.enabled then 1 else 0) + (if x.idle then 0 else 2) + (if x.tailError then 4 else 0) + (if x.bound then 8 else 0))
/-- A context that was created and is not being destroyed (R362, R376). -/
def Context.valid (x : Context) : Bool := x.st == .live || (x.st == .busy && x.lastCmd != 2#3)
/-- The dispatcher reads the queue's next record when one is posted and no launch of the queue runs (R364). -/
def queueNext (s : State) (node : Nat) (q : BitVec 16) : State :=
  let x := s.queueAt node q
  if x.enabled && x.idle && decide (x.head.toNat < x.tail.toNat) then s.dueOnce (.launchRecordRead node q) else s
/-- A write to tail (R363). -/
def writeTail (s : State) (node : Nat) (q : BitVec 16) (v : Word) : State :=
  let x := s.queueAt node q
  if x.head.toNat ≤ v.toNat ∧ v.toNat ≤ x.head.toNat + x.size ∧ x.tail.toNat ≤ v.toNat then
    queueNext (s.setQueue node q { x with tail := v }) node q
  else s.setQueue node q { x with tailError := true }
/-- A launch whose record has been read; its arguments and result are the record's. -/
def freshLaunch (node : Nat) (q seqNo : Nat) (ctx : BitVec 12) (rcd : List Byte) : Launch :=
  { Launch.none with st := .reading, node, queue := q, seqNo, ctx, record := rcd, code := fieldOf rcd 8 8, nonce := (rcd.drop 48).take 32,
                     args := wordOf rcd 16, result := wordOf rcd 24, resultLen := fieldOf rcd 4 4, segs := recordSegs rcd }
/-- The queue's launch whose record is still being read. -/
def readingOf (s : State) (x : Queue) : Option Nat := x.running.bind fun h => if (s.launch h).st == .fetching then some h else none
/-- The record of launch `h` has been read. -/
def recordRead (s : State) (h : Nat) (rcd : List Byte) : State :=
  let l := s.launch h
  (s.setLaunch h (freshLaunch l.node l.queue l.seqNo l.ctx rcd)).due [.launchPlace h]
/-- Enables a queue (R362). A launch whose record is still being read keeps what was read of it: a mixture that R364 allows. -/
def enableQueue (s : State) (node : Nat) (q : BitVec 16) : State :=
  let x := s.queueAt node q
  let n := x.ringLog2.toNat
  let s' := match readingOf s x with
    | some h => recordRead s h (s.launch h).record
    | none => s
  if !x.enabled && x.bound && (s.ctxOf node x.ctx).valid && x.ctx != 0#12 && decide (4 ≤ n ∧ n ≤ 16) then
    s'.setQueue node q { x with enabled := true, tail := 0#64, head := 0#64, done := 0#64, tailError := false }
  else s
/-- Disables a queue: no further record is read (R362). -/
def disableQueue (s : State) (node : Nat) (q : BitVec 16) : State := s.setQueue node q { s.queueAt node q with enabled := false }
/-- A write to control: enable or disable, and an abort (R361, R362, R372). -/
def writeControl (s : State) (node : Nat) (q : BitVec 16) (v : Word) : State :=
  let s := if v.getLsbD 0 then enableQueue s node q else disableQueue s node q
  if v.getLsbD 1 then s.due [.queueAbort node q] else s
/-- A write to a queue's configuration (R361). -/
def writeConfig (s : State) (node : Nat) (q : BitVec 16) (off : Nat) (v : Word) : State :=
  let x := s.queueAt node q
  match off with
  | 0x28 => writeControl s node q v
  | 0x00 => if x.enabled then s else s.setQueue node q { x with ringBase := v }
  | 0x08 => if x.enabled then s else s.setQueue node q { x with compBase := v }
  | 0x10 => if x.enabled then s else s.setQueue node q { x with ringLog2 := v &&& 0x1F#64 }
  | 0x18 => if x.enabled then s else s.setQueue node q { x with context := v &&& 0x1FFF#64 }
  | 0x20 => if x.enabled then s else s.setQueue node q { x with msix := v &&& 0xFFF#64 }
  | _ => s
/-- A host write to BAR0 (R361). -/
def writeBar0 (s : State) (node off : Nat) (v : Word) : State :=
  if off < 0x200000 then (if off % 32 = 0 then writeTail s node (BitVec.ofNat 16 (off / 32)) v else s)
  else if off < 0x600000 then writeConfig s node (BitVec.ofNat 16 ((off - 0x200000) / 64)) ((off - 0x200000) % 64) v
  else s
/-- QUEUE_TAIL_WRITE (R363). -/
def execQueueTailWrite (node : Nat) (q : BitVec 16) (v : Word) (s : State) : Host.Outcome State Fault Refusal :=
  event (if (s.pkg node).up then writeTail s node q v else s)
/-- QUEUE_ENABLE (R362): before boot is over it is discarded (R432). -/
def execQueueEnable (node : Nat) (q : BitVec 16) (s : State) : Host.Outcome State Fault Refusal :=
  event (if (s.pkg node).up then enableQueue s node q else s)
/-- QUEUE_DISABLE (R362). -/
def execQueueDisable (node : Nat) (q : BitVec 16) (s : State) : Host.Outcome State Fault Refusal :=
  event (if (s.pkg node).up then disableQueue s node q else s)

/-! ### Descriptors (R239, R244, R246, R365, R366) -/

/-- A range of bytes is zero. -/
def zeroAt (bs : List Byte) (off n : Nat) : Bool := ((bs.drop off).take n).all (· == 0#8)
/-- Bits [63:52] of a fat pointer. -/
def ptrTop (p : Word) : Nat := p.toNat / 2 ^ 52
/-- The launch a record and a descriptor describe (R364, R365). -/
def describe (l : Launch) (rcd d : List Byte) : Launch :=
  let fl := fieldOf d 2 2
  let rf := fieldOf rcd 2 2
  let n := max 1 (fl / 4 % 4)
  { l with
    cls := BitVec.ofNat 2 (if rf / 4 % 2 = 1 then rf % 4 else fl / 32 % 4), pageCls := BitVec.ofNat 2 (fl / 32 % 4)
    det := fl % 2 == 1, net := fl / 2 % 2 == 1, apart := fl / 16 % 2 == 1
    fields := fieldOf d 4 3 + 1, ears := fieldOf d 8 1, grains := fieldOf d 9 1, stages := fieldOf d 10 1, perCore := fieldOf d 11 1
    entry := wordOf d 16, args := wordOf rcd 16, result := wordOf rcd 24, resultLen := fieldOf rcd 4 4
    code := fieldOf rcd 8 8, codeLen := fieldOf d 24 8, rulesOff := fieldOf d 32 8, agents := fieldOf d 13 1
    nonce := (rcd.drop 48).take 32, segs := recordSegs rcd
    shapes := (List.range (min 4 (fieldOf d 12 1))).map fun j =>
      (rcd.drop (80 + 8 * j)).take 8 ++ (d.drop (256 + 192 * j + 8)).take 184
    l1 := fieldOf d 14 1, explicit := rf / 8 % 2 == 1
    reps := { count := n, primary := 0, live := List.range n, quarantined := none, byLoss := false, decidedBy := 0, decidedAt := 0,
              points := [0, 0, 0] }
    detMode := fl % 2 == 1 }

/-- A pointer of a record holds a reserved format or block_log code (R28, R29). -/
def reservedPtr (p : Word) : Bool := !allFmts.contains (ptrFmt p) || [1, 2, 6, 7].contains (ptrLog p)
/-- A version, zero field or reserved code of a record is wrong, or an entry fails R31. -/
def recordBad (rcd : List Byte) : Bool :=
  fieldOf rcd 0 2 != 1 || reservedPtr (wordOf rcd 16) || reservedPtr (wordOf rcd 24)
    || (List.range 4).any (fun j => reservedPtr (wordOf rcd (80 + 8 * j))) || decide (32 ≤ fieldOf rcd 2 2) || !zeroAt rcd 44 4 || !zeroAt rcd 112 16 || !zeroAt rcd 320 192
    || (List.finRange 8).any fun i => !((recordSegs rcd)[i]).valid i.val
/-- A version, zero field or reserved code of a descriptor's header or seg_min is wrong. -/
def headerBad (d : List Byte) : Bool :=
  fieldOf d 0 2 != 1 || decide (128 ≤ fieldOf d 2 2) || fieldOf d 7 1 != 0 || fieldOf d 15 1 != 0 || !zeroAt d 40 24
    || decide (6 < fieldOf d 14 1)
    || (List.range 8).any fun i => !(segAt d (64 + 24 * i)).valid i || (segAt d (64 + 24 * i)).w0 != 0#64
/-- A record entry gives less than the descriptor's minimum. -/
def segsShort (rcd d : List Byte) : Bool :=
  (List.range 8).any fun i =>
    let x := segAt rcd (128 + 24 * i)
    let m := segAt d (64 + 24 * i)
    decide (x.limit < m.limit) || (m.w2 &&& 7#64) &&& ~~~x.w2 != 0#64
/-- A shape base disagrees with the descriptor. -/
def basesBad (rcd d : List Byte) : Bool :=
  (List.range 4).any fun j =>
    let b := wordOf rcd (80 + 8 * j)
    if j < fieldOf d 12 1 then ptrTop b != ptrTop (wordOf d (256 + 192 * j)) else b != 0#64
/-- A zero field or reserved code of a shape record is wrong (R246, R365): beyond shape_count it is zero. -/
def shapeReserved (r : List Byte) (used : Bool) : Bool :=
  if !used then !zeroAt r 0 192
  else
    let n := fieldOf r 8 1
    !(zeroAt r 9 7 && zeroAt r 160 32 && fieldOf r 0 8 % 2 ^ 52 == 0 && !reservedPtr (wordOf r 0)
      && (List.range 6).all fun m =>
        if m < n then decide (fieldOf r (32 + 24 * m) 1 < 16) && fieldOf r (32 + 24 * m) 1 % 4 != 3 && zeroAt r (33 + 24 * m) 7
        else zeroAt r (16 + 24 * m) 24)
/-- A shape record of a descriptor breaks the ranges of R246. -/
def shapeBad (r : List Byte) (used : Bool) : Bool :=
  let n := fieldOf r 8 1
  used && !(decide (1 ≤ n ∧ n ≤ 6)
    && (List.range (min n 6)).all fun m => decide (1 ≤ fieldOf r (16 + 24 * m) 8 ∧ fieldOf r (16 + 24 * m) 8 < 2 ^ 52))
/-- A predicate of the shape records of a descriptor. -/
def anyShape (d : List Byte) (f : List Byte → Bool → Bool) : Bool :=
  (List.range 4).any fun j => f ((d.drop (256 + 192 * j)).take 192) (decide (j < fieldOf d 12 1))
/-- The descriptor breaks R239, R244 or R246, or its entry PC is not in the layout of R102. -/
def descriptorBad (l : Launch) (d : List Byte) : Bool :=
  !decide (1 ≤ l.ears ∧ l.ears ≤ 16 ∧ 1 ≤ l.grains ∧ l.grains ≤ 16 ∧ 1 ≤ l.stages ∧ l.stages ≤ 16 ∧ l.grains ≤ l.perCore
      ∧ l.perCore ≤ l.grains + 64)
    || fieldOf d 2 2 / 4 % 4 == 0 || decide (4 < fieldOf d 12 1) || decide (64 < l.agents)
    || (!l.net && (l.agents != 0 || l.rulesOff != 0))
    || ptrFmt l.entry != 2 || ptrLog l.entry != 0 || l.entry.getLsbD 0
    || anyShape d shapeBad
/-- The base that the entry for the entry PC's segment must have. -/
def entryBad (l : Launch) : Bool := ((l.segs.toList.getD (ptrSeg l.entry) Seg.empty).w0) != BitVec.ofNat 64 (l.code + 1024)
/-- What a net launch needs whatever its clusters hold (R301). -/
def netBad (l : Launch) : Bool :=
  let d := l.segs[1]
  let a := d.w0.toNat
  l.net && !(d.r && d.w && a % 32 == 0 && decide ((0x400000 ≤ a ∧ a < 0x500000) ∨ (0x1000000000 ≤ a ∧ a < 0x2000000000))
    && d.limit % 32 == 0 && decide (1 ≤ d.limit / 32 ∧ d.limit / 32 ≤ 2 ^ 20) && decide (1 ≤ l.agents ∧ l.agents ≤ 64)
    && l.reps.count == 1)

/-! ### Placement (R241, R301, R321, R369, R370) -/

/-- The clusters of a strip with its origin at a cluster. -/
def stripAt (l : Launch) (gid : Nat) : List Nat :=
  let (x, y) := torusPos gid
  (List.range l.stages).map fun k => torusAt (clusterNode gid) ((x + k) % 24) y
/-- Grains that strip `j` places on each of its cores. -/
def Launch.stripGrains (l : Launch) (j : Nat) : Nat := min l.layers (l.fields - j * l.layers) * l.grains
/-- Grains of launches reserved on a core but not yet started there. -/
def grantedOn (s : State) (k : Nat) : Nat :=
  s.launches.foldl (fun n e => if e.2.st == .granted && e.2.cores.contains k then n + (e.2.ranksOn (if e.2.reps.count ≤ 1 then 0 else
    ((e.2.allot.findIdx? (· == coreCluster k)).getD 0) / max 1 e.2.perReplica) k).length else n) 0
/-- A core holds no grain of any launch and none is reserved. -/
def coreEmpty (c : Core) : Bool := c.partitions.isEmpty && c.slots.toList.all (fun sl => !sl.occupied) && c.runQ.isEmpty
/-- A core can take `n` grains of a launch (R369). -/
def coreTakes (s : State) (l : Launch) (n k : Nat) : Bool :=
  let c := s.core k
  c.status == .running && (coreEmpty c || c.l1Split.toNat == l.l1) && decide (c.partitions.length < 4)
    && decide (n + grantedOn s k ≤ (c.slots.toList.filter fun sl => sl.st == .empty).length + (64 - c.runQ.length))
/-- A cluster that exists, is enabled and not lost (R370). -/
def placeable (s : State) (gid : Nat) : Bool := s.alive gid && (s.cluster gid).status == .enabled
/-- A strip can take the launch now, or on an idle package. -/
def stripTakes (s : State) (l : Launch) (idle : Bool) (j : Nat) (cs : List Nat) : Bool :=
  cs.all fun gid => placeable s gid
    && (idle || (List.range l.ears).all fun e => coreTakes s l (l.stripGrains j) (gid * 32 + e))
/-- What two replicas may not share: dies, or packages (R321). -/
def apartKey (l : Launch) (gid : Nat) : Nat := if l.apart then clusterNode gid else clusterDie gid
/-- Origins the dispatcher tries for a chosen allotment: row-major on die 0, then dies 1 to 3; other packages only for replicas that must
lie apart (R321, R369). -/
def chosenOrigins (s : State) (l : Launch) : List Nat :=
  let one := fun (n : Nat) => (List.range 4).flatMap fun d => (List.range 96).map fun c => n * 512 + d * 128 + c
  (if l.apart then l.node :: sortBy (fun a b => decide (a ≤ b)) (s.present.filter (· != l.node)) else [l.node]).flatMap one
/-- A strip may stand beside those taken: no cluster twice, nothing shared with another replica (R321). -/
def stripFree (l : Launch) (mine others : List Nat) (cs : List Nat) : Bool :=
  cs.all fun gid => !mine.contains gid && !others.contains gid && !(others.map (apartKey l)).contains (apartKey l gid)
/-- Strips of one replica from `j` on: the first origin that can take each, in the order of the list. -/
def chooseStrips (s : State) (l : Launch) (idle : Bool) (others : List Nat) : Nat → Nat → List Nat → List Nat → Option (List Nat)
  | 0, _, _, mine => some mine
  | n + 1, j, origins, mine =>
    match origins.find? fun o => decide (o % 128 < 96) && stripFree l mine others (stripAt l o) && stripTakes s l idle j (stripAt l o) with
    | some o => chooseStrips s l idle others n (j + 1) origins (mine ++ stripAt l o)
    | none => none
/-- Strips of one replica at named origins. -/
def namedStrips (s : State) (l : Launch) (idle : Bool) (others : List Nat) : Nat → List Nat → List Nat → Option (List Nat)
  | _, [], mine => some mine
  | j, o :: os, mine =>
    if decide (o % 128 < 96) && stripFree l mine others (stripAt l o) && stripTakes s l idle j (stripAt l o) then
      namedStrips s l idle others (j + 1) os (mine ++ stripAt l o)
    else none
/-- The allotment of replicas from `r` on. -/
def allotFrom (s : State) (l : Launch) (idle : Bool) : Nat → Nat → List Nat → Option (List Nat)
  | 0, _, all => some all
  | n + 1, r, all =>
    let mine := if l.explicit then
        let os := (l.origins.drop (r * l.strips)).take l.strips
        if os.length < l.strips then none else namedStrips s l idle all 0 os []
      else chooseStrips s l idle all l.strips 0 (chosenOrigins s l) []
    match mine with
    | some m => allotFrom s l idle n (r + 1) (all ++ m)
    | none => none
/-- The allotment a launch would have (R241, R321, R369). -/
def allotment (s : State) (l : Launch) (idle : Bool) : Option (List Nat) := allotFrom s l idle l.reps.count 0 []

/-- The next multiple of 64. -/
def up64 (a : Nat) : Nat := (a + 63) / 64 * 64
/-- Ranges of cluster SRAM that a net region may not touch: home segments, and the regions of other launches on the same clusters. -/
def netObstacles (s : State) (l : Launch) (allot : List Nat) (idle : Bool) : List (Nat × Nat) :=
  ((l.segs.toList.take 4).map fun d => (d.w0.toNat, d.limit))
    ++ (if idle then [] else s.launches.filterMap fun e =>
        if e.2.net && e.2.ruleTable != 0 && (e.2.st == .granted || e.2.st == .running || e.2.st == .stopping)
            && e.2.allot.any (fun g => allot.contains g) then some (e.2.ruleTable, 0x2C000) else none)
/-- A place of a net region (R301, R302): any that is free, where the dispatcher chooses one; there is one when the start of cluster SRAM or the
end of an obstacle is one (notes/assumptions/47.md). -/
def netRegion (s : State) (l : Launch) (allot : List Nat) (idle : Bool) : Option Nat :=
  let obs := netObstacles s l allot idle
  let liked := 0x400000 + 64 * (Config.choice s.tick 0x400000 % 0x4000)
  let starts := 0x400000 :: (obs.map fun o => up64 (o.1 + o.2))
  let fits := fun (a : Nat) => decide (0x400000 ≤ a ∧ a + 0x2C000 ≤ 0x500000) && obs.all fun o => o.2 == 0 || !overlaps a 0x2C000 o.1 o.2
  if fits liked && starts.any fits then some liked else
  (starts.filter fits).foldl
    (fun (m : Option Nat) a => some (match m with | some b => min a b | none => a)) none
/-- Adds a far segment before those that follow it, merged where they adjoin (R387): base, limit and rights. -/
def mergeFar (x : Nat × Nat × BitVec 3) (r : List (Nat × Nat × BitVec 3)) : List (Nat × Nat × BitVec 3) :=
  match r with
  | y :: t => if y.1 ≤ x.1 + x.2.1 ∧ x.2.2 = y.2.2 then (x.1, max x.2.1 (y.1 + y.2.1 - x.1), x.2.2) :: t else x :: r
  | [] => [x]
/-- The far segments of a launch that are not empty, in order of base. -/
def farSegs (l : Launch) : List (Nat × Nat × BitVec 3) :=
  (sortBy (fun a b => decide (a.1 ≤ b.1)) (((l.segs.toList.drop 4).filter fun d => d.limit != 0).map fun d =>
    (d.w0.toNat, d.limit, d.w2.setWidth 3))).foldr mergeFar []
/-- A context is protected (R375, R387). -/
def ctxProtected (s : State) (node : Nat) (ctx : BitVec 12) : Bool := (s.ctxOf node ctx).params.getLsbD 8
/-- Clusters that a launch's far segments begin or end in. -/
def farOwners (l : Launch) : List Nat := (farSegs l).flatMap fun f => [f.1 / 2 ^ 38, (f.1 + f.2.1 - 1) / 2 ^ 38]
/-- A launch that holds cores. -/
def Launch.placed (l : Launch) : Bool := l.st == .granted || l.st == .running || l.st == .stopping
/-- The smallest range that holds some ranges, those that are empty left out. -/
def hull (rs : List (Nat × Nat)) : Option (Nat × Nat) :=
  match rs.filter fun r => r.1 < r.2 with
  | [] => none
  | r :: rest => some (rest.foldl (fun m x => (min m.1 x.1, max m.2 x.2)) r)
/-- The home segments of a launch from a cluster-local address on. -/
def homeHull (l : Launch) (lo : Nat) : Option (Nat × Nat) :=
  hull ((l.segs.toList.take 4).map fun d => (max lo d.w0.toNat, d.w0.toNat + d.limit))
/-- The rights of a launch's home segments together. -/
def homeRights (l : Launch) : BitVec 3 := (l.segs.toList.take 4).foldl (fun r d => if d.limit = 0 then r else r ||| d.w2.setWidth 3) 0#3
/-- A valid protection entry. -/
def protOf (ctx : BitVec 12) (base limit : Nat) (rights : BitVec 3) : Prot :=
  { valid := true, base := BitVec.ofNat 64 base, limit, rights, ctx }
/-- The port entries of a launch at a cluster: the segments it has there (R387); `home` says that it has grains there. -/
def portProts (l : Launch) (home : Bool) (gid : Nat) : List Prot :=
  (if home then match homeHull l 0 with
      | some r => [protOf l.ctx (gid * 2 ^ 38 + r.1) (r.2 - r.1) (homeRights l)]
      | none => []
    else [])
    ++ ((farSegs l).filter fun f => overlaps f.1 f.2.1 (gid * 2 ^ 38) (2 ^ 38)).map fun f => protOf l.ctx f.1 f.2.1 f.2.2
/-- A launch has grains at a cluster: the cluster is in its allotment, or a grain of it came to a core there (R244). -/
def atHome (s : State) (h gid : Nat) : Bool :=
  (s.launch h).allot.contains gid || (List.range 32).any fun e => (PMap.get? h (s.core (gid * 32 + e)).partitions).isSome
/-- The port entries that the launches with segments at a cluster need there: none while none of them is of a protected context. -/
def portNeeds (s : State) (gid : Nat) : List Prot :=
  let ls := s.launches.filter fun e => e.2.placed && !(portProts e.2 (atHome s e.1 gid) gid).isEmpty
  if ls.any fun e => ctxProtected s e.2.node e.2.ctx then (ls.flatMap fun e => portProts e.2 (atHome s e.1 gid) gid).dedup else []
/-- The sixteen entries of every port that a launch bears on hold what it needs there with the launches beside it
(R387; notes/assumptions/86.md). -/
def portsFit (s : State) (h : Nat) (l : Launch) (a : List Nat) : Bool :=
  let s := s.setLaunch h { l with st := .granted, allot := a }
  ((a ++ farOwners l).dedup).all fun gid => decide ((portNeeds s gid).length ≤ 16)
/-- The launch could not be placed even on an idle package (R370): also when its list names a cluster that is absent, disabled or lost. -/
def unplaceable (s : State) (l : Launch) : Bool :=
  netBad l || (l.explicit && l.origins.any fun o => !(decide (o % 128 < 96) && placeable s o)) || (ctxProtected s l.node l.ctx && decide (2 < (farSegs l).length))
    || match allotment s l true with
      | none => true
      | some a => l.net && (netRegion s l a true).isNone
/-- The launch can be placed now, with its allotment and net region. -/
def placeNow (s : State) (h : Nat) (l : Launch) : Option (List Nat × Nat) :=
  match allotment s l false with
  | none => none
  | some a => if !portsFit s h l a then none else if l.net then (netRegion s l a false).map fun r => (a, r) else some (a, 0)

/-! ### The scheduler (R367) -/

/-- A checkpoint holds the launches of a context back (R426, R429). -/
def ckHeld (s : State) (node : Nat) (ctx : BitVec 12) : Bool :=
  match PMap.get? ctx.toNat (s.pkg node).cks with
  | some x => x.st != .idle
  | none => false
/-- Rounds are due for every class in which a launch waits. -/
def dueRounds (s : State) (node : Nat) : State :=
  [0#2, 1#2, 2#2, 3#2].foldl (fun s c =>
    if s.launches.any fun e => e.2.st == .waiting && e.2.node == node && e.2.cls == c then s.dueOnce (.schedulerRound node c) else s) s
/-- Waiting launches of a context in a class, by queue and then by age. -/
def waitingOf (s : State) (node : Nat) (ctx : BitVec 12) (cls : BitVec 2) : List (Nat × Launch) :=
  sortBy (fun a b => decide (a.2.queue < b.2.queue ∨ (a.2.queue = b.2.queue ∧ a.1 ≤ b.1)))
    (s.launches.filter fun e => e.2.st == .waiting && e.2.node == node && e.2.ctx == ctx && e.2.cls == cls)
/-- The key of the queue served last. -/
def rrKey (ctx : BitVec 12) (cls : BitVec 2) : Nat := ctx.toNat * 4 + cls.toNat
/-- The head launch of a context in a class: the queues in turn, those that cannot be placed passed over. -/
def headOf (s : State) (node : Nat) (ctx : BitVec 12) (cls : BitVec 2) : Option (Nat × List Nat × Nat) :=
  let ws := if ckHeld s node ctx then [] else waitingOf s node ctx cls
  let last := (PMap.get? (rrKey ctx cls) (s.pkg node).rrQueue).getD 0x10000
  ((ws.filter fun e => last < e.2.queue) ++ ws.filter fun e => e.2.queue ≤ last).findSome? fun e =>
    (placeNow s e.1 e.2).map fun p => (e.1, p.1, p.2)
/-- Contexts with launches that wait in a class, in order. -/
def contextsOf (s : State) (node : Nat) (cls : BitVec 2) : List (BitVec 12) :=
  (sortBy (fun a b => decide (a ≤ b))
    ((s.launches.filter fun e => e.2.st == .waiting && e.2.node == node && e.2.cls == cls).map fun e => e.2.ctx.toNat).dedup).map
      (BitVec.ofNat 12)
/-- A class has a placeable launch. -/
def classPlaceable (s : State) (node : Nat) (cls : BitVec 2) : Bool := (contextsOf s node cls).any fun c => (headOf s node c cls).isSome
/-- Bytes at a global address that the head complex reads for a context. -/
def headRead (s : State) (node : Nat) (ctx : BitVec 12) (addr n : Nat) : OwnerRead := readOwner s ctx (aliased s node (steer s 0 addr)) n
/-- The class a record asks for, when it can be told. -/
def recordClass (s : State) (node : Nat) (ctx : BitVec 12) (rcd : List Byte) : Option Nat :=
  if fieldOf rcd 2 2 / 4 % 2 = 1 then some (fieldOf rcd 2 2 % 4)
  else match headRead s node ctx (fieldOf rcd 8 8) 4 with
    | .value d => some (fieldOf d 2 2 / 32 % 4)
    | _ => none
/-- Record `i` of a queue's ring. -/
def ringRecord (s : State) (node : Nat) (x : Queue) (i : Nat) : List Byte := s.hostRead node (x.ringBase.toNat + 512 * (i % x.size)) 512
/-- A context has a posted launch in a class: one that waits, one that is being read or checked, or a record not yet read. -/
def posted (s : State) (node : Nat) (ctx : BitVec 12) (cls : BitVec 2) : Bool :=
  s.launches.any (fun e => e.2.node == node && e.2.ctx == ctx && match e.2.st with
      | .waiting => e.2.cls == cls
      | .fetching | .reading => recordClass s node ctx e.2.record == some cls.toNat
      | _ => false)
    || (s.pkg node).queues.any fun e => e.2.enabled && e.2.bound && e.2.ctx == ctx
        && (List.range (e.2.tail.toNat - e.2.head.toNat)).any fun i => recordClass s node ctx (ringRecord s node e.2 (e.2.head.toNat + i)) == some cls.toNat
/-- The partition of a core that a launch gets (R245). -/
def freePartition (c : Core) : Nat := ((List.range 4).find? fun j => c.partitions.all fun e => e.2 != j).getD 0
/-- Reserves a launch on a core: its partition, and the split of an empty core's array, whose contents are then open (R245, R263). -/
def reserveCore (l1 h : Nat) (s : State) (k : Nat) : State :=
  let c := s.core k
  let s := if coreEmpty c && c.l1Split.toNat != l1 then
      let base := coreCluster k * 2 ^ 38 + coreIndex k * 0x20000
      { (s.setCore k { c with l1Split := BitVec.ofNat 3 l1, l1 := [] }).ticked with
        mem := s.mem.writeBytes base ((List.range 98304).map fun i => Config.freeByte s.tick i) }
    else s
  let c := s.core k
  s.setCore k { c with partitions := PMap.set h (freePartition c) c.partitions }
/-- The cores a launch places grains on. -/
def launchCores (l : Launch) : List Nat := l.allot.flatMap fun gid => (List.range l.ears).map fun e => gid * 32 + e
/-- Reserves an allotment for a launch; the steering of its context's former launch ends (R323, R369). -/
def grant (s : State) (h : Nat) (a : List Nat) (region : Nat) : State :=
  let l := s.launch h
  let l := { l with st := .granted, allot := a, ruleTable := region }
  let l := { l with cores := launchCores l }
  let s := s.setLaunch h l
  let s := l.cores.foldl (reserveCore l.l1 h) s
  { s with nextSteer := PMap.set (l.node * 4096 + l.ctx.toNat) h s.nextSteer }.due [.launchPlace h]
/-- A context's deficit in a class. -/
def Context.deficit (x : Context) (cls : BitVec 2) : Nat := x.deficits.getD cls.toNat 0
/-- Sets a deficit. -/
def setDeficit (s : State) (node : Nat) (ctx : BitVec 12) (cls : BitVec 2) (n : Nat) : State :=
  let x := s.ctxOf node ctx
  s.setCtx node ctx { x with deficits := x.deficits.set cls.toNat n }
/-- Places the head launches of a context that its deficit covers, at most `n` of them. -/
def placeCovered (node : Nat) (ctx : BitVec 12) (cls : BitVec 2) : Nat → State → State
  | 0, s => s
  | n + 1, s =>
    match headOf s node ctx cls with
    | none => s
    | some (h, a, r) =>
      let l := s.launch h
      let d := (s.ctxOf node ctx).deficit cls
      if d < l.total then s
      else
        let s := setDeficit (grant s h a r) node ctx cls (d - l.total)
        let p := s.pkg node
        placeCovered node ctx cls n (s.setPkg node { p with rrQueue := PMap.set (rrKey ctx cls) l.queue p.rrQueue })
/-- One context's turn in a round (R367). -/
def serveContext (node : Nat) (cls : BitVec 2) (s : State) (ctx : BitVec 12) : State :=
  match headOf s node ctx cls with
  | none => s
  | some (h, _, _) =>
    let x := s.ctxOf node ctx
    let w := x.params.toNat % 256
    let s := setDeficit s node ctx cls (min (x.deficit cls + 1024 * w) (4096 * w + (s.launch h).total))
    let s := placeCovered node ctx cls (waitingOf s node ctx cls).length s
    if posted s node ctx cls then s else setDeficit s node ctx cls 0
/-- SCHEDULER_ROUND (R367): one round of a class, while no higher class has a placeable launch. -/
def execSchedulerRound (node : Nat) (cls : BitVec 2) (s : State) : Host.Outcome State Fault Refusal :=
  if !(s.pkg node).up || (List.range cls.toNat).any (fun c => classPlaceable s node (BitVec.ofNat 2 c)) || !classPlaceable s node cls then event s
  else event (dueRounds ((contextsOf s node cls).foldl (serveContext node cls) s) node)

/-! ### Reading and checking a record (R364, R366) -/

/-- A read the head complex makes for a launch: bytes, a failure, or a wait that leaves its event due. -/
inductive HeadRead where
  | value (bs : List Byte)
  | bad (c : Cause) (addr : Nat)
  | wait (s : State)
/-- Reads for launch `h`; a page with no translation holds the read, and a refused one fails it (R277, R371). -/
def readHead (s : State) (h addr n : Nat) (again : Event) : HeadRead :=
  let l := s.launch h
  let a := effAddr s l.node h l.reps.primary addr true
  match l.refused.find? fun p => overlaps (p * 4096) 4096 a n with
  | some p => .bad .segBounds (max a (p * 4096))
  | none => match readOwner s l.ctx a n with
    | .value bs => .value bs
    | .lost => .bad .peerLost a
    | .poisoned => .bad .uncorrectable a
    | .noPlace (.refused gid va) => .bad .segBounds (gid * 2 ^ 38 + va)
    | .noPlace p => .wait (noPlaceDue s l.ctx p (.net h (a / 2 ^ 38)) 3 again)
/-- A launch has ended and its completion record becomes ready, after those that are ready (R397). -/
def State.recordReady (s : State) (h : Nat) (l : Launch) : State :=
  let n := s.launches.foldl (fun n e => max n (e.2.ready + 1)) 1
  (s.setLaunch h { l with st := .ended, ready := n }).due [.completionWrite h]
/-- What a read of the head complex leaves in the TLBs (R378). -/
def headTouch (s : State) (h addr n : Nat) : State :=
  let l := s.launch h
  tlbTouch s l.ctx (effAddr s l.node h l.reps.primary addr true) n
/-- A refused launch: its completion is due (R366, R370). -/
def refuse (s : State) (h reason : Nat) : State :=
  let l := s.launch h
  s.recordReady h { l with outcome := 2, status := BitVec.ofNat 64 reason }
/-- A record that changed while it was read: any mixture of its old and new 8-byte words (R364). -/
def mixed (s : State) (old new : List Byte) : List Byte :=
  (List.range 64).flatMap fun j => ((if Config.choice s.tick (8 + j) % 2 = 0 then new else old).drop (8 * j)).take 8
/-- LAUNCH_RECORD_READ (R364, R366): the read of the record begins, and at the next such event it is over, head moves on, and the launch is
checked next; a record that cannot be read is refused. -/
def execLaunchRecordRead (node : Nat) (q : BitVec 16) (s : State) : Host.Outcome State Fault Refusal :=
  let x := s.queueAt node q
  let i := x.head.toNat
  let at_ := x.ringBase.toNat + 512 * (i % x.size)
  let rcd := s.hostRead node at_ 512
  if !(s.pkg node).up then event s
  else match readingOf s x with
    | some h =>
      let rcd := mixed s (s.launch h).record rcd
      let s' := s.setQueue node q { x with head := x.head + 1#64 }
      let s' := recordRead s' h rcd
      event (if s.hostBad node at_ 512 then refuse s' h 4 else s')
    | none =>
      if !x.enabled || !x.idle || !decide (x.head.toNat < x.tail.toNat) || ckHeld s node x.ctx then event s
      else
        let h := s.nextLaunch
        let s := { s with nextLaunch := h + 1 }.setLaunch h { freshLaunch node q.toNat i x.ctx rcd with st := .fetching }
        event ((s.setQueue node q { x with running := some h }).due [.launchRecordRead node q])
/-- Bytes of the code object (R365). -/
def Launch.objectLen (l : Launch) : Nat := if l.net then l.rulesOff + 16384 else 1024 + l.codeLen
/-- The reason a record is refused for, when its parts could be read (R366, R370). DESIGN CHOICE: a node's record that sets flags[4] has
reason 2 (R373; notes/assumptions/84.md). -/
def refusalOf (s : State) (l : Launch) (rcd d : List Byte) : Option Nat :=
  if recordBad rcd || (l.graphNode.isSome && fieldOf rcd 2 2 / 16 % 2 == 1) || headerBad d || anyShape d shapeReserved || segsShort rcd d || basesBad rcd d then some 2
  else if descriptorBad l d || entryBad l then some 3
  else if unplaceable s l then some 1
  else none
/-- Checks a launch whose record was read: it waits to be placed, or is refused. -/
def checkLaunch (s : State) (h : Nat) : State :=
  let l0 := s.launch h
  let rcd := l0.record
  let again := Event.launchPlace h
  let explicit := fieldOf rcd 2 2 / 8 % 2 == 1
  match readHead s h l0.code 1024 again with
  | .wait s => s
  | .bad _ _ => refuse s h 4
  | .value d =>
    let s := headTouch s h l0.code 1024
    match (if explicit then readHead s h (fieldOf rcd 32 8) (4 * fieldOf rcd 40 4) again else .value []) with
    | .wait s => s
    | .bad _ _ => refuse s h 4
    | .value list =>
      let l := describe l0 rcd d
      let l := { l with origins := (List.range (list.length / 4)).map fun j => fieldOf list (4 * j) 4 }
      match refusalOf s l rcd d with
      | some r => refuse s h r
      | none =>
        match readHead s h l.code l.objectLen again with
        | .wait s => s
        | .bad _ _ => refuse s h 4
        | .value obj => dueRounds ((headTouch s h l.code l.objectLen).setLaunch h { l with st := .waiting, hCode := sha384 obj, refused := [] }) l.node

end Sys2Proof.Machine
end

