-- ==== Sys2Proof/Machine/EvPlace.lean ====
section
/-! DEFINITION. Placing a launch: graph snapshots, argument hashes, net regions, launch pages, protection entries and grains
(spec/18_queues_and_dispatch.md R369, R373, spec/08 R242-R246, spec/12 R302, spec/20 R387, R396). -/

namespace Sys2Proof.Machine

/-! ### Graphs (R373) -/

/-- A queue's graph replay. -/
def graphOf (s : State) (node q : Nat) : Option Graph := PMap.get? q (s.pkg node).graphs
/-- Replaces a queue's graph replay. -/
def setGraph (s : State) (node q : Nat) (g : Graph) : State :=
  let p := s.pkg node
  s.setPkg node { p with graphs := PMap.set q g p.graphs }
/-- The predecessors of node `j`. -/
def Graph.preds (g : Graph) (j : Nat) : List Nat :=
  ((List.range 8).map fun k => fieldOf g.table (64 + 576 * j + 512 + 8 * k) 8).filter (· != 2 ^ 64 - 1)
/-- How a node ended. -/
def NodeSt.outcome : NodeSt → Option Nat
  | .ended o _ => some o
  | _ => none
/-- A node that may be dispatched: every predecessor completed with outcome 0, or one did not. -/
def Graph.ready (g : Graph) (j : Nat) : Bool :=
  g.nodes.getD j (.ended 0 0) == .waiting
    && ((g.preds j).all (fun k => (g.nodes.getD k .waiting).outcome == some 0)
        || (g.preds j).any fun k => match (g.nodes.getD k .waiting).outcome with
          | some o => o != 0
          | none => false)
/-- Nodes that may be dispatched are due. -/
def dueNodes (s : State) (node : Nat) (q : BitVec 16) : State :=
  match graphOf s node q.toNat with
  | some g => ((List.range g.nodes.length).filter g.ready).foldl (fun s j => s.dueOnce (.graphNodeDispatch node q j)) s
  | none => s
/-- A graph table breaks its layout: a predecessor that is not an earlier node. -/
def graphTableBad (t : List Byte) : Bool :=
  let n := fieldOf t 0 8
  (List.range n).any fun j => (List.range 8).any fun k =>
    let p := fieldOf t (64 + 576 * j + 512 + 8 * k) 8
    decide (j ≤ p) && p != 2 ^ 64 - 1
/-- A fat pointer of a launch that no replica places: a far one's address with what is left of its segment; a home one has none. -/
def farPointer (l : Launch) (p : Word) : Option (Nat × Nat) :=
  let d := l.segs.toList.getD (ptrSeg p) Seg.empty
  if ptrSeg p < 4 then none else some ((d.w0.toNat + ptrOff p) % 2 ^ 64, d.limit - ptrOff p)
/-- The argument bytes that a graph's own record hashes (R396): those at its far `args`; a home pointer names no cluster before a placement,
and no bytes stand for it (notes/assumptions/79.md). -/
def graphArgs (s : State) (h : Nat) (l : Launch) : HeadRead :=
  match farPointer l l.args with
  | some (a, room) => readHead s h a (min 4096 room) (.launchPlace h)
  | none => .value []
/-- The snapshot of a graph table at the start of a replay. A table that breaks its layout is refused with reason 3, as a descriptor that
breaks its own would be: R373 names none. Its own record's h_args and h_result cover what its far pointers reach, and no bytes where a home
segment would place them (DESIGN CHOICE: notes/assumptions/84.md). -/
def snapshot (s : State) (h : Nat) : State :=
  let l := s.launch h
  let again := Event.launchPlace h
  match readHead s h l.code 64 again with
  | .wait s => s
  | .bad _ _ => refuse s h 4
  | .value hd =>
    let n := fieldOf hd 0 8
    if recordBad l.record then refuse s h 2
    else if n = 0 ∨ 1024 < n then refuse s h 3
    else match readHead s h l.code (64 + 576 * n) again with
      | .wait s => s
      | .bad _ _ => refuse s h 4
      | .value t => match graphArgs s h l with
        | .wait s => s
        | .bad _ _ => refuse s h 4
        | .value args =>
        if graphTableBad t then refuse s h 3
        else
          let q := BitVec.ofNat 16 l.queue
          let s := (headTouch s h l.code (64 + 576 * n)).setLaunch h { l with st := .running, hCode := sha384 t, hArgs := if (farPointer l l.args).isSome then sha384 args else [], refused := [] }
          let s := s.setQueue l.node q { s.queueAt l.node q with graph := some l.seqNo }
          let g : Graph := { ctx := l.ctx, seqNo := l.seqNo, area := fieldOf t 8 8, table := t, nodes := List.replicate n .waiting }
          dueNodes (setGraph s l.node l.queue g) l.node q
/-- GRAPH_NODE_DISPATCH (R373): the node's launch is checked next, or it is given outcome 4. -/
def execGraphNodeDispatch (node : Nat) (q : BitVec 16) (j : Nat) (s : State) : Host.Outcome State Fault Refusal :=
  match graphOf s node q.toNat with
  | none => event s
  | some g =>
    if !g.ready j || (s.queueAt node q).graph != some g.seqNo then event s
    else
      let h := s.nextLaunch
      let l := freshLaunch node q.toNat g.seqNo g.ctx ((g.table.drop (64 + 576 * j)).take 512)
      let l := { l with graphNode := some j }
      let s := setGraph { s with nextLaunch := h + 1 } node q.toNat { g with nodes := g.nodes.set j (.running h) }
      if (g.preds j).all fun k => (g.nodes.getD k .waiting).outcome == some 0 then event ((s.setLaunch h l).due [.launchPlace h])
      else event (s.recordReady h { l with outcome := 4 })

/-! ### What a launch writes before its grains start (R244, R302, R387) -/

/-- Writes bytes at a cluster's own windows; lines wholly written are no longer poisoned. -/
def writeLocal (s : State) (addr : Nat) (bs : List Byte) : State :=
  let whole := wholeLines ((List.range bs.length).map fun i => addr + i)
  { s with mem := s.mem.writeBytes addr bs, poison := s.poison.filter fun l => !whole.contains l }
/-- The launch page on a core, with its partition's base and size in bytes; the flags are the descriptor's (R244, R366). -/
def launchPage (l : Launch) (base size : Nat) : List Byte :=
  leBytes 2 1
    ++ leBytes 2 ((if l.det then 1 else 0) + (if l.net then 2 else 0) + 4 * l.reps.count + (if l.apart then 16 else 0) + 32 * l.pageCls.toNat)
    ++ leBytes 4 (l.fields - 1) ++ [l.ears, l.grains, l.stages, l.perCore, l.shapes.length, l.agents, 0, 0].map (BitVec.ofNat 8)
    ++ leBytes 8 l.seqNo ++ leBytes 8 l.entry.toNat ++ leBytes 8 l.args.toNat ++ leBytes 8 l.result.toNat ++ leBytes 8 l.total
    ++ leBytes 4 l.ruleTable ++ leBytes 2 (base / 256) ++ leBytes 2 (size / 256)
    ++ l.segs.toList.flatMap Seg.bytes ++ l.shapes.flatten ++ List.replicate (192 * (4 - l.shapes.length)) 0#8
/-- Writes the launch page of a core. -/
def writePage (h : Nat) (s : State) (k : Nat) : State :=
  let size := scratchSize (s.core k).l1Split / 4
  let base := pageAddr s h k % 0x20000
  writeLocal s (coreCluster k * 2 ^ 38 + coreIndex k * 0x20000 + base) (launchPage (s.launch h) base size)

/-- The core entries of a launch (R387; notes/assumptions/12.md): its partition, its home segments beyond the core arrays, its far
segments. -/
def coreProts (s : State) (k h : Nat) : List Prot :=
  let l := s.launch h
  let g := coreCluster k * 2 ^ 38
  [protOf l.ctx (g + pageAddr s h k) (scratchSize (s.core k).l1Split / 4) 3#3]
    ++ (match homeHull l 0x400000 with
        | some r => [protOf l.ctx (g + r.1) (r.2 - r.1) 3#3]
        | none => [])
    ++ ((farSegs l).take 2).map fun f => protOf l.ctx f.1 f.2.1 f.2.2
/-- A table of sixteen entries from a list. -/
def protTable (ps : List Prot) : Vector Prot 16 := Vector.ofFn fun i => ps.getD i.val Prot.off
/-- A core's table while it holds a grain of a protected context. -/
def protectCore (s : State) (k : Nat) : State :=
  let c := s.core k
  let hs := c.partitions.map Prod.fst
  let on := hs.any fun h => ctxProtected s (s.launch h).node (s.launch h).ctx
  s.setCore k { c with prot := protTable (if on then hs.flatMap (coreProts s k) else []) }
/-- A port's table while a launch of a protected context has segments there. -/
def protectPort (s : State) (gid : Nat) : State :=
  s.setCluster gid { s.cluster gid with prot := protTable (portNeeds s gid) }
/-- The tables a launch bears on, when it or a launch beside it is protected. -/
def protectLaunch (s : State) (h : Nat) : State :=
  let l := s.launch h
  let beside := l.cores.any fun k => ((s.core k).partitions.map Prod.fst).any fun x => ctxProtected s (s.launch x).node (s.launch x).ctx
  if ctxProtected s l.node l.ctx || beside then
    ((l.allot ++ farOwners l).dedup).foldl protectPort (l.cores.foldl protectCore s)
  else s

/-- Writes the freed word to nodes of an arena; a page that is refused stops it. -/
def freeNodes (l : Launch) : List Nat → State → Except NoPlace State
  | [], s => .ok s
  | a :: rest, s =>
    match l.refused.find? fun p => a / 4096 == p with
    | some p => .error (.refused (p * 4096 / 2 ^ 38) (p * 4096 % 2 ^ 38))
    | none => match ownerWrite s l.ctx a (leBytes 8 freedWord.toNat) with
      | .error p => .error p
      | .ok s => freeNodes l rest s
/-- Prepares one cluster of a net launch: the rule table, the free list, empty bags and counts (R302). -/
def prepareCluster (h : Nat) (rules : List Byte) (s : State) (gid : Nat) : State :=
  let l := s.launch h
  let s := writeLocal s (gid * 2 ^ 38 + l.ruleTable) rules
  s.onNet gid h fun _ => { NetCl.empty with free := List.range l.nodeCount }

/-! ### Launch place (R242, R369) -/

/-- Places the grains of a launch on a core: free slots in order, then the run queue (R242). -/
def placeGrains (h : Nat) (s : State) (k : Nat) : State :=
  let l := s.launch h
  let r := l.replicaOf k
  let c := s.core k
  let ranks := l.ranksOn r k
  let free := (List.finRange 16).filter fun i => c.slots[i].st == .empty
  let s := (ranks.zip free).foldl (fun s p =>
    let loc : Loc := ⟨k, p.2⟩
    placeAt s loc { startGrain s h r p.1 with home := packed loc }) s
  let rest := (ranks.drop free.length).map fun n => ({ kind := .unstarted n, cls := l.cls, launch := h } : RunEntry)
  startShapes (engineNext (joinQueue s k rest) k) k h
/-- On an arrival the generations of all source-table entries advance: R147 and R271 say so of a migration; DEDUCED: of a grain that SPAWN
creates too, since what its creator did happens before its first action, and the end of a launch before the start of the next
(R283; notes/assumptions/77.md). -/
def advanceAll (s : State) (k : Nat) : State := s.setCore k ((List.finRange 16).foldl advanceGen (s.core k))
/-- Starts a launch: pages, protection, grains. -/
def startLaunch (s : State) (h : Nat) : State :=
  let l := s.launch h
  let s := l.cores.foldl advanceAll (l.cores.foldl (writePage h) s)
  let s := protectLaunch s h
  let s := s.setLaunch h { l with st := .running, live := l.total * l.reps.count }
  l.cores.foldl (placeGrains h) s
/-- Where a fat pointer of a launch lies: a home segment's cluster is the one of strip 0, stage 0 of a replica (R337, R371). -/
def pointerAt (l : Launch) (r : Nat) (p : Word) : Nat × Nat :=
  let d := l.segs.toList.getD (ptrSeg p) Seg.empty
  (if ptrSeg p < 4 then l.allot.getD (r * l.perReplica) 0 * 2 ^ 38 + (d.w0.toNat + ptrOff p) % 2 ^ 38 else (d.w0.toNat + ptrOff p) % 2 ^ 64,
   d.limit - ptrOff p)
/-- A net launch that ends before any grain starts (R302). -/
def endUnstarted (s : State) (h : Nat) (cause : Cause) (info : Nat) : State :=
  let l := s.launch h
  let r : Report := { launch := h, cause, info := BitVec.ofNat 64 info, where_ := s.openField 1, codeOff := s.openField 2,
                      cycle := s.openField 3, rank := 0#64, imprecise := true }
  s.setLaunch h { l with outcome := 1, report := some r }
/-- What placing comes to: a started launch, a wait, or a launch that ends first. -/
inductive Placing where
  | started (s : State)
  | wait (s : State)
  | over (s : State)
/-- A reserved launch: its arguments are hashed, a net is prepared, and its grains start (R302, R396). -/
def placeLaunch (s : State) (h : Nat) : Placing :=
  let l := s.launch h
  let again := Event.launchPlace h
  let (a, room) := pointerAt l 0 l.args
  match readHead s h a (min 4096 room) again with
  | .wait s => .wait s
  | .bad _ _ => .over (s.setLaunch h { l with outcome := 2, status := 4#64 })
  | .value args =>
    let l := { l with hArgs := sha384 args }
    let s := (headTouch s h a (min 4096 room)).setLaunch h l
    if !l.net then .started (startLaunch s h)
    else match readHead s h (l.code + l.rulesOff) 16384 again with
      | .wait s => .wait s
      | .bad _ _ => .over (s.setLaunch h { l with outcome := 2, status := 4#64 })
      | .value rules =>
        match freeNodes l (l.allot.flatMap fun g => (List.range l.nodeCount).map fun i => l.nodeAddr g i + 8) s with
        | .error (.refused g va) => .over (endUnstarted s h .segBounds (g * 2 ^ 38 + va))
        | .error (.unread c) => .over (endUnstarted s h c l.segs[1].w0.toNat)
        | .error p =>
          let g := match p with
            | .miss g _ => g
            | .held g _ => g
            | .fault g _ => g
            | .refused g _ => g
            | .unread _ => 0
          .wait (noPlaceDue s l.ctx p (.net h g) 3 again)
        | .ok s => .started (startLaunch (l.allot.foldl (prepareCluster h rules) s) h)

/-! ### Arrivals (R147, R149, R254) -/

/-- A launch whose grain arrives at a core where it has no partition gets one, with its page (R244, R245); a core holds grains of at most four
launches. -/
def admitLaunch (s : State) (k h : Nat) : Option State :=
  let c := s.core k
  if (PMap.get? h c.partitions).isSome then some s
  else if 4 ≤ c.partitions.length then none
  else
    let s := writePage h (s.setCore k { c with partitions := PMap.set h (freePartition c) c.partitions }) k
    let beside := ((s.core k).partitions.map Prod.fst).any fun x => ctxProtected s (s.launch x).node (s.launch x).ctx
    some (if beside then protectPort (protectCore s k) (coreCluster k) else s)
/-- A core has room for a grain beside those that granted launches will start there: slots and 64 entries of the run queue (R251, R254). -/
def arrivalRoom (s : State) (k : Nat) : Bool :=
  decide (grantedOn s k < ((s.core k).slots.toList.filter fun sl => sl.st == .empty).length + (64 - (s.core k).runQ.length))
/-- A grain arrives at a core that has a partition for its launch. -/
def arriveIn (s : State) (k : Nat) (g : Grain) : Option (State × Option Loc) :=
  if arrivalRoom s k then (admitLaunch s k g.launch).bind fun s => arrive s k g else none
/-- A migrating grain is accepted by its target: it leaves its old slot, and what does not travel is cancelled (R147). -/
def acceptMigration (s : State) (p : Packet) (src : Loc) : Option State :=
  (arriveIn s p.target p.grain).map fun r => vacate (dropWaiter (advanceAll r.1 p.target) src) src
/-- A grain that SPAWN created arrives: g1 is its launch's page there, and one that takes a slot begins (R19, R149, R248). -/
def acceptSpawn (s : State) (p : Packet) : Option State :=
  (admitLaunch s p.target p.grain.launch).bind fun s =>
    (arriveIn s p.target (p.grain.setReg 1 (BitVec.ofNat 64 (pageAddr s p.grain.launch p.target)))).map fun r =>
      let s := advanceAll r.1 p.target
      if r.2.isSome then startShapes s p.target p.grain.launch else s
/-- Removes a packet of a cluster. -/
def dropPacket (s : State) (gid : Nat) (p : Packet) : State :=
  let c := s.cluster gid
  s.setCluster gid { c with packets := c.packets.erase p }
/-- The owner of a grain packet is lost (R147, R150, R416); a grain of a quarantined replica is only stopped (R328). -/
def packetLost (s : State) (gid : Nat) (p : Packet) : State :=
  let s := dropPacket s gid p
  let addr := BitVec.ofNat 64 p.addr
  let l := s.launch p.grain.launch
  if !l.reps.live.contains p.grain.replica then
    if p.source.isNone then s.setLaunch p.grain.launch { l with live := l.live - 1 } else s
  else match p.source with
  | some l => s.raiseAt l .peerLost addr false
  | none =>
    let h := p.grain.launch
    let l := s.launch h
    (s.setLaunch h { l with live := l.live - 1 }).raiseLaunch (clusterNode gid) h .peerLost addr p.sender p.grain.rank (some 1) 0
/-- A target that can take grains: its cluster answers, and the core has not failed. -/
def targetAlive (s : State) (k : Nat) : Bool := s.alive (coreCluster k) && (s.core k).status != .failed
/-- The packet that reaches a core next, with the cluster that sends it: any of those on their way, as no rule orders them (R411). -/
def packetFor (s : State) (core : Nat) (spawned : Bool) : Option (Nat × Packet) :=
  let ps := s.clusters.flatMap fun e => (e.2.packets.filter fun p => p.target == core && (p.source.isNone || !spawned)).map fun p => (e.1, p)
  ps[Config.choice s.tick 0 % ps.length]?
/-- Delivers a packet to its core; a full run queue refuses it. -/
def deliverPacket (s : State) (gid : Nat) (p : Packet) : State :=
  if !targetAlive s p.target then packetLost s gid p
  else match (match p.source with
      | some l => acceptMigration (dropPacket s gid p) p l
      | none => acceptSpawn (dropPacket s gid p) p) with
    | some s => s.allLocs.foldl (State.wakeFrom .release) s
    | none => s.due [.arrivalRetry p.target]
/-- MIGRATION_ARRIVAL (R254): a refused packet is retried. -/
def execMigrationArrival (loc : Loc) (s : State) : Host.Outcome State Fault Refusal :=
  let gid := coreCluster loc.core
  match (s.cluster gid).packets.find? fun p => p.source == some loc with
  | none => event s
  | some p =>
    event (deliverPacket s gid p)
/-- SPAWN_ARRIVAL (R149, R254). -/
def execSpawnArrival (core : Nat) (s : State) : Host.Outcome State Fault Refusal :=
  match packetFor s core true with
  | some (gid, p) => event (deliverPacket s.ticked gid p)
  | none => event s
/-- ARRIVAL_RETRY (R254): the sending cluster sends a refused arrival again. -/
def execArrivalRetry (core : Nat) (s : State) : Host.Outcome State Fault Refusal :=
  match packetFor s core false with
  | some (gid, p) => event (deliverPacket s.ticked gid p)
  | none => event s

end Sys2Proof.Machine
end

