-- ==== Sys2Proof/Machine/EvEnd.lean ====
section
/-! DEFINITION. How a launch ends: fault reports, stops, release of resources, completion records and receipts
(spec/08_grains_and_the_barrel.md R258-R261, spec/18 R371-R373, spec/20 R396-R404, spec/13 R328, R333). -/

namespace Sys2Proof.Machine

/-! ### What a stop discards (R259, R261) -/

/-- The slot an event of a grain belongs to; stores are none of it. -/
def eventLoc (e : Event) : Option Loc :=
  match e with
  | .longLatencyResult l _ | .remoteWatchInsert l _ | .remoteWatchWake l _ _ | .watchPollTimer l _ | .channelWatchdogExpiry l _
  | .bagPushWatchdogExpiry l _ | .excursionAtOwner l _ | .excursionReturn l _ | .requestResendTimeout l _ | .inputStreamFetch l _
  | .outputStreamLineWrite l _ | .sliceExpiry l | .spillComplete l | .macqWatchdogExpiry l | .migrationArrival l | .stealRetryTimer l
  | .sequencerEntryComplete l => some l
  | _ => none
/-- The grain a page waiter stands for; a store is none of it. -/
def waiterLoc (w : PageWaiter) : Option Loc :=
  match w with
  | .grain l _ | .op l _ | .stream l _ | .weight l _ => some l
  | _ => none
/-- Everything that names a slot's grain is forgotten: its events, page waits, watch entries and packet. -/
def forgetLoc (s : State) (l : Loc) : State :=
  let trim := fun (e : FaultEntry) => { e with waiters := e.waiters.filter fun w => waiterLoc w != some l }
  { s with
    agenda := s.agenda.filter fun e => eventLoc e != some l
    clusters := s.clusters.map fun e => (e.1, { e.2 with
      faults := e.2.faults.map trim, faultWait := e.2.faultWait.map trim
      watchTab := e.2.watchTab.filter fun w => w.waiter != l
      packets := e.2.packets.filter fun p => p.source != some l })
    dies := s.dies.map fun e => (e.1, { e.2 with bursar := e.2.bursar.map (fun q => q.filter fun b => b.loc != some l) }) }
/-- A slot's grain is discarded: its tiles and waits go, its operations leave the array, which serves the next one and those that wait for it
(R297), and the slot is empty once its stores are performed. -/
def stopSlot (s : State) (l : Loc) : State :=
  let key := (s.grainAt l).key
  let s := splitGang (freeTiles (forgetLoc s l) l) l
  let c := s.core l.core
  let odd := c.slots[l.slot]
  let drop := fun (x : WSlot) =>
    { x with loads := x.loads.filter (fun y => y.1 != l.slot), reload := x.reload.filter (· != l.slot), failed := x.failed.filter (· != l.slot) }
  let s := s.setCore l.core { c with
    slots := c.slots.set l.slot { Slot.blank with st := .stopping, grain := { Grain.blank with launch := odd.grain.launch, pc := odd.grain.pc } }
    arrayQ := c.arrayQ.filter fun o => o.slot != l.slot
    spilling := if c.spilling == some l.slot then none else c.spilling
    tiles := c.tiles.map fun t => { t with waiters := t.waiters.filter (· != key) }
    wslots := c.wslots.map fun x => if (drop x).loads.isEmpty && (drop x).reload.isEmpty && x.st == .loading then WSlot.empty else drop x
    chans := c.chans.map fun q => { q with receivers := q.receivers.filter (·.1 != key) } }
  let s := (wakeArray s l.core).dueOnce (.mmaStart l.core)
  (List.range 8).foldl (fun s w => nextLoad s l.core (BitVec.ofNat 3 w)) s
/-- Receives of a core's channels whose grain is gone end with it (R164, R259). -/
def dropReceivers (s : State) (k : Nat) : State :=
  let c := s.core k
  s.setCore k { c with chans := c.chans.map fun q => { q with receivers := q.receivers.filter fun w => (keyGrain s k w.1).isSome } }
/-- Commands of a launch at an engine are discarded; a pull that served other launches' commands goes on for them, and of those that had joined
one not yet started the first takes its place (R168, R259). -/
def stopEngine (s : State) (gid h : Nat) : State :=
  let c := s.cluster gid
  let gone := (c.cmds.filter fun x => x.launch == h && x.st != .done).map (·.id)
  let heir := fun (id : Nat) => (c.cmds.find? fun y => y.launch != h && y.merged == some id).map (·.id)
  let fix := fun (x : Cmd) => match x.merged with
    | some id => if gone.contains id && x.st == .queued then
        (if heir id == some x.id then { x with merged := none } else { x with merged := heir id }) else x
    | none => x
  let s := s.setCluster gid { c with cmds := (c.cmds.filter fun x => !(x.launch == h && x.st != .done)).map fix }
  let s := gone.foldl (fun s id => s.dueOnce (.copyCommandComplete gid id)) s
  wakeWaiting (s.dueOnce (.copyCommandStart gid)) .engineLine
/-- The slots of a core that hold a grain of a launch. -/
def launchSlots (s : State) (k h : Nat) : List Loc :=
  (coreLocs k).filter fun l => (s.slotAt l).occupied && (s.grainAt l).launch == h
/-- The stop reaches a core (R259 steps 3 to 5): nothing of the launch issues there again. -/
def stopCore (s : State) (h k : Nat) : State :=
  let s := (launchSlots s k h).foldl stopSlot s
  let gid := coreCluster k
  let c := s.core k
  let s := match c.filling with
    | some (i, e) => if e.launch == h then
        freeTiles (s.setCore k { c with filling := none, slots := c.slots.set i Slot.blank }) ⟨k, i⟩ else s
    | none => s
  let c := s.core k
  let s := s.setCore k { c with
    runQ := c.runQ.filter fun e => e.launch != h
    shape := c.shape.map fun o => o.bind fun e => if e.launch == h then none else some e
    chans := c.chans.map fun q => { q with
      flits := q.flits.filter (·.launch != h), waiting := q.waiting.filter (·.1.launch != h), inFlight := q.inFlight.filter (·.1.launch != h) } }
  let x := s.cluster gid
  let others := ((List.range 16).map (gid * 32 + ·)).filter (· != k)
  let mine := fun (e : Nat × Slate) => e.2.grain.launch == h && e.2.weights.isEmpty
    && !others.any fun j => (s.core j).entries.any fun r => r.kind == .spilled e.1
  let s := s.setCluster gid { x with slates := x.slates.filter fun e => !mine e }
  let s := { s with clusters := s.clusters.map fun e =>
    (e.1, { e.2 with packets := e.2.packets.filter fun p => !(p.grain.launch == h && p.target == k && p.source.isNone) }) }
  stopEngine (dropReceivers s k) gid h
/-- Stores of a launch that a core's buffer still holds. -/
def launchStores (s : State) (k h : Nat) : List BufStore := (s.core k).buffer.filter fun b => b.launch == h
/-- The slots of a stopped launch are free. -/
def freeStopped (s : State) (k h : Nat) : State :=
  let c := s.core k
  engineNext (s.setCore k { c with slots := c.slots.map fun sl => if sl.st == .stopping && sl.grain.launch == h then Slot.blank else sl }) k
/-- A core holds work of a launch. -/
def holdsWork (s : State) (h k : Nat) : Bool :=
  holdsLaunch s k h || !(launchStores s k h).isEmpty || (s.core k).slots.toList.any fun sl => sl.st == .stopping && sl.grain.launch == h
/-- Cores that hold work of a launch and answer. -/
def workCores (s : State) (h : Nat) : List Nat :=
  (s.cores.map Prod.fst).filter fun k => (s.core k).status != .failed && s.alive (coreCluster k) && holdsWork s h k

/-! ### The end of a launch (R258-R261) -/

/-- What a launch leaves in a cluster when it ends; the counts of a net stay (R359). -/
def clearCluster (h : Nat) (c : Cluster) : Cluster :=
  { c with
    watchTab := c.watchTab.filter (·.launch != h), updates := c.updates.filter fun u => u.req.launch != h
    heldUpdates := c.heldUpdates.filter fun u => u.req.launch != h, farFrees := c.farFrees.filter (·.launch != h)
    nets := c.nets.map (fun e => if e.1 == h then (h, { NetCl.empty with created := e.2.created, done := e.2.done }) else e), detector := c.detector.filter (·.launch != h)
    extOps := c.extOps.filter (·.launch != h), slates := c.slates.filter fun e => !(e.2.grain.launch == h && e.2.weights.isEmpty)
    packets := c.packets.filter fun p => p.grain.launch != h, cmds := c.cmds.filter fun x => !(x.launch == h && x.st != .done) }
/-- What a launch leaves on a core when it ends: its partition, flits and shape records. -/
def clearCore (h : Nat) (c : Core) : Core :=
  { c with
    partitions := PMap.erase h c.partitions, runQ := c.runQ.filter fun e => e.launch != h
    shape := c.shape.map fun o => o.bind fun e => if e.launch == h then none else some e
    chans := c.chans.map fun q => { q with
      flits := q.flits.filter (·.launch != h), waiting := q.waiting.filter (·.1.launch != h), inFlight := q.inFlight.filter (·.1.launch != h) } }
/-- A launch has ended: its resources are released and its completion is due (R261, R371). -/
def endLaunch (s : State) (h : Nat) : State :=
  let l := s.launch h
  let held := (s.cores.filter fun e => (PMap.get? h e.2.partitions).isSome).map Prod.fst
  let s : State := { s with clusters := s.clusters.map (fun e => (e.1, clearCluster h e.2)), cores := s.cores.map (fun e => (e.1, clearCore h e.2)) }
  let s := held.foldl dropReceivers s
  let s := s.recordReady h { l with stops := [], barriers := [], refused := [] }
  let s := if ctxProtected s l.node l.ctx then ((l.allot ++ farOwners l).dedup).foldl protectPort (held.foldl protectCore s) else s
  dueRounds s l.node
/-- Sends the stop to every core that holds work of a launch; with none the launch has ended (R259). -/
def sendStops (s : State) (h : Nat) : State :=
  let l := s.launch h
  match workCores s h with
  | [] => endLaunch s h
  | ks => (s.setLaunch h { l with st := .stopping, stops := ks }).due (ks.map fun k => .launchStopAtCore h k)
/-- Begins the end of a running launch: queued updates and spawns are dropped whole (R259 step 6). -/
def stopLaunch (s : State) (h : Nat) : State :=
  let drop := fun (c : Cluster) => { c with
    updates := c.updates.filter fun u => u.req.launch != h, heldUpdates := c.heldUpdates.filter fun u => u.req.launch != h
    farFrees := c.farFrees.filter (·.launch != h)
    packets := c.packets.filter fun p => !(p.grain.launch == h && p.source.isNone) }
  let s : State := { s with clusters := s.clusters.map (fun e => (e.1, drop e.2)) }
  let s := (s.clusters.filter fun e => !(e.2.updates.isEmpty && e.2.heldUpdates.isEmpty)).foldl (fun s e => s.dueOnce (.remoteUpdateApply e.1)) s
  let gids := (s.launch h).clusters ++ s.clusters.filterMap fun e => if e.2.cmds.any fun x => x.launch == h then some e.1 else none
  sendStops (gids.dedup.foldl (fun s g => stopEngine s g h) s) h
/-- A quarantined replica's grains on a core, and those on their way to be created there (R328). -/
def replicaGrains (s : State) (h k : Nat) : Nat :=
  (launchSlots s k h).length + ((s.core k).entries.filter fun e => e.launch == h).length
    + (s.clusters.flatMap fun e => e.2.packets.filter fun p => p.grain.launch == h && p.target == k && p.source.isNone).length
/-- LAUNCH_STOP_AT_CORE (R259): the core stops the launch, performs the stores it holds, and confirms. -/
def execLaunchStopAtCore (launch : Nat) (core : Nat) (s : State) : Host.Outcome State Fault Refusal :=
  let l := s.launch launch
  let out := decide (2 ≤ l.reps.count) && l.st == .running && !l.reps.live.contains (l.replicaOf core)
  let ending := l.st == .stopping && l.stops.contains core
  if !out && !ending then event s
  else
    let n := replicaGrains s launch core
    let s := stopCore s launch core
    let s := if out then let l := s.launch launch; s.setLaunch launch { l with live := l.live - n } else s
    let bs := launchStores s core launch
    if !bs.isEmpty then
      let s := bs.foldl (fun s b => if b.faulted then s else s.dueOnce (.storePerformed ⟨core, b.slot⟩)) s
      event (s.dueOnce (.launchStopAtCore launch core))
    else
      let s := freeStopped s core launch
      if out then event (checkDone s launch)
      else
        let l := s.launch launch
        let left := l.stops.filter (· != core)
        let s := s.setLaunch launch { l with stops := left }
        event (if left.isEmpty then sendStops s launch else s)
/-- A launch ends by a cause that is no grain's own, or by the host (R259, R372); a record still being read counts as read. -/
def endBy (s : State) (h outcome : Nat) : State :=
  let l := s.launch h
  match l.st with
  | .fetching | .reading | .waiting =>
    let q := BitVec.ofNat 16 l.queue
    let x := s.queueAt l.node q
    let s := if l.st == .fetching then s.setQueue l.node q { x with head := x.head + 1#64 } else s
    s.recordReady h { l with outcome }
  | .granted => endLaunch (s.setLaunch h { l with outcome }) h
  | .running => stopLaunch (s.setLaunch h { l with outcome }) h
  | _ => s

/-! ### Sealed dumps (R382, R404) -/

/-- The first 24 bytes of a dump's entries that follow the sequence number: launch, queue, cause, kind, index (R417). -/
def dumpHead (l : Launch) (cause kind i : Nat) : List Byte :=
  leBytes 8 l.seqNo ++ leBytes 2 l.queue ++ leBytes 1 cause ++ leBytes 1 kind ++ leBytes 4 i
/-- The global address a fault concerns, when its TRAP_INFO names one: a pointer's segment and offset, or an address (R237). -/
def faultAddr (g : Grain) (l : Loc) (r : Report) : Nat :=
  match r.cause with
  | .segBounds | .segRights | .farStore | .misaligned | .protection =>
    let base := (g.seg (ptrSeg r.info)).w0.toNat + ptrOff r.info
    if ptrSeg r.info < 4 then coreCluster l.core * 2 ^ 38 + base % 2 ^ 38 else base % 2 ^ 64
  | .peerLost | .uncorrectable => r.info.toNat
  | _ => 0
/-- The faulting grain of a protected context is sealed into the error queue (R404). -/
def sealedDump (s : State) (r : Report) : State :=
  let l := s.launch r.launch
  let x := s.ctxOf l.node l.ctx
  let loc := unpackLoc r.where_
  let sl := s.slotAt loc
  if !ctxProtected s l.node l.ctx || !sl.occupied || sl.grain.launch != r.launch || sl.grain.rank != r.rank then s
  else match x.dataKey with
    | none => s
    | some key =>
      let text := patchBytes (slateOfSlot s loc) 960 (leBytes 8 r.info.toNat ++ leBytes 8 (faultAddr sl.grain loc r))
      let image := sealBytes key (sealNonce l.ctx x.counter) (leBytes 8 l.seqNo) text
      let body := image.drop 12
      let n := if x.errLog2.toNat % 16 < 7 then 0 else (body.length + 31) / 32
      let s := s.setCtx l.node l.ctx { x with counter := x.counter + 1 }
      let s := s.errEntry l.node l.ctx
        (dumpHead l r.cause.code 6 0 ++ image.take 12 ++ leBytes 4 text.length ++ leBytes 4 n ++ List.replicate 20 0#8)
      (List.range n).foldl (fun s j =>
        let part := (body.drop (32 * j)).take 32
        s.errEntry l.node l.ctx (dumpHead l r.cause.code 7 j ++ part ++ List.replicate (40 - part.length) 0#8)) s

/-! ### Fault reports (R259, R260) -/

/-- Of the faults of one launch that were raised in the same clk the one of the lowest rank comes first (R260). -/
def firstReport (rs : List Report) (r : Report) : Report :=
  (rs.filter fun x => x.launch == r.launch && x.cycle == r.cycle).foldl (fun b x => if x.rank.toNat < b.rank.toNat then x else b) r
/-- FAULT_REPORT (R259, R260): one of the faults on their way reaches the head complex. The first one ends its launch; the others are
counted. -/
def execFaultReport (node : Nat) (s : State) : Host.Outcome State Fault Refusal :=
  let p := s.pkg node
  match (p.reports[Config.choice s.tick 0 % p.reports.length]?).map (firstReport p.reports) with
  | none => event s
  | some r =>
    let s := (s.setPkg node { p with reports := p.reports.erase r }).ticked
    let s := sealedDump s r
    let l := s.launch r.launch
    if l.st == .running then
      let status := if r.cause = .trapInstr then r.info &&& 0xFFFFFFFF#64 else 0#64
      event (stopLaunch (s.setLaunch r.launch { l with outcome := 1, status, report := some r }) r.launch)
    else if l.st == .stopping || l.st == .ended then event (s.setLaunch r.launch { l with more := min 127 (l.more + 1) })
    else event s
/-- LAUNCH_COMPLETE (R258). -/
def execLaunchComplete (launch : Nat) (s : State) : Host.Outcome State Fault Refusal :=
  let l := s.launch launch
  if l.st == .running && l.live == 0 && !l.cores.isEmpty && (!l.net || l.finished)
      && (checkDone { s with agenda := [] } launch).agenda.contains (.launchComplete launch) then event (endLaunch s launch)
  else event s
/-- LAUNCH_PLACE (R369): a launch whose record was read is checked, a graph's table is copied, a reserved launch starts. -/
def execLaunchPlace (launch : Nat) (s : State) : Host.Outcome State Fault Refusal :=
  let l := s.launch launch
  match l.st with
  | .reading =>
    event (if l.graphNode.isNone && fieldOf l.record 2 2 / 16 % 2 == 1 then snapshot s launch else checkLaunch s launch)
  | .granted => match placeLaunch s launch with
    | .started s => event s
    | .wait s => event s
    | .over s => event (endLaunch s launch)
  | _ => event s

/-! ### Completion (R371, R396-R399) -/

/-- A granule of the result: its bytes, or why it cannot be read. -/
def granuleOf (s : State) (h addr n : Nat) (again : Event) : HeadRead := readHead s h addr n again
/-- The granules that a range of bytes falls into, with the part of each. -/
def granulesOf (addr n : Nat) : List (Nat × Nat) :=
  (List.range ((addr % 32 + n + 31) / 32)).map fun i =>
    let lo := if i = 0 then addr else (addr / 32 + i) * 32
    (lo, min (addr + n) ((addr / 32 + i + 1) * 32) - lo)
/-- Reads the result granule by granule: its bytes with zeros for those refused, and the first one that failed. -/
def readResult (s : State) (h : Nat) (again : Event) :
    List (Nat × Nat) → List Byte → Option (Cause × Nat) → Except State (List Byte × Option (Cause × Nat))
  | [], bs, bad => .ok (bs, bad)
  | (a, n) :: rest, bs, bad =>
    match granuleOf s h a n again with
    | .value x => readResult s h again rest (bs ++ x) bad
    | .bad c g => readResult s h again rest (bs ++ List.replicate n 0#8) (bad.orElse fun _ => some (c, g / 32 * 32))
    | .wait s => .error s
/-- The vote summary (R333). -/
def voteSummary (l : Launch) : List Byte :=
  let r := l.reps
  if r.count ≤ 1 then List.replicate 32 0#8
  else
    leBytes 1 r.count ++ leBytes 1 r.live.length
      ++ leBytes 1 (match r.quarantined with | some q => q % 4 + 4 + (if r.byLoss then 8 else 0) | none => 0)
      ++ leBytes 1 r.primary ++ leBytes 4 0 ++ leBytes 8 (r.points.getD r.primary 0) ++ leBytes 4 r.decidedBy ++ leBytes 4 0
      ++ leBytes 8 r.decidedAt
/-- Cause and trap information of a launch's end. -/
def Launch.causeCode (l : Launch) : Nat := match l.report with
  | some r => r.cause.code
  | .none => l.graphCause
/-- The context's next chain value (R396). -/
def chainNext (c : List Byte) (l : Launch) (hc ha hr : List Byte) : List Byte :=
  sha384 (c ++ leBytes 8 (l.queue * 2 ^ 48 + l.seqNo % 2 ^ 48) ++ hc ++ ha ++ hr ++ leBytes 4 l.status.toNat ++ leBytes 1 l.outcome
    ++ leBytes 1 l.causeCode)
/-- Receipt bytes 0 to 159 (R398). -/
def receiptBody (l : Launch) (identity hc ha hr chain : List Byte) : List Byte :=
  leBytes 2 1 ++ leBytes 2 l.ctx.toNat ++ leBytes 2 l.queue ++ leBytes 1 l.outcome ++ leBytes 1 l.causeCode ++ leBytes 8 l.seqNo
    ++ leBytes 4 l.status.toNat ++ voteSummary l ++ l.nonce ++ identity.take 8 ++ hc.take 12 ++ ha.take 12 ++ hr.take 12 ++ chain.take 32
/-- The ECDSA signature of a message under the alias key, as big-endian numbers (R399; notes/assumptions/28.md). -/
def aliasSign (p : Pkg) (msg : List Byte) : BitVec 768 := ecdsa (privateKey (p.aliasKey.getD 0#768)) msg
/-- A receipt (R398, R399). -/
def receipt (p : Pkg) (l : Launch) (hc ha hr chain : List Byte) : List Byte :=
  let b := receiptBody l p.identity hc ha hr chain
  b ++ beBytes 96 (aliasSign p (b ++ p.identity ++ hc ++ ha ++ hr ++ chain)).toNat
/-- The first 256 bytes of a completion record (R371). -/
def completionHead (s : State) (l : Launch) : List Byte :=
  let r := l.report.getD { launch := 0, cause := .brk, info := 0#64, where_ := 0, codeOff := 0, cycle := 0, rank := 0#64, imprecise := true }
  let info := if ctxProtected s l.node l.ctx then reduceInfo r.cause r.info else r.info
  leBytes 8 l.seqNo ++ leBytes 4 l.status.toNat ++ leBytes 1 l.causeCode ++ leBytes 1 l.outcome ++ leBytes 1 l.reduceFlags.toNat
    ++ leBytes 1 (l.more + (if l.voted then 128 else 0)) ++ leBytes 8 r.where_ ++ leBytes 8 info.toNat ++ leBytes 8 r.codeOff
    ++ leBytes 8 l.pairsDone.toNat ++ leBytes 8 (l.allot.getD (l.reps.primary * l.perReplica) 0 * 2 ^ 38) ++ leBytes 8 r.cycle
    ++ List.replicate 192 0#8
/-- The result buffer of a launch can be found: it was placed, or the buffer lies in a far segment (R371, R396). -/
def resultReadable (l : Launch) : Bool := !l.allot.isEmpty || (farPointer l l.result).isSome
/-- Records of a context are taken in the order in which they became ready (R397). -/
def recordFirst (s : State) (l : Launch) : Bool :=
  s.launches.all fun e => !(e.2.st == .ended && e.2.node == l.node && e.2.ctx == l.ctx) || decide (l.ready ≤ e.2.ready)
/-- The next record of a context is due once those before it are written. -/
def nextRecord (s : State) (node : Nat) (ctx : BitVec 12) : State :=
  match s.launches.find? fun e => e.2.st == .ended && e.2.node == node && e.2.ctx == ctx && recordFirst s e.2 with
  | some (h, _) => s.dueOnce (.completionWrite h)
  | none => s
/-- A hash that the spec states no value for, of a launch that was aborted before what it covers was read (notes/assumptions/79.md). -/
def openHash (s : State) (n : Nat) : List Byte := (List.range 48).map fun i => Config.freeByte s.tick (48 * n + i)
/-- The chain advances and the record is written for a launch that has ended (R396, R398); the hashes of a launch that was refused or not
run are those of no bytes. -/
def writeRecord (s : State) (l : Launch) (addr : Nat) (result : List Byte) : State :=
  let blank := l.outcome == 2 || l.outcome == 4
  let hc := if blank then sha384 [] else if l.hCode.isEmpty then openHash s 0 else l.hCode
  let ha := if blank then sha384 [] else if l.hArgs.isEmpty then openHash s 1 else l.hArgs
  let hr := if blank then sha384 [] else if !resultReadable l && l.resultLen != 0 then openHash s 2 else sha384 result
  let x := s.ctxOf l.node l.ctx
  let c := chainNext x.chain l hc ha hr
  let s := s.setCtx l.node l.ctx { x with chain := c }
  s.hostWrite l.node addr (completionHead s l ++ receipt (s.pkg l.node) l hc ha hr c)
/-- The queue's record is in place: done advances, the message is sent, the next record may be read (R371). -/
def queueDone (s : State) (node : Nat) (q : BitVec 16) (seqNo : Nat) : State :=
  let x := s.queueAt node q
  let s := s.setQueue node q { x with done := BitVec.ofNat 64 (seqNo + 1), running := none, graph := none }
  let s := if x.msix.getLsbD 11 then s.msix node (x.msix.toNat % 2048) else s
  queueNext s node q
/-- A destroy or a checkpoint waits for the context's launches (R376, R426): it looks again. -/
def wakeDestroy (s : State) (node : Nat) (ctx : BitVec 12) : State :=
  let s := if (s.ctxOf node ctx).st == .busy then s.dueOnce (.contextDestroy node ctx) else s
  if ckHeld s node ctx then s.dueOnce (.checkpointPullStart node ctx) else s
/-- A graph's own record follows its last node's (R373). -/
def graphDone (s : State) (node : Nat) (q : BitVec 16) (g : Graph) : State :=
  match (s.queueAt node q).running with
  | none => s
  | some h =>
    let l := s.launch h
    let bad := (List.range g.nodes.length).find? fun j => (g.nodes.getD j .waiting).outcome != some 0
    let l := match bad with
      | some j => match g.nodes.getD j .waiting with
        | .ended o c => { l with outcome := o, status := BitVec.ofNat 64 j, graphCause := c }
        | _ => l
      | none => l
    s.recordReady h l
/-- COMPLETION_WRITE (R371): in its turn among the context's records (R397) the result is hashed, the chain advances, the record is written. -/
def execCompletionWrite (launch : Nat) (s : State) : Host.Outcome State Fault Refusal :=
  let l := s.launch launch
  let q := BitVec.ofNat 16 l.queue
  if l.st != .ended || (s.pkg l.node).failed || !recordFirst s l then event s
  else
    let placed := resultReadable l && l.outcome != 2 && l.outcome != 4
    let (a, _) := pointerAt l l.reps.primary l.result
    match readResult s launch (.completionWrite launch) (if placed then granulesOf a l.resultLen else []) [] none with
    | .error s => event s
    | .ok (bs, bad) =>
      let l := match bad with
        | none => l
        | some (c, g) =>
          if l.outcome = 0 then
            { l with outcome := 1, report := some { launch, cause := c, info := BitVec.ofNat 64 g, where_ := s.openField 1, codeOff := s.openField 2,
                                                    cycle := s.openField 3, rank := 0#64, imprecise := true } }
          else { l with more := min 127 (l.more + 1) }
      let l := { l with st := .done }
      let s := (if placed then headTouch s launch a l.resultLen else s).setLaunch launch l
      match l.graphNode, graphOf s l.node l.queue with
      | some j, some g =>
        let s := writeRecord s l (g.area + 512 * j) bs
        let g := { g with nodes := g.nodes.set j (.ended l.outcome l.causeCode) }
        let s := dueNodes (setGraph s l.node l.queue g) l.node q
        let s := if g.nodes.all fun n => n.outcome.isSome then graphDone s l.node q g else s
        event (dueRounds (wakeDestroy (nextRecord s l.node l.ctx) l.node l.ctx) l.node)
      | _, _ =>
        let x := s.queueAt l.node q
        let s := writeRecord s l (x.compBase.toNat + 512 * (l.seqNo % x.size)) bs
        event (dueRounds (wakeDestroy (nextRecord (queueDone s l.node q l.seqNo) l.node l.ctx) l.node l.ctx) l.node)

/-! ### Abort (R372, R373) -/

/-- Ends what a queue runs (R372): a launch, or every node of a graph. -/
def abortQueue (s : State) (node : Nat) (q : BitVec 16) : State :=
  let x := s.queueAt node q
  match x.graph, graphOf s node q.toNat with
  | some _, some g =>
    let s := (List.range g.nodes.length).foldl (fun s j => match g.nodes.getD j .waiting with
      | .running h => endBy s h (match (s.launch h).st with
          | .fetching | .reading | .waiting | .granted => 4
          | _ => 3)
      | .waiting =>
        let h := s.nextLaunch
        let l := { freshLaunch node q.toNat g.seqNo g.ctx ((g.table.drop (64 + 576 * j)).take 512) with
                   graphNode := some j, outcome := 4 }
        let s := setGraph { s with nextLaunch := h + 1 } node q.toNat
          { (graphOf s node q.toNat).getD g with nodes := ((graphOf s node q.toNat).getD g).nodes.set j (.running h) }
        s.recordReady h l
      | .ended .. => s) s
    s
  | _, _ => match x.running with
    | some h => endBy s h 3
    | none => s
/-- QUEUE_ABORT (R372). -/
def execQueueAbort (node : Nat) (q : BitVec 16) (s : State) : Host.Outcome State Fault Refusal :=
  event (if (s.pkg node).up then abortQueue s node q else s)

end Sys2Proof.Machine
end

