-- ==== Sys2Proof/Machine/EvCtx.lean ====
section
/-! DEFINITION. Contexts: their control blocks and commands, page faults, page migration and checkpoints
(spec/19_contexts_translation_preemption.md R374-R381, spec/22 R424-R429, spec/07 R231). -/

namespace Sys2Proof.Machine

/-! ### Commands (R375, R376) -/

/-- A context's command has completed: its reason, its state, and the message when it is enabled. -/
def commandDone (s : State) (node : Nat) (ctx : BitVec 12) (cmd : BitVec 3) (st : CtxSt) (reason : Nat) : State :=
  let x := s.ctxOf node ctx
  let s := s.setCtx node ctx { x with st, lastCmd := cmd, reason }
  if x.params.getLsbD 9 then s.msix node (x.params.extractLsb' 10 11).toNat else s
/-- A migration of a context is under way or waits for its engine (R380). -/
def Context.moving (x : Context) : Bool := x.st == .busy && x.lastCmd == 4#3
/-- Who writes a context's command: a register write names no requester, so it is free (R401; notes/assumptions/28.md). -/
def requester (s : State) : Nat := Config.choice s.tick (2 ^ 60)
/-- A command is taken at all: not context 0's, not while busy, not on a locked interface (R374, R375, R401). DEDUCED: a destroy is taken while
a migration keeps the context busy, since R381 names it among the causes that abort one (notes/assumptions/87.md). -/
def commandTaken (s : State) (node : Nat) (ctx : BitVec 12) (cmd : BitVec 3) : Bool :=
  let x := s.ctxOf node ctx
  ctx != 0#12 && (x.st != .busy || (cmd == 2#3 && x.moving)) && !(x.tdisp == .locked && requester s != x.tdispOwner) && !(s.pkg node).recovery && !(s.pkg node).failed
/-- A command with its effect; before the end of boot it completes with reason 8 (R432). -/
def onCommand (s : State) (node : Nat) (ctx : BitVec 12) (cmd : BitVec 3) (f : State → State) : State :=
  if !commandTaken s node ctx cmd then s
  else if (s.pkg node).boot != 7 then commandDone s node ctx cmd (s.ctxOf node ctx).st 8
  else f s
/-- Every field of a control block is in range. -/
def Context.inRange (x : Context) : Bool :=
  x.dirBase.toNat % 4096 == 0 && x.params.extractLsb' 0 8 != 0#8 && x.params.extractLsb' 21 43 == 0#43 && x.faultRing.toNat % 4096 == 0
    && decide (4 ≤ x.faultLog2.toNat ∧ x.faultLog2.toNat ≤ 12) && x.errRing.toNat % 4096 == 0
    && decide (4 ≤ x.errLog2.toNat ∧ x.errLog2.toNat ≤ 12)
/-- Bytes 0x08 to 0x47 of a control block; the registers that are only written read as zero there. -/
def Context.blockBytes (x : Context) : List Byte :=
  leBytes 8 x.dirBase.toNat ++ leBytes 8 x.params.toNat ++ leBytes 8 x.faultRing.toNat ++ leBytes 8 x.faultLog2.toNat ++ leBytes 16 0
    ++ leBytes 8 x.errRing.toNat ++ leBytes 8 x.errLog2.toNat
/-- Create (R376). -/
def createCtx (node : Nat) (ctx : BitVec 12) (s : State) : State :=
  let x := s.ctxOf node ctx
  if x.st != .free && x.st != .error then s
  else if x.inRange then
    let x := { x with chain := sha384 x.blockBytes, deficits := [0, 0, 0, 0], faultHead := 0#64, faultTail := 0#64, waitingRecs := [], errSeq := 0 }
    commandDone (s.setCtx node ctx x) node ctx 1#3 .live 0
  else commandDone s node ctx 1#3 .error 1
/-- CONTEXT_CREATE (R376). -/
def execContextCreate (node : Nat) (ctx : BitVec 12) (s : State) : Host.Outcome State Fault Refusal :=
  event (onCommand s node ctx 1#3 (createCtx node ctx))

/-- Queues bound to a context. -/
def boundQueues (s : State) (node : Nat) (ctx : BitVec 12) : List (BitVec 16) :=
  ((s.pkg node).queues.filter fun e => e.2.bound && e.2.ctx == ctx).map fun e => BitVec.ofNat 16 e.1
/-- A context still has launches that have not completed. -/
def ctxBusy (s : State) (node : Nat) (ctx : BitVec 12) : Bool := s.launches.any fun e => e.2.node == node && e.2.ctx == ctx && e.2.st != .done
/-- What a cluster of a package holds for a context that is destroyed: TLB entries and slates (R376). -/
def dropCtxCluster (ctx : BitVec 12) (c : Cluster) : Cluster :=
  { c with
    tlb := c.tlb.filter (·.ctx != ctx), slates := c.slates.filter fun e => e.2.grain.ctx != ctx || !e.2.weights.isEmpty
    faults := c.faults.filter (·.ctx != ctx), faultWait := c.faultWait.filter (·.ctx != ctx) }
/-- No fill of a package waits for a context that is destroyed (R431). -/
def dropCtxFills (s : State) (node : Nat) (ctx : BitVec 12) : State :=
  let p := s.pkg node
  s.setPkg node { p with fills := p.fills.filterMap fun f =>
    if f.running && f.ctxs == [ctx] then none else some { f with ctxs := f.ctxs.filter (· != ctx) } }
/-- A destroyed context is free (R376). -/
def freeCtx (s : State) (node : Nat) (ctx : BitVec 12) : State :=
  let s : State := { s with
    clusters := s.clusters.map (fun e => if clusterNode e.1 = node then (e.1, dropCtxCluster ctx e.2) else e)
    cores := s.cores.map (fun e => if clusterNode (coreCluster e.1) = node then (e.1, { e.2 with wsaves := PMap.erase ctx.toNat e.2.wsaves, icache := e.2.icache.filter (·.ctx != ctx) }) else e)
    dies := s.dies.map (fun e => if e.1 / 4 = node then (e.1, { e.2 with tlb := e.2.tlb.filter (·.ctx != ctx) }) else e) }
  let s := dropCtxFills s node ctx
  let x := s.ctxOf node ctx
  let s := commandDone s node ctx 2#3 .free 0
  wakeWalkers (s.setCtx node ctx
    { x with st := .free, lastCmd := 2#3, reason := 0, chain := [], waitingRecs := [], dataKey := none, ckKey := none, migrating := none })
/-- Queues that run a launch of a context; one of them may have been bound to another context meanwhile. -/
def launchQueues (s : State) (node : Nat) (ctx : BitVec 12) : List (BitVec 16) :=
  ((s.launches.filter fun e => e.2.node == node && e.2.ctx == ctx && e.2.st != .done).map fun e => BitVec.ofNat 16 e.2.queue).dedup
/-- Contexts of a package that wait for a cluster's engine to migrate a page. -/
def waitingMoves (s : State) (node : Nat) : List (BitVec 12) :=
  ((s.pkg node).ctxs.filter fun e => e.2.moving && e.2.migrating.isNone).map fun e => BitVec.ofNat 12 e.1
/-- No cluster marks a page of a context as migrating any more: held accesses proceed, and the next migration may start (R380, R381). -/
def abortMove (s : State) (node : Nat) (ctx : BitVec 12) : State :=
  let x := s.ctxOf node ctx
  let s := match x.migrating with
    | some gid => s.setCluster gid { s.cluster gid with move := none }
    | none => s
  let s := s.setCtx node ctx { x with migrating := none }
  wakeWalkers ((waitingMoves s node).foldl (fun s c => if c = ctx then s else s.dueOnce (.contextMigrate node c)) s)
/-- Destroy (R376): every launch of the context ends, and its queues are disabled; then it is free. -/
def destroyCtx (node : Nat) (ctx : BitVec 12) (s : State) : State :=
  let x := s.ctxOf node ctx
  if x.st != .live && !x.moving then s
  else
    let s := abortMove s node ctx
    let x := s.ctxOf node ctx
    let s := s.setCtx node ctx { x with st := .busy, lastCmd := 2#3 }
    let s := (boundQueues s node ctx).foldl (fun s q => disableQueue s node q) s
    let s := (launchQueues s node ctx).foldl (fun s q => abortQueue s node q) s
    s.due [.contextDestroy node ctx]
/-- CONTEXT_DESTROY (R376): the command, or its end once the context's launches have completed. -/
def execContextDestroy (node : Nat) (ctx : BitVec 12) (s : State) : Host.Outcome State Fault Refusal :=
  let x := s.ctxOf node ctx
  if x.st == .busy && x.lastCmd == 2#3 then event (if ctxBusy s node ctx then s else freeCtx s node ctx)
  else event (onCommand s node ctx 2#3 (destroyCtx node ctx))

/-- The cluster, address and size that op_addr names (R375); none for a reserved size code or an absent cluster. -/
def opTarget (node : Nat) (x : Context) : Option (Nat × Nat × Nat) :=
  let i := (x.opAddr.extractLsb' 38 9).toNat
  let size := match (x.opAddr.extractLsb' 47 3).toNat with
    | 0 => some (2 ^ 12) | 1 => some (2 ^ 16) | 2 => some (2 ^ 21) | 3 => some (2 ^ 26) | 4 => some (2 ^ 29)
    | _ => none
  if i < 384 ∧ x.opAddr.extractLsb' 51 13 = 0#13 then size.map fun n => (clusterOfIndex node i, x.opAddr.toNat % 2 ^ 38, n) else none
/-- Invalidate (R376): the prefect of the named cluster runs INVPG or INVPGR. -/
def invalidateCtx (node : Nat) (ctx : BitVec 12) (s : State) : State :=
  let x := s.ctxOf node ctx
  if x.st != .live then s
  else match opTarget node x with
    | some (gid, va, size) =>
      if va % size == 0 && translated va then
        startInv (s.setCtx node ctx { x with st := .busy, lastCmd := 3#3 }) gid
          { who := .command node ctx, ctx, va, size, reassign := x.opAddr.getLsbD 50, leases := false, since := 0 }
      else commandDone s node ctx 3#3 .live 2
    | none => commandDone s node ctx 3#3 .live 2
/-- CONTEXT_INVALIDATE (R376). -/
def execContextInvalidate (node : Nat) (ctx : BitVec 12) (s : State) : Host.Outcome State Fault Refusal :=
  event (onCommand s node ctx 3#3 (invalidateCtx node ctx))

/-- The end of an INVPG or INVPGR for the one that waits. -/
def invDone (s : State) (gid : Nat) (o : InvOp) : State :=
  let c := s.cluster gid
  let s := s.setCluster gid { c with invWaits := c.invWaits.erase o }
  match o.who with
  | .grain l => (s.setSlot l { s.slotAt l with invDone := true }).wakeFrom .monitorOp l
  | .command node ctx => if (s.ctxOf node ctx).st == .busy then commandDone s node ctx 3#3 .live 0 else s
/-- The invalidation that one waits for. -/
def invOf (s : State) (who : InvWaiter) : Option (Nat × InvOp) :=
  s.clusters.findSome? fun e => (e.2.invWaits.find? fun o => o.who == who).map fun o => (e.1, o)
/-- INVPG_COMPLETION (R231): INVPG completes once nothing goes through the old mapping; INVPGR then waits for queued array operations,
invalidates the weight slots, and waits 65,536 clk for the leases. -/
def execInvpgCompletion (who : InvWaiter) (s : State) : Host.Outcome State Fault Refusal :=
  match invOf s who with
  | none => event s
  | some (gid, o) =>
    let now := (s.core (gid * 32)).cycle
    if !o.reassign then event (invDone s gid o)
    else if !o.leases then
      if invHeld s gid o then event (s.dueOnce (.invpgCompletion who))
      else
        let s := invWeights s gid o
        let c := s.cluster gid
        event ((s.setCluster gid { c with
          invWaits := c.invWaits.map fun y => if y == o then { y with leases := true, since := now } else y }).dueOnce (.invpgCompletion who))
    else if now < o.since + 65536 then event (s.dueOnce (.invpgCompletion who))
    else event (invDone s gid o)

/-! ### Page migration (R380, R381) -/

/-- The page's bits in a leaf's address. -/
def log2Size (n : Nat) : Nat := Nat.log2 n
/-- A migration is over: status returns to live, held accesses proceed. -/
def endMove (s : State) (node : Nat) (ctx : BitVec 12) (reason : Nat) : State :=
  commandDone (abortMove s node ctx) node ctx 4#3 .live reason
/-- Starts a migration at the owning cluster (R380 step 1). -/
def startMove (node : Nat) (ctx : BitVec 12) (s : State) : State :=
  let x := s.ctxOf node ctx
  match opTarget node x with
  | none => commandDone s node ctx 4#3 .live 3
  | some (gid, va, size) =>
    let new := x.opArg.toNat
    if 2 ^ 21 < size then commandDone s node ctx 4#3 .live 3
    else if new % 2 = 0 || !leafOk new (log2Size size) || va % size != 0 || !translated va then commandDone s node ctx 4#3 .live 4
    else match walk s ctx gid va with
      | .error 2 => commandDone s node ctx 4#3 .live 7
      | .error 3 => commandDone s node ctx 4#3 .live 6
      | .error _ => commandDone s node ctx 4#3 .live 4
      | .ok (e, key) =>
        if e.size != size then commandDone s node ctx 4#3 .live 4
        else if !s.alive gid then commandDone s node ctx 4#3 .live 7
        else if (s.cluster gid).move.isSome then s.setCtx node ctx { x with st := .busy, lastCmd := 4#3, migrating := none }
        else
          let c := s.cluster gid
          let s := s.setCluster gid { c with move := some { ctx, va, size, leafKey := key, newLeaf := x.opArg, oldSpace := e.space,
                                                            oldPhys := e.phys, dirty := [], final := false } }
          (s.setCtx node ctx { x with st := .busy, lastCmd := 4#3, migrating := some gid }).due [.migrationFirstPassDone node ctx]
/-- CONTEXT_MIGRATE (R380). -/
def execContextMigrate (node : Nat) (ctx : BitVec 12) (s : State) : Host.Outcome State Fault Refusal :=
  let x := s.ctxOf node ctx
  if x.st == .busy && x.lastCmd == 4#3 && x.migrating.isNone then event (startMove node ctx s)
  else event (onCommand s node ctx 4#3 fun s => if x.st == .live then startMove node ctx s else s)
/-- The migration of a context that is under way. -/
def moveOf (s : State) (node : Nat) (ctx : BitVec 12) : Option (Nat × PageMove) :=
  match (s.ctxOf node ctx).migrating with
  | some gid => ((s.cluster gid).move.bind fun m => if m.ctx == ctx then some m else none).map fun m => (gid, m)
  | none => none
/-- Places of a sub-page of 4 KiB at the old and the new page. -/
def subPlaces (gid : Nat) (m : PageMove) (i : Nat) : List (Nat × Nat) :=
  let e := m.newLeaf.toNat
  (List.range 4096).map fun j =>
    (spaceKey m.oldSpace gid (m.oldPhys + 4096 * i + j), spaceKey ((spaceOf e).getD .hbm) gid (entryPhys e + 4096 * i + j))
/-- A sub-page holds a poisoned granule. -/
def subPoisoned (s : State) (gid : Nat) (m : PageMove) (i : Nat) : Bool := (subPlaces gid m i).any fun p => s.poison.contains (p.1 / 32)
/-- Copies a sub-page to the new page; granules written whole are no longer poisoned (R268). -/
def copySub (gid : Nat) (m : PageMove) (s : State) (i : Nat) : State :=
  let ps := subPlaces gid m i
  let s := writePlaces s gid (ps.map fun p => (p.2, ownerByte s gid p.1))
  let whole := wholeLines (ps.map (·.2))
  { s with poison := s.poison.filter fun l => !whole.contains l }
/-- The pull can write a sub-page of the new page: in HBM always, elsewhere when the memory there answers (R381;
notes/assumptions/81.md). -/
def subAnswers (s : State) (gid : Nat) (m : PageMove) (i : Nat) : Bool :=
  (spaceOf m.newLeaf.toNat).getD .hbm == .hbm || ((subPlaces gid m i).head?.map fun p => Config.busAnswers s.tick p.2).getD true
/-- MIGRATION_FIRST_PASS_DONE (R380, R381). -/
def execMigrationFirstPassDone (node : Nat) (ctx : BitVec 12) (s : State) : Host.Outcome State Fault Refusal :=
  match moveOf s node ctx with
  | none => event s
  | some (gid, m) =>
    let subs := List.range (m.size / 4096)
    if m.final then event s
    else if !s.alive gid then event (endMove s node ctx 7)
    else if !subs.all (subAnswers s gid m) then event (endMove s.ticked node ctx 5)
    else if subs.any (subPoisoned s gid m) then event (endMove s node ctx 6)
    else
      let s := subs.foldl (copySub gid m) s
      let c := s.cluster gid
      event ((s.setCluster gid { c with move := some { m with final := true } }).due [.migrationFinalPassDone node ctx])
/-- MIGRATION_FINAL_PASS_DONE (R380): dirty sub-pages are copied again, the leaf is written, the page is invalidated. -/
def execMigrationFinalPassDone (node : Nat) (ctx : BitVec 12) (s : State) : Host.Outcome State Fault Refusal :=
  match moveOf s node ctx with
  | none => event s
  | some (gid, m) =>
    if !m.final then event s
    else if !s.alive gid then event (endMove s node ctx 7)
    else if !m.dirty.all (subAnswers s gid m) then event (endMove s.ticked node ctx 5)
    else if m.dirty.any (subPoisoned s gid m) then event (endMove s node ctx 6)
    else
      let s := m.dirty.foldl (copySub gid m) s
      let s := writePlaces s gid ((List.range 8).map fun i => (m.leafKey + i, (leBytes 8 m.newLeaf.toNat).getD i 0#8))
      event (endMove (invalidatePage s gid ctx m.va m.size) node ctx 0)

/-! ### Page faults (R379) -/

/-- A write to fault_head: records that wait enter the ring. -/
def writeFaultHead (s : State) (node : Nat) (ctx : BitVec 12) (v : Word) : State :=
  let x := s.ctxOf node ctx
  flushFaults (s.setCtx node ctx { x with faultHead := v }) node ctx x.waitingRecs.length
/-- FAULT_HEAD_WRITE (R379). -/
def execFaultHeadWrite (node : Nat) (ctx : BitVec 12) (v : Word) (s : State) : Host.Outcome State Fault Refusal :=
  event (if (s.pkg node).up && ctx != 0#12 then writeFaultHead s node ctx v else s)
/-- The page still has no valid leaf: a new record with a new token. -/
def recordAgain (s : State) (gid : Nat) (e : FaultEntry) (reason : Nat) : State :=
  let c := s.cluster gid
  match freeFaultIdx c with
  | some i =>
    let e' := { e with idx := i, reason, recorded := false }
    serveRecord (s.setCluster gid { c with faults := (c.faults.filter fun x => x.idx != e.idx) ++ [e'] }) gid e'
  | none =>
    admitWaiting (s.setCluster gid { c with
      faults := c.faults.filter (fun x => x.idx != e.idx), faultWait := c.faultWait ++ [{ e with idx := 32, reason, recorded := false }] }) gid
/-- A write to resolve. -/
def resolveFault (s : State) (node : Nat) (ctx : BitVec 12) (token : BitVec 16) (refuse : Bool) : State :=
  let gid := clusterOfIndex node (token.toNat / 32)
  if 384 ≤ token.toNat / 32 then s
  else match (s.cluster gid).faults.find? fun e => e.idx == token.toNat % 32 && e.ctx == ctx && e.recorded with
    | none => s
    | some e =>
      if refuse then closeFault s gid e true
      else match walk s ctx gid e.addr with
        | .ok (t, _) => closeFault (tlbFill s t) gid e false
        | .error reason => if 2 ≤ reason then closeFault s gid e false else recordAgain s gid e reason
/-- FAULT_RESOLVE (R379). -/
def execFaultResolve (node : Nat) (ctx : BitVec 12) (token : BitVec 16) (refuse : Bool) (s : State) : Host.Outcome State Fault Refusal :=
  event (if (s.pkg node).up && ctx != 0#12 then resolveFault s node ctx token refuse else s)

/-! ### Checkpoints (R424-R429) -/

/-- A context's checkpoint block. -/
def ckOf (s : State) (node : Nat) (ctx : BitVec 12) : Checkpoint := (PMap.get? ctx.toNat (s.pkg node).cks).getD Checkpoint.reset
/-- Replaces a checkpoint block. -/
def setCk (s : State) (node : Nat) (ctx : BitVec 12) (x : Checkpoint) : State :=
  let p := s.pkg node
  s.setPkg node { p with cks := PMap.set ctx.toNat x p.cks }
/-- interval_s as the host reads it (R428). -/
def interval (s : State) (node : Nat) (ctx : BitVec 12) : Nat :=
  let x := ckOf s node ctx
  let g := (s.pkg node).log
  min 3600 (max 20 (isqrt (2 * x.stopUs.toNat * g.poweredSec / (1000000 * (g.interruptions + 1) * max 1 x.jobPackages.toNat))))
/-- A read that fails, waits, or answers bytes. -/
def ckFetch (s : State) (node : Nat) (ctx : BitVec 12) (addr n : Nat) (again : Event) : HeadRead :=
  match headRead s node ctx addr n with
  | .value bs => .value bs
  | .lost => .bad .peerLost addr
  | .poisoned => .bad .uncorrectable addr
  | .noPlace (.refused _ _) => .bad .segBounds addr
  | .noPlace p => .wait (noPlaceDue s ctx p (.checkpoint node ctx) 3 again)
/-- A segment-list entry (R425): its source, length and kind. -/
structure CkSeg where
  src : Nat
  len : Nat
  kind : Nat
  deriving DecidableEq, Repr
/-- The entries of a list of bytes. -/
def ckSegs (bs : List Byte) : List CkSeg :=
  (List.range (bs.length / 32)).map fun i => { src := fieldOf bs (32 * i) 8, len := fieldOf bs (32 * i + 8) 8, kind := fieldOf bs (32 * i + 16) 1 }
/-- An entry that breaks R425: its extent lies in one cluster's HBM and windows. -/
def ckSegBad (node : Nat) (bs : List Byte) (i : Nat) : Bool :=
  let src := fieldOf bs (32 * i) 8
  let len := fieldOf bs (32 * i + 8) 8
  let last := src + len - 1
  clusterNode (src / 2 ^ 38) != node || decide (96 ≤ src / 2 ^ 38 % 128) || !translated src || src % 32 != 0 || len % 32 != 0 || decide (2 ^ 38 < len)
    || (decide (0 < len) && last / 2 ^ 38 != src / 2 ^ 38)
    || decide (3 < fieldOf bs (32 * i + 16) 1) || !zeroAt bs (32 * i + 17) 15
/-- The die of a segment in its package. -/
def CkSeg.die (x : CkSeg) : Nat := x.src / 2 ^ 45 % 4
/-- The segments of a die, with their indices in the list. -/
def dieSegs (xs : List CkSeg) (d : Nat) : List (Nat × CkSeg) := (xs.zipIdx.map fun p => (p.2, p.1)).filter fun p => p.2.die == d
/-- The size of a generation of a die. -/
def genSize (xs : List CkSeg) (d : Nat) : Nat := ((dieSegs xs d).foldl (fun n p => n + p.2.len + 64) 512 + 511) / 512 * 512
/-- Where a generation of a die starts; with `mirror` the second copy. -/
def genBase (x : Checkpoint) (xs : List CkSeg) (d : Nat) (mirror : Bool) : Nat :=
  (x.targets.getD d 0#64).toNat + (x.epoch.toNat % 2 + (if mirror then 2 else 0)) * genSize xs d
/-- The offset of a die's `k`-th segment in its generation. -/
def segOffset (xs : List CkSeg) (d k : Nat) : Nat := ((dieSegs xs d).take k).foldl (fun n p => n + p.2.len + 64) 512
/-- The plaintext of a manifest, 480 bytes (notes/assumptions/20.md): epoch, chain value, queues with their heads, segment entries as far as
they fit. -/
def manifest (s : State) (node : Nat) (ctx : BitVec 12) (epoch : Word) (list : List Byte) : List Byte :=
  let qs := (s.pkg node).queues.filter fun e => e.2.bound && e.2.ctx == ctx
  let b := leBytes 8 epoch.toNat ++ ((s.ctxOf node ctx).chain ++ List.replicate 48 0#8).take 48 ++ leBytes 8 qs.length
    ++ qs.flatMap (fun e => leBytes 8 e.1 ++ leBytes 8 e.2.head.toNat) ++ list
  (b ++ List.replicate 480 0#8).take 480
/-- A sealed piece of a checkpoint: its ciphertext and tag (R392, R425). -/
def ckSeal (key : BitVec 256) (ctx : BitVec 12) (ver : Nat) (epoch : Word) (index : Nat) (text : List Byte) : List Byte :=
  (sealBytes key (sealNonce ctx ver) (leBytes 8 epoch.toNat ++ leBytes 8 index) text).drop 12
/-- A segment as it lies in a target: header, ciphertext, tag field. -/
def ckSegment (key : BitVec 256) (ctx : BitVec 12) (ver : Nat) (epoch : Word) (index : Nat) (text : List Byte) : List Byte :=
  leBytes 8 epoch.toNat ++ leBytes 8 index ++ leBytes 8 text.length ++ leBytes 8 ver ++ ckSeal key ctx ver epoch index text ++ leBytes 16 0
/-- A manifest as it lies in a target: ciphertext, tag, version. -/
def ckManifest (key : BitVec 256) (ctx : BitVec 12) (ver : Nat) (epoch : Word) (text : List Byte) : List Byte :=
  ckSeal key ctx ver epoch 0xFFFFFFFF text ++ leBytes 8 ver ++ leBytes 8 0
/-- A checkpoint command or step ends with a reason. -/
def ckEnd (s : State) (node : Nat) (ctx : BitVec 12) (reason : Nat) : State :=
  let s := setCk s node ctx { ckOf s node ctx with st := .idle, reason }
  dueRounds ((boundQueues s node ctx).foldl (fun s q => queueNext s node q) s) node
/-- A target is malformed (R424, R427). -/
def targetsBad (x : Checkpoint) : Bool := x.targets.any fun t => t.toNat % 512 != 0
/-- Writes bytes of a checkpoint at an address of the context. -/
def ckWrite (s : State) (node : Nat) (ctx : BitVec 12) (addr : Nat) (bs : List Byte) (again : Event) : Except (Option State) State :=
  match ownerWrite s ctx (aliased s node addr) bs with
    | .ok s => .ok s
    | .error (.refused _ _) => .error none
    | .error (.unread _) => .error none
    | .error p => .error (some (noPlaceDue s ctx p (.checkpoint node ctx) 3 again))
/-- The segment list of a command, when it can be read and is well formed. -/
inductive CkList where
  | ok (bs : List Byte)
  | bad
  | wait (s : State)
/-- Reads the segment list. -/
def ckList (s : State) (node : Nat) (ctx : BitVec 12) (again : Event) : CkList :=
  let x := ckOf s node ctx
  let n := x.segCount.toNat
  if n = 0 ∨ 4095 < n ∨ x.segList.toNat % 32 ≠ 0 then .bad
  else match ckFetch s node ctx x.segList.toNat (32 * n) again with
    | .wait s => .wait s
    | .bad _ _ => .bad
    | .value bs => if (List.range n).any (ckSegBad node bs) || targetsBad x then .bad else .ok bs
/-- A take (R426, R427). -/
def takeCk (s : State) (node : Nat) (ctx : BitVec 12) : State :=
  let x := ckOf s node ctx
  if x.st != .idle || !(s.ctxOf node ctx).valid || ctx == 0#12 then s
  else
    let s := setCk s node ctx { x with lastCmd := 1#2 }
    if x.epoch.toNat ≤ x.lastEpoch.toNat then ckEnd s node ctx 1
    else match ckList s node ctx (.checkpointTake node ctx) with
      | .bad => ckEnd s node ctx 2
      | .wait s => s
      | .ok _ =>
        if (s.ctxOf node ctx).ckKey.isNone then ckEnd s node ctx 3
        else (setCk s node ctx { x with lastCmd := 1#2, st := .stopping }).due [.checkpointPullStart node ctx]
/-- CHECKPOINT_TAKE (R426). -/
def execCheckpointTake (node : Nat) (ctx : BitVec 12) (s : State) : Host.Outcome State Fault Refusal :=
  event (if (s.pkg node).up then takeCk s node ctx else s)
/-- A launch of the context is placed and has not completed. -/
def ctxRuns (s : State) (node : Nat) (ctx : BitVec 12) : Bool :=
  s.launches.any fun e => e.2.node == node && e.2.ctx == ctx && (e.2.placed || e.2.st == .ended)
/-- CHECKPOINT_PULL_START (R426): no launch of the context runs any more. The stop time that will be measured is open. -/
def execCheckpointPullStart (node : Nat) (ctx : BitVec 12) (s : State) : Host.Outcome State Fault Refusal :=
  let x := ckOf s node ctx
  if x.st != .stopping || ctxRuns s node ctx then event s
  else event ((setCk s node ctx { x with st := .pulling }).ticked.due [.checkpointComplete node ctx (Config.freeWord s.tick 0)])
/-- What pulling a piece of a checkpoint comes to. -/
inductive CkStep where
  | ok (s : State)
  | fail (s : State)
  | wait (s : State)
/-- Where the version of a segment of an epoch is recorded: those of the last completed take stand while another is written (R392, R426). -/
def versionKey (epoch : Word) (i : Nat) : Nat := epoch.toNat * 4096 + i
/-- Pulls one segment to its target, and to the mirror when that is on. -/
def pullSegment (s : State) (node : Nat) (ctx : BitVec 12) (xs : List CkSeg) (i : Nat) (e : CkSeg) (again : Event) : CkStep :=
  let x := ckOf s node ctx
  let c := s.ctxOf node ctx
  match ckFetch s node ctx e.src e.len again with
  | .wait s => .wait s
  | .bad _ _ => .fail s
  | .value text =>
    let bytes := ckSegment (c.ckKey.getD 0#256) ctx c.counter x.epoch i text
    let k := ((dieSegs xs e.die).findIdx? fun p => p.1 == i).getD 0
    let put := fun (s : State) (m : Bool) => ckWrite s node ctx (genBase x xs e.die m + segOffset xs e.die k) bytes again
    match put s false with
    | .error none => .fail s
    | .error (some s) => .wait s
    | .ok s1 =>
      match (if x.mirror.getLsbD 0 then put s1 true else .ok s1) with
      | .error none => .fail s1
      | .error (some s) => .wait s
      | .ok s =>
        let s := s.setCtx node ctx { c with counter := c.counter + 1 }
        .ok (setCk s node ctx { ckOf s node ctx with versions := PMap.set (versionKey x.epoch i) c.counter (ckOf s node ctx).versions })
/-- Pulls the segments from `i` on, each of them once: those already recorded under this take are behind. -/
def pullSegments (node : Nat) (ctx : BitVec 12) (xs : List CkSeg) (again : Event) : List (CkSeg × Nat) → State → CkStep
  | [], s => .ok s
  | (e, i) :: rest, s =>
    match pullSegment s node ctx xs i e again with
    | .ok s => pullSegments node ctx xs again rest s
    | r => r
/-- Writes the manifest of every die that has segments, last (R426). -/
def pullManifests (s : State) (node : Nat) (ctx : BitVec 12) (list : List Byte) (again : Event) : CkStep :=
  let xs := ckSegs list
  let x := ckOf s node ctx
  let c := s.ctxOf node ctx
  let bytes := ckManifest (c.ckKey.getD 0#256) ctx c.counter x.epoch (manifest s node ctx x.epoch list)
  let places := ((List.range 4).filter fun d => !(dieSegs xs d).isEmpty).flatMap fun d =>
    genBase x xs d false :: (if x.mirror.getLsbD 0 then [genBase x xs d true] else [])
  places.foldl (fun r a => match r with
    | .ok s => match ckWrite s node ctx a bytes again with
      | .ok s => .ok s
      | .error none => .fail s
      | .error (some s) => .wait s
    | r => r) (.ok (s.setCtx node ctx { c with counter := c.counter + 1 }))
/-- CHECKPOINT_COMPLETE (R426): the segments and then the manifest are in place. -/
def execCheckpointComplete (node : Nat) (ctx : BitVec 12) (stopUs : Word) (s : State) : Host.Outcome State Fault Refusal :=
  let x := ckOf s node ctx
  let again := Event.checkpointComplete node ctx stopUs
  if x.st != .pulling then event s
  else match ckList (setCk s node ctx { x with stopUs }) node ctx again with
    | .bad => event (ckEnd s node ctx 5)
    | .wait s => event s
    | .ok list =>
      match pullSegments node ctx (ckSegs list) again (ckSegs list).zipIdx (setCk s node ctx { x with stopUs }) with
      | .fail s => event (ckEnd s node ctx 5)
      | .wait s => event s
      | .ok s => match pullManifests s node ctx list again with
        | .fail s => event (ckEnd s node ctx 5)
        | .wait s => event s
        | .ok s => event (ckEnd (setCk s node ctx { ckOf s node ctx with lastEpoch := x.epoch }) node ctx 0)

/-- Opens a sealed piece: the ciphertext followed by the tag. -/
def ckOpen (key : BitVec 256) (ctx : BitVec 12) (ver : Nat) (epoch : Word) (index : Nat) (ct tag : List Byte) : Option (List Byte) :=
  openBytes key (leBytes 8 epoch.toNat ++ leBytes 8 index) (sealNonce ctx ver ++ ct ++ tag)
/-- A segment read back from a target (R429): its plaintext, when header, version and tag agree. -/
def openSegment (x : Checkpoint) (key : BitVec 256) (ctx : BitVec 12) (i len : Nat) (bs : List Byte) : Option (List Byte) :=
  let ver := fieldOf bs 24 8
  let own := x.versions.any fun e => e.1 / 4096 == x.epoch.toNat
  if fieldOf bs 0 8 = x.epoch.toNat ∧ fieldOf bs 8 8 = i ∧ fieldOf bs 16 8 = len
      ∧ (!own || PMap.get? (versionKey x.epoch i) x.versions == some ver) = true then
    ckOpen key ctx ver x.epoch i ((bs.drop 32).take len) ((bs.drop (32 + len)).take 16)
  else none
/-- A manifest read back from a target. -/
def openManifest (x : Checkpoint) (key : BitVec 256) (ctx : BitVec 12) (bs : List Byte) : Option (List Byte) :=
  match ckOpen key ctx (fieldOf bs 496 8) x.epoch 0xFFFFFFFF (bs.take 480) ((bs.drop 480).take 16) with
  | some m => if fieldOf m 0 8 = x.epoch.toNat then some m else none
  | none => none
/-- What reading a piece of a generation comes to. -/
inductive CkRead where
  | ok (bs : List Byte)
  | bad
  | wait (s : State)
/-- Reads a piece from the target, or from the mirror when the target is lost or refuses it. -/
def ckPiece (s : State) (node : Nat) (ctx : BitVec 12) (xs : List CkSeg) (d off n : Nat) (open_ : List Byte → Option (List Byte)) : CkRead :=
  let x := ckOf s node ctx
  let again := Event.checkpointRestore node ctx
  let second := if x.mirror.getLsbD 0 then
      match ckFetch s node ctx (genBase x xs d true + off) n again with
      | .value bs => match open_ bs with
        | some t => CkRead.ok t
        | none => .bad
      | .bad _ _ => .bad
      | .wait s => .wait s
    else .bad
  match ckFetch s node ctx (genBase x xs d false + off) n again with
  | .wait s => .wait s
  | .bad _ _ => second
  | .value bs => match open_ bs with
    | some t => .ok t
    | none => second
/-- Restores the segments, each to its source (R429 steps 1 and 2). -/
def restoreSegments (node : Nat) (ctx : BitVec 12) (xs : List CkSeg) : List (CkSeg × Nat) → State → CkStep
  | [], s => .ok s
  | (e, i) :: rest, s =>
    let x := ckOf s node ctx
    let key := (s.ctxOf node ctx).ckKey.getD 0#256
    let k := ((dieSegs xs e.die).findIdx? fun p => p.1 == i).getD 0
    match ckPiece s node ctx xs e.die (segOffset xs e.die k) (e.len + 64) (openSegment x key ctx i e.len) with
    | .wait s => .wait s
    | .bad => .fail s
    | .ok text => match ckWrite s node ctx e.src text (.checkpointRestore node ctx) with
      | .error none => .fail s
      | .error (some s) => .wait s
      | .ok s => restoreSegments node ctx xs rest s
/-- The chain value and the queues as the manifest has them (R429 steps 3 and 4). -/
def restoreManifest (s : State) (node : Nat) (ctx : BitVec 12) (m : List Byte) : State :=
  let x := ckOf s node ctx
  let h := sha384 m
  let c := s.ctxOf node ctx
  let s := s.setCtx node ctx { c with
    chain := sha384 ((m.drop 8).take 48 ++ leBytes 8 (0xFFFF * 2 ^ 48 + x.epoch.toNat % 2 ^ 48) ++ h ++ h ++ h ++ leBytes 4 0 ++ leBytes 1 5 ++ leBytes 1 0) }
  (List.range (min 26 (fieldOf m 56 8))).foldl (fun s i =>
    let q := BitVec.ofNat 16 (fieldOf m (64 + 16 * i) 8)
    let n := BitVec.ofNat 64 (fieldOf m (72 + 16 * i) 8)
    s.setQueue node q { s.queueAt node q with head := n, done := n, tail := n, tailError := false }) s
/-- A restore ends with a reason; a fill that it belonged to is abandoned (R431). -/
def restoreEnd (s : State) (node : Nat) (ctx : BitVec 12) (reason : Nat) : State :=
  let p := s.pkg node
  ckEnd (s.setPkg node { p with fills := p.fills.map fun f => if f.ctxs.contains ctx then { f with running := false } else f }) node ctx reason
/-- A package that the fabric manager can still take as a spare: present, not failed, no context of a host, no node's alias (R422). -/
def isSpare (s : State) (n : Nat) : Bool :=
  !(s.pkg n).failed && (s.pkg n).ctxs.all (fun e => e.1 == 0 || e.2.st == .free) && s.present.all fun m => !((s.pkg m).aliases.map Prod.snd).contains n
/-- A die of a package, or a package on which the context had data, has failed and waits for a repair that no spare package can bring
(R421, R422, R430). -/
def noSpareLeft (s : State) (node : Nat) (ctx : BitVec 12) : Bool :=
  s.pkgs.any (fun e => e.2.fills.any fun f => !f.repaired && (e.1 == node || f.ctxs.contains ctx) && match f.unit with
    | .die _ | .package _ => true
    | _ => false) && !s.present.any (isSpare s)
/-- A unit of the package that the context had data on is not yet repaired, or its fill has not begun (R431). -/
def fillWaits (s : State) (node : Nat) (ctx : BitVec 12) : Bool := (s.pkg node).fills.any fun f => f.ctxs.contains ctx && !f.running
/-- CHECKPOINT_RESTORE (R429); into a repaired unit it is that unit's spare fill, which it waits for and ends (R431); without a spare it ends
with reason 4 (R430). -/
def execCheckpointRestore (node : Nat) (ctx : BitVec 12) (s : State) : Host.Outcome State Fault Refusal :=
  let x := ckOf s node ctx
  let again := Event.checkpointRestore node ctx
  if !(s.pkg node).up || ctx == 0#12 || !(s.ctxOf node ctx).valid || !(x.st == .idle || x.st == .restoring) || ctxRuns s node ctx then event s
  else
    let s := setCk s node ctx { x with st := .restoring, lastCmd := 2#2 }
    if noSpareLeft s node ctx then event (restoreEnd s node ctx 4)
    else if fillWaits s node ctx then event s
    else match ckList s node ctx again with
    | .bad => event (restoreEnd s node ctx 5)
    | .wait s => event s
    | .ok list =>
      let xs := ckSegs list
      match restoreSegments node ctx xs xs.zipIdx s with
      | .fail s => event (restoreEnd s node ctx 5)
      | .wait s => event s
      | .ok s =>
        let d := (xs.head?.map CkSeg.die).getD 0
        match ckPiece s node ctx xs d 0 512 (openManifest (ckOf s node ctx) ((s.ctxOf node ctx).ckKey.getD 0#256) ctx) with
        | .wait s => event s
        | .bad => event (restoreEnd s node ctx 5)
        | .ok m =>
          let s := restoreManifest s node ctx m
          let p := s.pkg node
          event (ckEnd (s.setPkg node { p with fills := p.fills.filter fun f => !(f.running && f.ctxs.contains ctx) }) node ctx 0)

/-! ### Host reads (R361, R375, R424): they change nothing -/

/-- State 0 free, 1 live, 2 busy, 3 error. -/
def CtxSt.code : CtxSt → Nat
  | .free => 0 | .live => 1 | .busy => 2 | .error => 3
/-- A field of a context's control block as the host reads it (R375); a field that is only written reads as zero. -/
def readCtx (s : State) (node : Nat) (ctx : BitVec 12) (off : Nat) : Word :=
  let x := s.ctxOf node ctx
  match off with
  | 0x00 => BitVec.ofNat 64 (x.lastCmd.toNat + 16 * x.st.code + 256 * x.reason)
  | 0x08 => x.dirBase
  | 0x10 => x.params
  | 0x18 => x.faultRing
  | 0x20 => x.faultLog2
  | 0x38 => x.errRing
  | 0x40 => x.errLog2
  | 0x48 => x.opAddr
  | 0x50 => x.opArg
  | 0x58 => x.faultTail
  | _ => 0#64
/-- State 0 idle, 1 stopping, 2 pulling, 3 restoring. -/
def CkSt.code : CkSt → Nat
  | .idle => 0 | .stopping => 1 | .pulling => 2 | .restoring => 3
/-- A field of a checkpoint block as the host reads it (R424). -/
def readCk (s : State) (node : Nat) (ctx : BitVec 12) (off : Nat) : Word :=
  let x := ckOf s node ctx
  match off with
  | 0x00 => BitVec.ofNat 64 (x.lastCmd.toNat + 4 * x.st.code + 256 * x.reason)
  | 0x08 => x.epoch
  | 0x10 => x.segList
  | 0x18 => x.segCount
  | 0x20 | 0x28 | 0x30 | 0x38 => x.targets.getD ((off - 0x20) / 8) 0#64
  | 0x40 => x.mirror
  | 0x48 => x.jobPackages
  | 0x50 => x.stopUs
  | 0x58 => BitVec.ofNat 64 (interval s node ctx)
  | 0x60 => x.lastEpoch
  | _ => 0#64
/-- A host read of BAR2 (R375, R424). -/
def readBar2 (s : State) (node off : Nat) : Word :=
  let c := BitVec.ofNat 12 (off / 128)
  if 0x100000 ≤ off then 0#64
  else if off < 0x80000 then readCtx s node c (off % 128)
  else readCk s node c (off % 128)
/-- A host read of BAR0: the queues' registers and configuration (R361); abort reads as 0. -/
def readBar0 (s : State) (node off : Nat) : Word :=
  if off < 0x200000 then
    let x := s.queueAt node (BitVec.ofNat 16 (off / 32))
    match off % 32 with
    | 0x00 => x.tail
    | 0x08 => x.head
    | 0x10 => x.done
    | 0x18 => x.qstatus
    | _ => 0#64
  else if off < 0x600000 then
    let x := s.queueAt node (BitVec.ofNat 16 ((off - 0x200000) / 64))
    match (off - 0x200000) % 64 with
    | 0x00 => x.ringBase
    | 0x08 => x.compBase
    | 0x10 => x.ringLog2
    | 0x18 => x.context
    | 0x20 => x.msix
    | 0x28 => BitVec.ofNat 64 x.enabled.toNat
    | _ => 0#64
  else 0#64

/-! ### Host writes (R361, R375, R424) -/

/-- A write to a field of a context's control block (R375). -/
def writeCtx (s : State) (node : Nat) (ctx : BitVec 12) (off : Nat) (v : Word) : State :=
  let x := s.ctxOf node ctx
  let put := fun (y : Context) => if x.st == .free then s.setCtx node ctx y else s
  match off with
  | 0x00 => match v.toNat % 8 with
    | 1 => onCommand s node ctx 1#3 (createCtx node ctx)
    | 2 => onCommand s node ctx 2#3 (destroyCtx node ctx)
    | 3 => onCommand s node ctx 3#3 (invalidateCtx node ctx)
    | 4 => onCommand s node ctx 4#3 fun s => if x.st == .live then startMove node ctx s else s
    | _ => s
  | 0x08 => put { x with dirBase := v }
  | 0x10 => put { x with params := v &&& 0x1FFFFF#64 }
  | 0x18 => put { x with faultRing := v }
  | 0x20 => put { x with faultLog2 := v &&& 0xF#64 }
  | 0x28 => writeFaultHead s node ctx v
  | 0x30 => resolveFault s node ctx (v.setWidth 16) (v.getLsbD 16)
  | 0x38 => put { x with errRing := v }
  | 0x40 => put { x with errLog2 := v &&& 0xF#64 }
  | 0x48 => s.setCtx node ctx { x with opAddr := v &&& 0x7FFFFFFFFFFFF#64 }
  | 0x50 => s.setCtx node ctx { x with opArg := v }
  | _ => s
/-- A write to a field of a checkpoint block (R424). DEDUCED: job_packages holds 18 bits (notes/assumptions/101.md). -/
def writeCk (s : State) (node : Nat) (ctx : BitVec 12) (off : Nat) (v : Word) : State :=
  let x := ckOf s node ctx
  let put := fun (y : Checkpoint) => if x.st == .idle then setCk s node ctx y else s
  match off with
  | 0x00 => match v.toNat % 4 with
    | 1 => takeCk s node ctx
    | 2 => if x.st == .idle then s.due [.checkpointRestore node ctx] else s
    | _ => s
  | 0x08 => put { x with epoch := v }
  | 0x10 => put { x with segList := v }
  | 0x18 => put { x with segCount := v &&& 0xFFF#64 }
  | 0x20 | 0x28 | 0x30 | 0x38 => put { x with targets := x.targets.set ((off - 0x20) / 8) v }
  | 0x40 => setCk s node ctx { x with mirror := v &&& 1#64 }
  | 0x48 => setCk s node ctx { x with jobPackages := v &&& 0x3FFFF#64 }
  | _ => s
/-- A host write to BAR2 (R375, R424); context 0 takes none (R374). -/
def writeBar2 (s : State) (node off : Nat) (v : Word) : State :=
  let c := BitVec.ofNat 12 (off / 128)
  if c = 0#12 ∨ 0x100000 ≤ off then s
  else if off < 0x80000 then writeCtx s node c (off % 128) v
  else writeCk s node c (off % 128) v
/-- CONFIGURATION_WRITE (R361): a write of any width but 8 bytes is discarded. Before the end of boot only a context's command is
answered (R432). -/
def execConfigurationWrite (node : Nat) (w : CfgWrite) (s : State) : Host.Outcome State Fault Refusal :=
  if w.width ≠ 8 then event s
  else if (s.pkg node).up then event (if w.bar2 then writeBar2 s node w.off w.v else writeBar0 s node w.off w.v)
  else if w.bar2 ∧ w.off < 0x80000 ∧ w.off % 128 = 0 then event (writeBar2 s node w.off w.v)
  else event s

end Sys2Proof.Machine
end

