-- ==== Sys2Proof/Machine/Flash.lean ====
section
/-! DEFINITION. Configuration flash: which copy of a region is accepted, and writing one (spec/23_bringup_power_life_log.md R433). -/

namespace Sys2Proof.Machine

/-- The place of a region in the SKU settings' list of minimum versions. -/
def regionIndex : FlashRegion → Nat
  | .headFw => 0
  | .prefect => 1
  | .linkFw => 2
  | .hbmTables => 3
  | .sku => 4
  | .repair => 5
  | .deviceCert => 6
/-- The copies of a region. -/
def flashOf (p : Pkg) (r : FlashRegion) : FlashCopies := (PMap.get? (regionIndex r) p.flash).getD ⟨none, none⟩
/-- The bytes a region has for its body, after the header of 256 bytes. -/
def regionSize : FlashRegion → Nat
  | .sku | .repair => 0x10000 - 256
  | .deviceCert => 0x4000 - 256
  | _ => 0x800000 - 256
/-- A copy of a region is accepted: its signature verifies and its version is at least the minimum. DEDUCED: what is signed is the region's
own header, so a header of another type, or one whose length or SHA-384 its body does not meet, does not verify
(notes/assumptions/28.md). -/
def imageOk (r : FlashRegion) (min : Word) (x : FlashImage) : Bool :=
  x.sigOk && x.typeOk && x.bodyOk && decide (x.length ≤ regionSize r) && decide (min.toNat ≤ x.version.toNat)
/-- The minimum that SKU settings name for a region. -/
def minimumIn (sku : FlashImage) (r : FlashRegion) : Word := sku.minima.getD (regionIndex r) 0#64
/-- The accepted copy with the higher version. -/
def bestCopy (ok : FlashImage → Bool) (c : FlashCopies) : Option FlashImage :=
  match c.a.filter ok, c.b.filter ok with
  | some a, some b => some (if a.version.toNat < b.version.toNat then b else a)
  | some a, none => some a
  | none, b => b
/-- The SKU settings in force; their own copies are held against the minimum they name themselves. -/
def skuOf (p : Pkg) : Option FlashImage := bestCopy (fun x => imageOk .sku (minimumIn x .sku) x) (flashOf p .sku)
/-- The minimum accepted version of a region. -/
def minimumOf (p : Pkg) (r : FlashRegion) : Word := ((skuOf p).map fun x => minimumIn x r).getD 0#64
/-- The copy that boot uses; none where no copy is accepted. -/
def acceptedCopy (p : Pkg) (r : FlashRegion) : Option FlashImage :=
  match r with
  | .sku => skuOf p
  | _ => bestCopy (imageOk r (minimumOf p r)) (flashOf p r)
/-- Writes the copy that does not hold the accepted version; the one copy of the device certificate is written only while it is not
accepted. -/
def writeFlash (p : Pkg) (r : FlashRegion) (x : FlashImage) : Pkg :=
  let c := flashOf p r
  let held := acceptedCopy p r
  let c := if r = .deviceCert then (if held.isSome then c else { c with a := some x })
    else if held.isSome && c.a == held then { c with b := some x } else { c with a := some x }
  { p with flash := PMap.set (regionIndex r) c p.flash }
/-- What the accepted repair maps hold: clusters whose site 17 serves a core, clusters whose number a spare took. -/
def repairMap (p : Pkg) : List (Nat × Option Nat) := ((acceptedCopy p .repair).map (·.repairs)).getD []
/-- The repair maps with one more repair; a spare cluster has its own site 17, unused. -/
def addRepair (u : HwUnit) (rs : List (Nat × Option Nat)) : List (Nat × Option Nat) :=
  match u with
  | .core k => rs ++ [(coreCluster k, some (coreIndex k))]
  | .cluster g => (rs.filter fun e => e.1 != g || e.2.isNone) ++ [(g, none)]
  | _ => rs
/-- The head rewrites the repair maps after a repair (R433): a new version, whose digest the spec does not give. -/
def rewriteRepairMaps (s : State) (node : Nat) (u : HwUnit) : State :=
  let p := s.pkg node
  let v := ((acceptedCopy p .repair).map (·.version)).getD 0#64 + 1#64
  let x : FlashImage := { version := v, digest := (Config.derived 4 [node, s.tick]).setWidth 384, sigOk := true, minima := [],
                          repairs := addRepair u (repairMap p) }
  s.ticked.setPkg node (writeFlash p .repair x)

end Sys2Proof.Machine
end

