-- ==== Sys2Proof/Machine/EvRas.lean ====
section
/-! DEFINITION. Failures, losses and repairs (spec/22_faults_spares_checkpoints.md R416-R423, R431, spec/07 R236, spec/13 R328,
spec/24 R439). -/

namespace Sys2Proof.Machine

/-! ### Units -/

/-- A cluster belongs to a unit. -/
def unitHasCluster (u : HwUnit) (gid : Nat) : Bool :=
  match u with
  | .package n => clusterNode gid == n
  | .die d => clusterDie gid == d
  | .cluster g => gid == g
  | .core _ => false
/-- A core belongs to a unit. -/
def unitHasCore (u : HwUnit) (k : Nat) : Bool :=
  match u with
  | .core c => k == c
  | _ => (unitHasCluster u) (coreCluster k)
/-- An address belongs to a unit: for a core, its window alone (R416). -/
def unitHasAddr (u : HwUnit) (addr : Nat) : Bool :=
  match u with
  | .core c => addr / 2 ^ 38 == coreCluster c && addr % 2 ^ 38 / 0x20000 == coreIndex c && decide (coreIndex c < 16)
  | _ => (unitHasCluster u) (addr / 2 ^ 38)
/-- The first cluster of a unit, by which its coordinates name it. -/
def unitGid (u : HwUnit) : Nat :=
  match u with
  | .package n => n * 512
  | .die d => d * 128
  | .cluster g => g
  | .core k => coreCluster k
/-- The unit's packed coordinates (R419). -/
def unitCoords (u : HwUnit) : Nat :=
  match u with
  | .core k => packed ⟨k, 0⟩
  | _ => packed ⟨(unitGid u) * 32, 0⟩
/-- The unit's package. -/
def unitNode (u : HwUnit) : Nat := clusterNode (unitGid u)
/-- A replica has grains, clusters or memory on a unit, a single core included (R418). -/
def replicaOn (l : Launch) (r : Nat) (u : HwUnit) : Bool :=
  (l.ownClusters r).any fun g => (unitHasCluster u) g || match u with
    | .core k => coreCluster k == g
    | _ => false
/-- Live replicas on a unit. -/
def lostReplicas (l : Launch) (u : HwUnit) : List Nat := l.reps.live.filter fun r => replicaOn l r u

/-! ### Contexts with data on a unit (R419) -/

/-- A tree of tables holds a valid leaf. -/
def anyLeaf (s : State) (gid : Nat) : List (Nat × Nat) → Nat → Bool
  | [], _ => false
  | (shift, bits) :: rest, key => (List.range (2 ^ bits)).any fun i =>
    let e := readEntry s gid (key + 8 * i)
    e % 2 == 1 && (if e / 2 % 2 = 1 then leafOk e shift else match spaceOf e with
      | some sp => entryZeros e && anyLeaf s gid rest (spaceKey sp gid (entryPhys e))
      | none => false)
/-- A context maps a page of a cluster or has a slate there. -/
def ctxOn (s : State) (ctx : BitVec 12) (x : Context) (gid : Nat) : Bool :=
  let dir := x.dirBase.toNat + 8 * (gid / 128 % 4 * 96 + gid % 128)
  let e := readEntry s (dir / 2 ^ 38) dir
  (s.cluster gid).slates.any (fun y => y.2.grain.ctx == ctx && y.2.weights.isEmpty)
    || (e % 2 == 1 && match spaceOf e with
      | some sp => anyLeaf s gid treeLevels (spaceKey sp gid (entryPhys e))
      | none => false)
/-- Clusters of a package that a unit has, those present only. -/
def unitClusters (u : HwUnit) : List Nat :=
  (((List.range 4).flatMap fun d => (List.range 96).map fun c => (unitNode u) * 512 + d * 128 + c).filter (unitHasCluster u))
/-- A grain of a context waits in a core's run queue with its slate: the slates a core has (R419; notes/assumptions/88.md). -/
def slateOn (s : State) (ctx : BitVec 12) (k : Nat) : Bool :=
  (s.core k).entries.any fun e => match e.kind with
    | .spilled id => (PMap.get? id (s.cluster (coreCluster k)).slates).any fun y => y.grain.ctx == ctx
    | _ => false
/-- Contexts that hear of a unit's repair. -/
def unitCtxs (s : State) (u : HwUnit) : List (BitVec 12) :=
  ((s.pkg (unitNode u)).ctxs.filter fun e => e.1 != 0 && (e.2.st == .live || e.2.st == .busy)
    && match u with
      | .core k => slateOn s (BitVec.ofNat 12 e.1) k
      | _ => (unitClusters u).any fun g => ctxOn s (BitVec.ofNat 12 e.1) e.2 g).map fun e => BitVec.ofNat 12 e.1

/-! ### A unit fails (R418, R419, R439) -/

/-- A launch has grains, run-queue entries, stores or engine commands on a unit. -/
def launchOn (s : State) (h : Nat) (u : HwUnit) : Bool :=
  s.cores.any (fun e => (unitHasCore u) e.1 && holdsWork s h e.1)
    || s.clusters.any fun e => (unitHasCluster u) e.1 && (e.2.cmds.any (fun x => x.launch == h && x.st != .done)
        || e.2.slates.any fun y => y.2.grain.launch == h && y.2.weights.isEmpty)
/-- Counts a launch ended by R419; its package writes a record (R436). -/
def countInterruption (s : State) (node : Nat) : State :=
  (s.logged node fun x => { x with interruptions := x.interruptions + 1 }).dueOnce (.lifeLogRecord node)
/-- A running launch ends by the failure of a unit (R419); a replica on it is live no longer (R333). -/
def endByLoss (s : State) (h : Nat) (u : HwUnit) : State :=
  let l := s.launch h
  let r : Report := { launch := h, cause := .peerLost, info := BitVec.ofNat 64 ((unitGid u) * 2 ^ 38), where_ := (unitCoords u), codeOff := s.openField (4 * h),
                      cycle := s.openField (4 * h + 3), rank := 0#64, imprecise := true }
  let live := l.reps.live.filter fun r => !replicaOn l r u
  let reps := { l.reps with live, primary := if live.contains l.reps.primary then l.reps.primary else live.headD l.reps.primary }
  countInterruption (stopLaunch (s.setLaunch h { l with outcome := 1, report := some r, reps }) h) l.node
/-- A reserved launch that has not started gives its cores back and waits again. -/
def ungrant (s : State) (h : Nat) : State :=
  let l := s.launch h
  let s : State := { s with cores := s.cores.map (fun e => (e.1, { e.2 with partitions := PMap.erase h e.2.partitions })) }
  dueRounds (s.setLaunch h { l with st := .waiting, allot := [], cores := [], ruleTable := 0 }) l.node
/-- A replica is lost with a unit: its grains there are gone, the others are stopped, two replicas go on (R328, R419). -/
def loseReplica (s : State) (h r : Nat) (u : HwUnit) : State :=
  let gone := (s.cores.filter fun e => (unitHasCore u) e.1).foldl (fun n e => n + replicaGrains s h e.1) 0
  let s := quarantine s h r true 0 0
  let l := s.launch h
  let s : State := { s with clusters := s.clusters.map fun e =>
    (e.1, { e.2 with packets := e.2.packets.filter fun p => !(p.grain.launch == h && (unitHasCore u) p.target && p.source.isNone) }) }
  s.setLaunch h { l with live := l.live - gone }
/-- What the failure of a unit does to a launch. -/
def failLaunch (u : HwUnit) (s : State) (h : Nat) : State :=
  let l := s.launch h
  let lost := lostReplicas l u
  match l.st with
  | .granted => if l.cores.any (unitHasCore u) then ungrant s h else s
  | .running =>
    if decide (2 ≤ l.reps.count) && !lost.isEmpty then
      if l.reps.live.length == 3 && lost.length == 1 && l.reps.quarantined.isNone then loseReplica s h (lost.headD 0) u else endByLoss s h u
    else if launchOn s h u then endByLoss s h u
    else s
  | _ => s
/-- A core that has failed: it issues nothing and what it held is gone (R418). -/
def deadCore (c : Core) : Core := { Core.reset with status := .failed, cycle := c.cycle, l1Split := c.l1Split, halts := c.halts }
/-- What is due for a unit's own grains is gone. -/
def fenceEvents (u : HwUnit) (es : List Event) : List Event :=
  es.filter fun e => match eventLoc e with
    | some l => !(unitHasCore u) l.core
    | none => true
/-- Fences a unit (R418). -/
def fence (s : State) (u : HwUnit) : State :=
  let s := { s with
    cores := s.cores.map (fun e => if (unitHasCore u) e.1 then (e.1, deadCore e.2) else e)
    agenda := fenceEvents u s.agenda }
  match u with
  | .core k =>
    let c := s.cluster (coreCluster k)
    (s.setCore k (if (PMap.get? k s.cores).isSome then s.core k else deadCore Core.reset)).setCluster (coreCluster k)
      { c with failedCores := coreIndex k :: c.failedCores }
  | .package n => s.setPkg n { s.pkg n with failed := true }
  | _ => (unitClusters u).foldl (fun s g => s.setCluster g { s.cluster g with status := .failed }) s
/-- Confirmations of cores that have failed are not waited for (R259, R418); for a launch that ended before, the loss is one fault more. -/
def dropStops (u : HwUnit) (ended : List Nat) (s : State) (h : Nat) : State :=
  let l := s.launch h
  if l.st == .stopping && l.stops.any (unitHasCore u) then
    let left := l.stops.filter fun k => !(unitHasCore u) k
    let s := s.setLaunch h { l with stops := left, more := if ended.contains h && l.report.isSome then min 127 (l.more + 1) else l.more }
    if left.isEmpty then sendStops s h else s
  else s
/-- The replicas of a steered launch on a lost unit are live no longer; the steering moves from a lost target to the lowest live replica, and
ends when none remains (R439). -/
def moveSteering (u : HwUnit) (s : State) (h : Nat) : State :=
  let l := s.launch h
  match l.reps.live.filter fun r => !replicaOn l r u with
  | [] => { s.setLaunch h { l with reps := { l.reps with live := [] } } with nextSteer := s.nextSteer.filter fun e => e.2 != h }
  | r :: rest =>
    s.setLaunch h { l with reps := { l.reps with live := r :: rest, primary := if (r :: rest).contains l.reps.primary then l.reps.primary else r } }
/-- A request that waits at a lost unit is not redirected (R439): a SEQWAIT there meets the loss through its watch register, a running pull
keeps its source, and a grain whose page the unit's port waited for stops at its instruction. -/
def pinRequests (s : State) (u : HwUnit) : State :=
  let wait := fun (s : State) (l : Loc) =>
    let g := s.grainAt l
    g.pend.foldl (fun s p => match p.kind with
      | .seqwait a _ thr _ =>
        let a := a.now s (clusterNode (coreCluster l.core)) g.launch g.replica
        if (unitHasAddr u) a.addr && ptrSeg a.ptr ≥ 4 then
          s.setGrainAt l { s.grainAt l with watches := (s.grainAt l).watches.set 0 ⟨true, false, a.addr, a.named, thr, true, false⟩ }
        else s
      | _ => s) s
  let s := (s.allLocs.filter fun l => (s.slotAt l).occupied && !(unitHasCore u) l.core).foldl wait s
  let fix := fun (x : Cmd) => if x.st == .running && x.pull && x.far && (unitHasAddr u) (x.srcAt s 0) then { x with far := false, src := x.srcAt s 0 } else x
  let s : State := { s with clusters := s.clusters.map fun e => (e.1, { e.2 with cmds := e.2.cmds.map fix }) }
  (s.clusters.filter fun e => (unitHasCluster u) e.1).foldl (fun s e => (e.2.faults ++ e.2.faultWait).foldl (fun s f => f.waiters.foldl (fun s w =>
    match w with
    | .grain l _ =>
      if (unitHasCore u) l.core || !(s.slotAt l).occupied then s
      else (s.toCall l).raiseAt l .peerLost (BitVec.ofNat 64 (e.1 * 2 ^ 38 + f.addr)) false
    | _ => s) s) s) s
/-- The record that steering has moved (R417, R439). The head complex writes it: whose coordinates and cycle count stand for it the spec does
not say (notes/assumptions/31.md). -/
def steeringRecord (u : HwUnit) (s : State) (h : Nat) : State :=
  let l := s.launch h
  let a := l.allot.getD (l.reps.primary * l.perReplica) 0 * 2 ^ 38
  s.errEntry l.node l.ctx (leBytes 8 l.seqNo ++ leBytes 2 l.queue ++ leBytes 1 0 ++ leBytes 1 9 ++ leBytes 4 0 ++ leBytes 8 a
    ++ leBytes 8 (peerOf ((unitGid u) * 2 ^ 38)) ++ leBytes 8 (s.openField (4 * h + 1)) ++ leBytes 8 0 ++ leBytes 8 (s.openField (4 * h + 2)))
/-- Launches with replicas whose steering lasts. -/
def steeredNow (s : State) : List Nat := (s.nextSteer.map Prod.snd).filter fun h => decide (2 ≤ (s.launch h).reps.count)
/-- Waiting launches that the loss has left unplaceable are refused (R366, R370). -/
def refuseUnplaceable (s : State) : State :=
  s.launches.foldl (fun s e => if (s.launch e.1).st == .waiting && unplaceable s (s.launch e.1) then refuse s e.1 1 else s) s
/-- The fabric manager broadcasts fall-back to every package (R415). -/
def dueFallback (s : State) : State := s.present.foldl (fun s n => if (s.pkg n).fallback then s else s.dueOnce (.fabricFallback n)) s
/-- A failure during a take abandons it (R426). -/
def abandonTakes (s : State) (node : Nat) : State :=
  (s.pkg node).cks.foldl (fun s e => if e.2.st == .stopping || e.2.st == .pulling then ckEnd s node (BitVec.ofNat 12 e.1) 5 else s) s
/-- A failure of the spare that a fill writes, or of a target that it reads, abandons the fill and the restore that it is (R431); DEDUCED: the restore
ends with reason 5 (notes/assumptions/100.md). -/
def abandonFills (s : State) (u : HwUnit) : State :=
  s.pkgs.foldl (fun s e =>
    let hit := fun (c : BitVec 12) => (ckOf s e.1 c).targets.any fun t => t != 0#64 && (unitHasAddr u) (aliased s e.1 t.toNat)
    (e.2.fills.filter fun f => f.running && (unitNode u == e.1 || f.ctxs.any hit)).foldl (fun s f =>
      let p := s.pkg e.1
      let s := s.setPkg e.1 { p with fills := p.fills.map fun g => if g.unit == f.unit then { g with running := false } else g }
      f.ctxs.foldl (fun s c => if (ckOf s e.1 c).st == .restoring then ckEnd s e.1 c 5 else s) s) s) s
/-- The next place in the order of detection (R431). -/
def nextFill (s : State) : Nat := s.pkgs.foldl (fun n e => e.2.fills.foldl (fun n f => max n (f.order + 1)) n) 0
/-- A unit is found failed (R418, R419): its launches end or lose a replica, it is fenced, every core learns of the loss, and the repair is
to come. -/
def failUnit (s : State) (u : HwUnit) : State :=
  let ctxs := unitCtxs s u
  let steered := steeredNow s
  let onTarget := steered.filter fun h => replicaOn (s.launch h) (s.launch h).reps.primary u
  let s := pinRequests s u
  let hs := s.launches.map Prod.fst
  let ended := hs.filter fun h => (s.launch h).st == .stopping
  let s := hs.foldl (failLaunch u) s
  let s := fence s u
  let s := hs.foldl (dropStops u ended) s
  let s := steered.foldl (moveSteering u) s
  let s := (onTarget.filter fun h => s.nextSteer.any fun e => e.2 == h).foldl (steeringRecord u) s
  let s := abandonTakes s (unitNode u)
  let s := abandonFills s u
  let s := hs.foldl checkDone s
  let s := refuseUnplaceable s
  let n := (unitNode u)
  let p := s.pkg n
  let same := fun (f : Fill) => f.unit == u || (unitHasCluster u (unitGid f.unit))
  let p := { p with
    fills := p.fills.filter (fun f => !same f) ++ [{ unit := u, order := nextFill s, ctxs, repaired := false, running := false }]
    log := { p.log with interruptions := p.log.interruptions + (match u with | .package _ => 1 | _ => 0) } }
  let s := match u with
    | .package _ => dueFallback s
    | _ => s
  (s.setPkg n p).due (((s.cores.filter fun e => e.2.status != .failed).map fun e => Event.lossDeclaration e.1 u) ++ [.lifeLogRecord n])
/-- A die's failure: that of a die without a spare left, too (R421). -/
def failDie (s : State) (d : Nat) : State :=
  if (unitClusters (.die d)).all fun g => (s.cluster g).status == .failed then s else failUnit s (.die d)
/-- A cluster's failure; a die with no spare left fails as a die (R421). -/
def failCluster (s : State) (gid : Nat) : State :=
  if (s.cluster gid).status == .failed || !decide (gid % 128 < 96) then s
  else if 4 ≤ (s.die (clusterDie gid)).sparesUsed + ((unitClusters (.die (clusterDie gid))).filter fun g => (s.cluster g).status == .failed).length then
    failDie s (clusterDie gid)
  else failUnit s (.cluster gid)
/-- A core's failure; with site 17 in use, or about to be, it is the cluster's (R420). -/
def failCore (s : State) (k : Nat) : State :=
  let gid := coreCluster k
  if (s.core k).status == .failed || (s.cluster gid).status == .failed then s
  else if (s.cluster gid).site17.isSome || !(s.cluster gid).failedCores.isEmpty then failCluster s gid
  else failUnit s (.core k)
/-- CORE_FAILURE_DETECTED (R418). -/
def execCoreFailureDetected (core : Nat) (s : State) : Host.Outcome State Fault Refusal := event (failCore s core)
/-- CLUSTER_FAILURE_DETECTED (R418). -/
def execClusterFailureDetected (cl : Nat) (s : State) : Host.Outcome State Fault Refusal := event (failCluster s cl)
/-- DIE_FAILURE_DETECTED (R418). -/
def execDieFailureDetected (die : Nat) (s : State) : Host.Outcome State Fault Refusal := event (failDie s die)
/-- PACKAGE_FAILURE_DETECTED (R418). -/
def execPackageFailureDetected (node : Nat) (s : State) : Host.Outcome State Fault Refusal :=
  event (if (s.pkg node).failed || !s.present.contains node then s else failUnit s (.package node))

/-! ### A loss declaration reaches a core (R416) -/

/-- An armed watch of a lost word. -/
def loseWatch (u : HwUnit) (w : Watch) : Watch := if w.armed && (unitHasAddr u) w.addr then { w with lost := true } else w
/-- The watches of a grain. -/
def loseWatches (u : HwUnit) (g : Grain) : Grain := { g with watches := g.watches.map (loseWatch u) }
/-- An outstanding operation of a grain whose owner is lost: a SEND fails here, the others meet the loss when they look again. -/
def loseOp (u : HwUnit) (l : Loc) (s : State) (p : Pend) : State :=
  match p.kind with
  | .send core ch _ =>
    if (unitHasCore u) core && sendHeld s l p.id core ch then
      let c := s.core core
      let s := s.setCore core { c with chans := c.chans.map fun q => { q with
        waiting := q.waiting.filter (fun t => !(t.2.1 == l && t.2.2 == p.id)), inFlight := q.inFlight.filter fun t => !(t.2.1 == l && t.2.2 == p.id) } }
      s.faultAt l p.pc .peerLost (BitVec.ofNat 64 (coreCluster core * 2 ^ 38))
    else s.dueOnce (.longLatencyResult l p.id)
  | .atomic _ _ _ _ => s.dueOnce (.excursionAtOwner l p.id)
  | .packet _ => s
  | _ => s.dueOnce (.longLatencyResult l p.id)
/-- The loss at one slot. -/
def loseAt (u : HwUnit) (s : State) (l : Loc) : State :=
  if !(s.slotAt l).occupied then s
  else
    let s := s.setGrainAt l (loseWatches u (s.grainAt l))
    ((s.grainAt l).pend.foldl (loseOp u l) s).wakeIf (fun w => w.onResult || w.onRetry || w == .pageFault) l
/-- Updates and far frees that a core sent to a lost owner (R150, R416). -/
def loseUpdates (u : HwUnit) (core : Nat) (s : State) : State :=
  (s.clusters.filter fun e => (unitHasCluster u) e.1).foldl (fun s e =>
    let mine := e.2.allUpdates.filter fun x => x.from_.core == core
    let frees := e.2.farFrees.filter fun f => f.where_ / 16 == core
    let c := s.cluster e.1
    let s := s.setCluster e.1 { c with
      updates := c.updates.filter (fun x => x.from_.core != core), heldUpdates := c.heldUpdates.filter (fun x => x.from_.core != core)
      farFrees := c.farFrees.filter fun f => f.where_ / 16 != core }
    let s := mine.foldl (fun s x =>
      s.raiseLaunch (clusterNode (coreCluster core)) x.req.launch .peerLost (BitVec.ofNat 64 x.req.acc.addr) (packed x.from_) x.rank (some 0) 0) s
    frees.foldl (fun s f =>
      s.raiseLaunch (clusterNode (coreCluster core)) f.launch .peerLost (BitVec.ofNat 64 f.addr) f.where_ f.rank (some 2) 0) s) s
/-- Packets on their way from a core to a lost one look again. -/
def losePackets (u : HwUnit) (core : Nat) (s : State) : State :=
  (((s.cluster (coreCluster core)).packets.filter fun p => (unitHasCore u) p.target).foldl fun s p =>
    s.dueOnce (match p.source with
      | some l => .migrationArrival l
      | none => .arrivalRetry p.target)) s
/-- LOSS_DECLARATION (R416): every request and wait of the core on the lost unit learns of it; a spilled waiter does so when it is
filled. -/
def execLossDeclaration (core : Nat) (unit : HwUnit) (s : State) : Host.Outcome State Fault Refusal :=
  let c := s.core core
  if c.status == .failed then event s
  else
    let s := s.setCore core { c with lost := if c.lost.contains unit then c.lost else c.lost ++ [unit] }
    let s := (coreLocs core).foldl (loseAt unit) s
    let gid := coreCluster core
    let x := s.cluster gid
    let s := s.setCluster gid { x with
      slates := x.slates.map (fun e => (e.1, { e.2 with grain := loseWatches unit e.2.grain }))
      watchTab := x.watchTab.filter fun w => !(unitHasCore unit) w.waiter.core }
    let s := losePackets unit core (loseUpdates unit core s)
    event (((s.cluster gid).cmds.filter fun y => y.st == .running).foldl (fun s y => s.dueOnce (.copyCommandComplete gid y.id)) s)

/-! ### Repair (R236, R420-R423, R431) -/

/-- Memory without the places of a range. -/
def zeroRange (s : State) (lo n : Nat) : State :=
  { s with mem := s.mem.filter (fun e => !(decide (lo ≤ e.1) && decide (e.1 < lo + n)))
           poison := s.poison.filter fun l => !(decide (lo / 32 ≤ l) && decide (l < (lo + n) / 32)) }
/-- A unit is repaired: its contexts receive the record of kind 8, and the head rewrites the repair maps (R417, R419, R433). -/
def repaired (s : State) (u : HwUnit) : State :=
  let p := s.pkg (unitNode u)
  let fs := p.fills.filter fun f => f.unit == u && !f.repaired
  let s := s.setPkg (unitNode u) { p with fills := match u with
    | .core _ => p.fills.filter fun f => f.unit != u
    | _ => p.fills.map fun f => if f.unit == u then { f with repaired := true } else f }
  let s := (fs.flatMap (·.ctxs)).foldl (fun s c =>
    s.errEntry (unitNode u) c (leBytes 8 0 ++ leBytes 2 0 ++ leBytes 1 0 ++ leBytes 1 8 ++ leBytes 4 0 ++ leBytes 8 ((unitGid u) * 2 ^ 38)
      ++ leBytes 8 (peerOf ((unitGid u) * 2 ^ 38)) ++ leBytes 8 (s.openField 1) ++ leBytes 8 0 ++ leBytes 8 (s.openField 2))) s
  dueRounds (rewriteRepairMaps s (unitNode u) u) (unitNode u)
/-- CORE_REPAIR (R420): site 17 takes the number of a failed core, with a scratchpad of zeros. -/
def execCoreRepair (core : Nat) (s : State) : Host.Outcome State Fault Refusal :=
  let gid := coreCluster core
  let c := s.cluster gid
  if (s.core core).status != .failed || c.status != .enabled || c.site17.isSome then event s
  else
    let s := s.setCluster gid { c with site17 := some (coreIndex core), failedCores := c.failedCores.filter (· != coreIndex core) }
    let s := s.setCore core { Core.reset with status := .running }
    event (repaired (zeroRange s (gid * 2 ^ 38 + coreIndex core * 0x20000) 98304) (.core core))
/-- The sealing key of a cluster's channel: from the device sealing secret and a fresh value of the entropy source, drawn at the boot or when
a spare was bound (R390); how it is derived the spec does not say. -/
def channelKey (s : State) (cl : Nat) : List Byte :=
  let p := s.pkg (clusterNode cl)
  beBytes 64 (Config.derived 7 [(Config.deviceSecret (clusterNode cl)).toNat, cl, ((PMap.get? cl p.hbmFresh).getD p.hbmSeed).toNat]).toNat
/-- What a channel holds of a line: sealed with the line's number as the tweak (R389, R390). -/
def hbmSealed (s : State) (line : Nat) : List Byte :=
  xtsUnit (channelKey s (32 * line / 2 ^ 38)) line (s.mem.bytes (32 * line) 32)
/-- CLUSTER_REPAIR (R421): a spare takes the number and the channel; memory starts zero under a fresh key. -/
def execClusterRepair (cl : Nat) (s : State) : Host.Outcome State Fault Refusal :=
  let d := s.die (clusterDie cl)
  if (s.cluster cl).status != .failed || 4 ≤ d.sparesUsed || (s.pkg (clusterNode cl)).failed then event s
  else
    let s := s.setDie (clusterDie cl) { d with sparesUsed := d.sparesUsed + 1 }
    let p := s.pkg (clusterNode cl)
    let s := s.ticked.setPkg (clusterNode cl) { p with hbmFresh := PMap.set cl (Config.freeWord s.tick 7) p.hbmFresh }
    let s := s.setCluster cl { Cluster.reset with spareBound := true, sramVersion := (s.cluster cl).sramVersion }
    let s := (List.range 17).foldl (fun s i => s.setCore (cl * 32 + i) { Core.reset with status := .running }) s
    event (repaired (zeroRange s (cl * 2 ^ 38) (2 ^ 38)) (.cluster cl))
/-- A cluster after reset: the repair maps are applied (R432), a unit repaired since they were written has failed again, and the counters of
the head SRAM stay (R392). -/
def resetCluster (maps : List (Nat × Option Nat)) (g : Nat) (c : Cluster) : Cluster :=
  let site := maps.findSome? fun e => if e.1 = g then e.2 else none
  let bound := maps.contains (g, none)
  { Cluster.reset with
    status := if c.status == .failed || (c.spareBound && !bound) then .failed else .enabled
    quarantines := c.quarantines, spareBound := bound, site17 := site, sramVersion := c.sramVersion
    failedCores := c.failedCores ++ c.site17.toList.filter fun i => site != some i }
/-- The cores of a package as step 5 releases them, a failed core excepted. -/
def releasedCores (s : State) (node : Nat) : PMap Core :=
  (unitClusters (.package node)).flatMap fun g => (List.range 17).map fun i =>
    (g * 32 + i, { Core.reset with
      status := if (s.cluster g).status == .failed || (s.cluster g).failedCores.contains i then CoreStatus.failed else CoreStatus.running })
/-- The machine of a package starts afresh: cores in reset, or released after step 5; nothing in its memory is readable (R390, R432). -/
def resetPackage (s : State) (node : Nat) (release : Bool) : State :=
  let mine := fun (k : Nat) => clusterNode (coreCluster k) == node
  let cores := s.cores.filter fun e => !mine e.1
  let lo := cores.filter fun e => decide (coreCluster e.1 < node * 512)
  let hi := cores.filter fun e => !decide (coreCluster e.1 < node * 512)
  let maps := (repairMap (s.pkg node)).filter fun e => clusterNode e.1 == node
  let s := maps.foldl (fun s e => (s.setCluster e.1 (s.cluster e.1)).setDie (clusterDie e.1) (s.die (clusterDie e.1))) s
  let s := { s with clusters := s.clusters.map (fun e => if clusterNode e.1 = node then (e.1, resetCluster maps e.1 e.2) else e) }
  let fresh := if release then releasedCores s node else []
  let s := { s with
    cores := (lo ++ fresh ++ hi).map (fun e => (e.1, { e.2 with lost := e.2.lost.filter (· != HwUnit.package node) }))
    dies := s.dies.map (fun (e : Nat × Die) => if e.1 / 4 = node then (e.1, { Die.reset with sparesUsed := (maps.filter fun m => m.2.isNone && clusterDie m.1 == e.1).length }) else e)
    agenda := fenceEvents (.package node) s.agenda }
  zeroRange s (node * 2 ^ 47) (2 ^ 47)
/-- The contexts of a package after its reset: none but context 0; the counters of the head SRAM stay (R392). -/
def resetCtxs (p : Pkg) : PMap Context :=
  PMap.set 0 { Context.reset with st := .live }
    ((p.ctxs.filter fun e => e.2.counter != 0).map fun e => (e.1, { Context.reset with counter := e.2.counter }))
/-- A package as a reset leaves it, its boot done: no queue, no context (R422); what has failed there stays fenced (R418). -/
def freshPackage (s : State) (n : Nat) : State :=
  let p := s.pkg n
  let s := s.setPkg n { p with
    queues := [], graphs := [], ctxs := resetCtxs p, cks := [], reports := [], completions := [], rrQueue := [],
    keys := [], pendingKeys := [], windows := [], aliases := p.aliases, sessions := [], spdm := .start, reply := .none }
  resetPackage s n true
/-- The alias repairs the failed package, and a die of it that failed (R421, R422): the fills move to the spare, in their order. -/
def aliasRepaired (s : State) (failed spare : Nat) : State :=
  let due := (s.pkg failed).fills.filter fun f => !f.repaired
  let s := due.foldl (fun s f => repaired s f.unit) s
  let old := s.pkg failed
  let s := s.setPkg failed { old with fills := old.fills.filter fun f => !due.any fun g => g.unit == f.unit }
  let p := s.pkg spare
  s.setPkg spare { p with fills := p.fills ++ due.map fun f => { f with unit := .package spare, repaired := true, running := false } }
/-- NODE_ALIAS_INSTALL (R422): the spare is reset, then every router maps the failed node number to it; a table holds 256 entries. -/
def execNodeAliasInstall (failed : Nat) (spare : Nat) (s : State) : Host.Outcome State Fault Refusal :=
  let ok := s.present.contains spare && !(s.pkg spare).failed && s.present.all fun n =>
    decide ((s.pkg n).aliases.length < 256) || (PMap.get? failed (s.pkg n).aliases).isSome
  if !ok then event s
  else
    let s := freshPackage s spare
    let s := s.present.foldl (fun s n =>
      let p := s.pkg n
      s.setPkg n { p with aliases := PMap.set failed spare p.aliases }) s
    event (aliasRepaired s failed spare)
/-- QUARANTINE_SELF_TEST (R423): a cluster that passes returns to service, unless it was quarantined twice within 24 hours. -/
def execQuarantineSelfTest (cl : Nat) (pass : Bool) (s : State) : Host.Outcome State Fault Refusal :=
  let c := s.cluster cl
  if c.status != .quarantined then event s
  else
    let again := match c.quarantines with
      | a :: b :: _ => decide (a < b + 86400)
      | _ => false
    let s := s.due [.lifeLogRecord (clusterNode cl)]
    if pass && !again then
      let s := s.logged (clusterNode cl) fun x => { x with returned := x.returned + 1 }
      event (dueRounds (s.setCluster cl { c with status := .enabled }) (clusterNode cl))
    else event (failCluster (s.logged (clusterNode cl) fun x => { x with replaced := x.replaced + 1 }) cl)
/-- A fill concerns a die: the die of its unit, or every die of its package. -/
def Fill.onDie (f : Fill) (die : Nat) : Bool := (unitHasCluster f.unit) (die * 128) || clusterDie (unitGid f.unit) == die
/-- A fill may begin (R431): none runs on its die, and of the fills of one job, which share a context, none runs and none was detected
earlier. -/
def fillMayRun (s : State) (n : Nat) (f : Fill) : Bool :=
  ((s.pkg n).fills.all fun g => !(g.running && (List.range 4).any fun d => f.onDie (4 * n + d) && g.onDie (4 * n + d)))
    && s.pkgs.all fun e => e.2.fills.all fun g => !(g.ctxs.any fun c => f.ctxs.contains c) || (!g.running && decide (f.order ≤ g.order))
/-- SPARE_FILL (R431): the first repaired unit in order of detection begins its fill; the fill ends with the restore that R429 describes, and
that of a unit on which no context had data with the zeroing. -/
def execSpareFill (die : Nat) (s : State) : Host.Outcome State Fault Refusal :=
  let n := die / 4
  let p := s.pkg n
  match p.fills.find? fun f => f.onDie die && f.repaired && !f.running && fillMayRun s n f with
  | none => event s
  | some f =>
    if f.ctxs.isEmpty then event (s.setPkg n { p with fills := p.fills.filter fun g => g.unit != f.unit })
    else
      let s := s.setPkg n { p with fills := p.fills.map fun g => if g.unit == f.unit then { g with running := true } else g }
      event (f.ctxs.foldl (fun s c => if (ckOf s n c).st == .restoring then s.dueOnce (.checkpointRestore n c) else s) s)
/-- CORE_RESET_AFTER_HALT (R236): once the closed core holds no grain, it is reset and returns to service. -/
def execCoreResetAfterHalt (core : Nat) (s : State) : Host.Outcome State Fault Refusal :=
  let c := s.core core
  if c.status != .closing then event s
  else if c.slots.toList.any (fun sl => sl.st != .empty && sl.st != .halted) || !c.runQ.isEmpty || c.filling.isSome || !c.buffer.isEmpty then
    event (s.dueOnce (.coreResetAfterHalt core))
  else
    let base := coreCluster core * 2 ^ 38 + coreIndex core * 0x20000
    let fresh := { Core.reset with
      status := .running, l1Split := c.l1Split, prot := c.prot, chans := c.chans, staggerStep := c.staggerStep, sliceCycles := c.sliceCycles,
      chanWatchdog := c.chanWatchdog, trapCause := c.trapCause, trapInfo := c.trapInfo, halts := c.halts,
      partitions := c.partitions, wholder := c.wholder, wsaves := c.wsaves, icache := c.icache, lost := c.lost }
    let s := s.setCore core fresh
    let s := { s.ticked with mem := s.mem.writeBytes base ((List.range (scratchSize c.l1Split)).map fun i => Config.freeByte s.tick i) }
    let node := clusterNode (coreCluster core)
    let s := s.due (((s.cluster (coreCluster core)).packets.filter fun p => p.target == core).map fun _ => .arrivalRetry core)
    let s := s.logged node fun x => { x with coreErrors := PMap.set core ((PMap.get? core x.coreErrors).getD 0 + 1) x.coreErrors }
    event (dueRounds s node)

end Sys2Proof.Machine
end

