-- ==== Sys2Proof/Machine/EvFabric.lean ====
section
/-! DEFINITION. The package torus, the fabric ports, congestion windows, resends and the link keys
(spec/21_host_links_and_fabric.md R409-R415, spec/20_protection_keys_receipts.md R391, R393). -/

namespace Sys2Proof.Machine

/-! ### Routers (R409-R411) -/

/-- The productive output of a flit at a cluster, X before Y, each in its shorter direction, a tie going east or north; none where it is
at its target (R410). -/
def productive (gid target : Nat) : Option Dir :=
  let p := torusPos gid
  let t := torusPos target
  let dx := (t.1 + 24 - p.1) % 24
  let dy := (t.2 + 16 - p.2) % 16
  if dx ≠ 0 then some (if dx ≤ 12 then .east else .west)
  else if dy ≠ 0 then some (if dy ≤ 8 then .north else .south)
  else none
/-- The order of outputs in the deflection pass. -/
def outputs : List Dir := [.east, .north, .west, .south]
/-- The side on which a flit enters the next router. -/
def opposite : Dir → Dir
  | .east => .west
  | .west => .east
  | .north => .south
  | .south => .north
/-- A cluster within its package, as a header names it: die [8:7], cluster [6:0] (R409). -/
def flitPlace (gid : Nat) : BitVec 9 := BitVec.ofNat 9 gid
/-- The code of a flit type (R409). -/
def FlitType.code : FlitType → BitVec 4
  | .request => 0#4 | .response => 1#4 | .atomic => 2#4 | .migration => 3#4 | .spawn => 4#4 | .update => 5#4 | .wake => 6#4 | .pair => 7#4
  | .management => 8#4
/-- The 16-byte header of a flit (R409). -/
def TorusFlit.header (f : TorusFlit) : BitVec 128 :=
  f.tag ++ (0#9 ++ (f.slot ++ (f.core ++ (f.ctx ++ (f.type.code ++ (BitVec.ofNat 12 f.age ++ (flitPlace f.src ++ flitPlace f.target)))))))
/-- A flit comes before another: older, or of equal age with the smaller src and tag. -/
def TorusFlit.before (a b : TorusFlit) : Bool := decide (b.age < a.age) || (a.age == b.age && (decide (a.src < b.src) || (a.src == b.src && decide (a.tag.toNat ≤ b.tag.toNat))))
/-- Puts a flit in its place in the order. -/
def insertFlit (f : TorusFlit) : List TorusFlit → List TorusFlit
  | [] => [f]
  | g :: r => if f.before g then f :: g :: r else g :: insertFlit f r
/-- A router's assignment so far: outputs taken, ejection ports used, flits that found their output taken. -/
structure Routed where
  out : List (Dir × TorusFlit)
  ejected : Nat
  left : List TorusFlit
  deriving DecidableEq, Repr
/-- An output is taken. -/
def Routed.taken (r : Routed) (d : Dir) : Bool := r.out.any fun e => e.1 == d
/-- The productive pass for one flit. -/
def routeProductive (gid : Nat) (r : Routed) (f : TorusFlit) : Routed :=
  match productive gid f.target with
  | none => if r.ejected < 2 then { r with ejected := r.ejected + 1 } else { r with left := r.left ++ [f] }
  | some d => if r.taken d then { r with left := r.left ++ [f] } else { r with out := r.out ++ [(d, f)] }
/-- The deflection pass for one flit. -/
def routeDeflected (r : Routed) (f : TorusFlit) : Routed :=
  match outputs.find? fun d => !r.taken d with
  | some d => { r with out := r.out ++ [(d, f)] }
  | none => { r with left := r.left ++ [f] }
/-- The flits that arrive in one clk, one from each neighbour. -/
def arriving (fs : List TorusFlit) : List TorusFlit := outputs.filterMap fun d => fs.find? fun f => f.inPort == some d
/-- The assignment of arriving flits, both passes (R410). -/
def routeArrivals (gid : Nat) (fs : List TorusFlit) : Routed :=
  let r := (fs.foldr insertFlit []).foldl (routeProductive gid) ⟨[], 0, []⟩
  r.left.foldl routeDeflected { r with left := [] }
/-- The flit that waits to be injected enters a productive output that is still free. -/
def routeInjected (gid : Nat) (r : Routed) (f : TorusFlit) : Option Routed :=
  match productive gid f.target with
  | none => if r.ejected < 2 then some { r with ejected := r.ejected + 1 } else none
  | some d => if r.taken d then none else some { r with out := r.out ++ [(d, f)] }
/-- A flit leaves a router for the next, one clk older, its age stopping at 4,095. -/
def sendFlit (gid : Nat) (s : State) (e : Dir × TorusFlit) : State :=
  let n := neighbour gid e.1
  let c := s.cluster n
  s.setCluster n { c with flits := c.flits ++ [{ e.2 with age := min 4095 (e.2.age + 1), inPort := some (opposite e.1) }] }
/-- ROUTER_CYCLE (R410): one flit from each neighbour and one injection are assigned; flits for this cluster leave through its two
ejection ports. -/
def execRouterCycle (cl : Nat) (s : State) : Host.Outcome State Fault Refusal :=
  let c := s.cluster cl
  let ins := arriving c.flits
  let r := routeArrivals cl ins
  let inj := c.flits.find? fun f => f.inPort == none
  let (r, done) := match inj with
    | some f => match routeInjected cl r f with
      | some r => (r, [f])
      | none => (r, [])
    | none => (r, [])
  let s := s.setCluster cl { c with flits := (ins ++ done).foldl List.erase c.flits }
  event (r.out.foldl (sendFlit cl) s)

/-! ### Fabric ports (R10, R412, R413) -/

/-- Changes a fabric port of a package. -/
def State.onPort (s : State) (node : Nat) (i : Fin 6) (f : Port → Port) : State :=
  let p := s.pkg node
  s.setPkg node { p with ports := p.ports.set i (f p.ports[i]) }
/-- The direction on one axis, the shorter way, a tie going up (R415). -/
def axisPort (n a b : Nat) (up down : Fin 6) : Option (Fin 6) :=
  let d := (b + n - a) % n
  if d = 0 then none else some (if 2 * d ≤ n then up else down)
/-- The port of a minimal dimension-ordered route, X then Y then Z (R10, R12, R415); ports 0 to 5 are +x, -x, +y, -y, +z, -z
(notes/assumptions/26.md). -/
def portToward (node target : Nat) : Option (Fin 6) :=
  (axisPort 32 (node % 32) (target % 32) 0 1).orElse fun _ =>
    (axisPort 64 (node / 32 % 64) (target / 32 % 64) 2 3).orElse fun _ =>
      axisPort 64 (node / 2048 % 64) (target / 2048 % 64) 4 5
/-- The tier that has a flit slot: one that has waited 1,024 flit times, T1 before T2, else the highest with a flit and a credit (R413). -/
def Port.nextTier (p : Port) (credit : Fin 3 → Bool) : Option (Fin 3) :=
  (([0, 1, 2] : List (Fin 3)).find? fun t => decide (0 < p.queued[t]) && credit t && decide (1024 ≤ p.waited[t])).orElse fun _ =>
    ([0, 1, 2] : List (Fin 3)).find? fun t => decide (0 < p.queued[t]) && credit t
/-- Whether the buffer at the far end of a port has a credit for a tier (R412): free, the spec gives no buffer sizes
(notes/assumptions/26.md). -/
def tierCredits (s : State) (t : Fin 3) : Bool := Config.choice s.tick t.val % 2 == 1
/-- One flit slot goes to a tier; the other tiers that hold flits have waited one more flit time. -/
def Port.grant (p : Port) (t : Fin 3) : Port :=
  { p with
    queued := p.queued.set t (p.queued[t] - 1)
    sent := p.sent.set t (p.sent[t] + 1)
    waited := Vector.ofFn fun i => if i = t then 0 else if p.queued[i] = 0 then 0 else p.waited[i] + 1 }
/-- TIER_STARVATION_GRANT (R413): the next flit slot of a port; where no tier has a credit, each that holds flits has waited one more. -/
def execTierStarvationGrant (node : Nat) (port : Fin 6) (s : State) : Host.Outcome State Fault Refusal :=
  event (s.ticked.onPort node port fun p => if !p.up then p else match p.nextTier (tierCredits s) with
    | some t => p.grant t
    | none => { p with waited := Vector.ofFn fun i => if p.queued[i] = 0 then 0 else p.waited[i] + 1 })
/-- LINK_TRAIN_DOWN (R412): a port of 24 lanes goes on with 12, and the life log counts it. -/
def execLinkTrainDown (node : Nat) (port : Fin 6) (s : State) : Host.Outcome State Fault Refusal :=
  if (s.pkg node).ports[port].lanes != 24 then event s
  else event ((s.onPort node port fun p => { p with lanes := 12 }).logged node fun x =>
    { x with trainDowns := (List.range 6).map fun i => x.trainDowns.getD i 0 + (if i = port.val then 1 else 0) })
/-- FABRIC_FALLBACK (R415): the package's routers adopt fall-back. -/
def execFabricFallback (node : Nat) (s : State) : Host.Outcome State Fault Refusal :=
  event (s.setPkg node { s.pkg node with fallback := true })
/-- LINK_AUTH_FAILURE (R391): the group is discarded and resent; 16 failures in a row take the link down. Whether a group has been
accepted since the last failure is free (notes/assumptions/26.md). -/
def execLinkAuthFailure (node : Nat) (port : Fin 6) (s : State) : Host.Outcome State Fault Refusal :=
  let p := (s.pkg node).ports[port]
  let fresh := decide (p.authFails = 0) || Config.choice s.tick 0 % 2 == 1
  let n := if fresh then 1 else p.authFails + 1
  let s := s.ticked.onPort node port fun p => { p with authFails := n, resends := p.resends + 1 }
  event (if n = 16 then dueFallback (s.onPort node port fun p => { p with up := false }) else s)

/-! ### Congestion windows (R414) -/

/-- A source's window toward a target package and tier. -/
def congWindow (p : Pkg) (target : Nat) (tier : Nat) : Nat :=
  match p.windows.find? fun w => w.target == target && w.tier == tier with
  | some w => w.size
  | none => 256
/-- Replaces a window. -/
def setCongWindow (s : State) (node target tier n : Nat) (quiet : Bool) : State :=
  let p := s.pkg node
  s.setPkg node { p with windows := (p.windows.filter fun w => !(w.target == target && w.tier == tier)) ++ [⟨target, tier, n, quiet⟩] }
/-- CONGESTION_NOTICE (R414): the window is halved, down to 8. -/
def execCongestionNotice (node : Nat) (target : Nat) (tier : Fin 3) (s : State) : Host.Outcome State Fault Refusal :=
  event (setCongWindow s node target tier.val (max 8 (congWindow (s.pkg node) target tier.val / 2)) false)
/-- WINDOW_GROWTH_TIMER (R414): 4 µs end; the window grows by one unless a notice came in them. -/
def execWindowGrowthTimer (node : Nat) (target : Nat) (tier : Fin 3) (s : State) : Host.Outcome State Fault Refusal :=
  let quiet := ((s.pkg node).windows.find? fun w => w.target == target && w.tier == tier.val).all (·.quiet)
  event (setCongWindow s node target tier.val (congWindow (s.pkg node) target tier.val + if quiet then 1 else 0) true)

/-! ### Link keys (R391, R393) -/

/-- The key slots of a context on a port. -/
def keyIndex (port : Fin 6) (ctx : BitVec 12) : Nat := port.val * 4096 + ctx.toNat
/-- The four slots. -/
def keySlots (p : Pkg) (k : Nat) : Vector KeySlot 4 := (PMap.get? k p.keys).getD (Vector.replicate 4 KeySlot.empty)
/-- Replaces a slot. -/
def setKeySlot (s : State) (node k : Nat) (i : Fin 4) (x : KeySlot) : State :=
  let p := s.pkg node
  s.setPkg node { p with keys := PMap.set k ((keySlots p k).set i x) p.keys }
/-- The slot in a state. -/
def slotIn (p : Pkg) (k : Nat) (st : KeySt) : Option (Fin 4) := (List.finRange 4).find? fun i => (keySlots p k)[i].st == st
/-- Installs a key in the first empty slot; without one the install waits. -/
def installKey (s : State) (node k : Nat) (key : KeyPair) : State :=
  let p := s.pkg node
  match slotIn p k .empty with
  | some i => setKeySlot s node k i { KeySlot.empty with st := .ready, key := some key }
  | none => s.setPkg node { p with pendingKeys := p.pendingKeys ++ [(k, key)] }
/-- KEY_INSTALL (R393). -/
def execKeyInstall (node : Nat) (port : Fin 6) (ctx : BitVec 12) (key : KeyPair) (s : State) : Host.Outcome State Fault Refusal :=
  event (installKey s node (keyIndex port ctx) key)
/-- The address an outstanding operation waits at, when it is a request to an owner (R416). -/
def PendKind.owner (k : PendKind) : Option Nat :=
  match k with
  | .load a .. | .ldrec a _ | .seqadd a _ | .mldc a _ | .wbld a _ => some a.addr
  | .atomic r .. => some r.acc.addr
  | .send core .. => some (coreCluster core * 2 ^ 38)
  | .net step _ q n _ => some (portCluster (linkExchange q n step).1 * 2 ^ 38)
  | .push x _ _ => some (portCluster (portref x) * 2 ^ 38)
  | _ => none
/-- The port of a request's route, from the package it leaves. -/
def requestPort (s : State) (node addr : Nat) : Option (Fin 6) := portToward node (aliased s node addr / 2 ^ 47)
/-- A read of an input stream is on its way to an address. -/
def streamReads (s : State) (l : Loc) (n : Fin 4) : Option Nat :=
  let st := (s.grainAt l).streams[n]
  if st.bound && !st.output && s.agenda.contains (.inputStreamFetch l n) && decide (st.walked < st.total) then some (st.elemAt s l st.walked)
  else none
/-- Requests of a context outstanding on a port: operations and stream reads of grains, and pulls of engines. -/
def requestsOn (s : State) (node : Nat) (port : Fin 6) (ctx : BitVec 12) : List KeyReq :=
  let locs := s.allLocs.filter fun l => clusterNode (coreCluster l.core) == node && (s.grainAt l).ctx == ctx
  let reads := locs.flatMap fun l => (List.finRange 4).filterMap fun n => match streamReads s l n with
    | some a => if requestPort s node a == some port then some (KeyReq.stream l n) else none
    | none => none
  let ops := locs.flatMap fun l =>
    (s.grainAt l).pend.filterMap fun p => match p.kind.owner with
      | some a => if requestPort s node a == some port then some (KeyReq.op (s.grainAt l).key p.id) else none
      | none => none
  let cmds := (s.clusters.filter fun e => clusterNode e.1 == node).flatMap fun e =>
    (e.2.cmds.filter fun x => x.pull && x.ctx == ctx && x.st == .running && requestPort s node x.src == some port).map fun x => KeyReq.cmd e.1 x.id
  ops ++ reads ++ cmds
/-- A request has not been answered. -/
def stillOut (s : State) (r : KeyReq) : Bool :=
  match r with
  | .op who id => s.allLocs.any fun l => (s.grainAt l).key == who && (s.grainAt l).isPending id
  | .stream l n => (streamReads s l n).isSome
  | .cmd cl id => (s.cluster cl).cmds.any fun x => x.id == id && x.st == .running
/-- KEY_ACTIVATE (R393): the slot becomes the active one, the old one drains the requests sealed under it. -/
def execKeyActivate (node : Nat) (port : Fin 6) (ctx : BitVec 12) (slot : Fin 4) (s : State) : Host.Outcome State Fault Refusal :=
  let k := keyIndex port ctx
  let x := (keySlots (s.pkg node) k)[slot]
  if x.st != .ready then event s
  else
    let out := requestsOn s node port ctx
    let s := match slotIn (s.pkg node) k .active with
      | some i =>
        let slots := keySlots (s.pkg node) k
        let other := slots.toList.flatMap (·.requests)
        setKeySlot s node k i { slots[i] with st := .draining, requests := out.filter fun r => !other.contains r }
      | none => s
    event (setKeySlot s node k slot { x with st := .active })
/-- The far end has acknowledged a slot's last posted flit (R393): free (notes/assumptions/26.md). -/
def postedAcked (s : State) : Bool := Config.choice s.tick 6 % 2 == 1
/-- KEY_SLOT_RETIRE (R393): a draining slot without outstanding requests, its last posted flit acknowledged, is erased, and an install that
waits proceeds. -/
def execKeySlotRetire (node : Nat) (port : Fin 6) (ctx : BitVec 12) (slot : Fin 4) (s : State) : Host.Outcome State Fault Refusal :=
  let k := keyIndex port ctx
  let x := (keySlots (s.pkg node) k)[slot]
  if x.st != .draining || x.requests.any (stillOut s) then event s
  else if !postedAcked s then event s.ticked
  else
    let s := setKeySlot s node k slot KeySlot.empty
    let p := s.pkg node
    match p.pendingKeys.find? fun e => e.1 == k with
    | some e => event (installKey (s.setPkg node { p with pendingKeys := p.pendingKeys.erase e }) node k e.2)
    | none => event s

/-! ### Resends (R391, R415, R416) -/

/-- A flit of a context enters a tier of a port, in a group sealed under the active slot: the seventh flit closes its group, an earlier one may,
and the tag flit follows it. A context whose slot has used up its group counter sends nothing until another slot is activated (R391, R393;
notes/assumptions/26.md). -/
def queueFlit (s : State) (node : Nat) (port : Fin 6) (ctx : BitVec 12) (tier : Fin 3) : State :=
  let put := fun (s : State) => s.onPort node port fun p => { p with queued := p.queued.set tier (p.queued[tier] + 1) }
  let k := keyIndex port ctx
  match slotIn (s.pkg node) k .active with
  | some i =>
    let x := (keySlots (s.pkg node) k)[i]
    if x.group < 2 ^ 62 - 1 then
      if x.inGroup == 6 || Config.choice s.tick 5 % 2 == 1 then put (put (setKeySlot s.ticked node k i { x with group := x.group + 1, inGroup := 0 }))
      else put (setKeySlot s.ticked node k i { x with inGroup := x.inGroup + 1 })
    else s
  | none => put s
/-- The flit of a SEND leaves the channel it was on the way to (R416). -/
def dropSend (s : State) (l : Loc) (p : Pend) : State :=
  match p.kind with
  | .send core _ _ =>
    let c := s.core core
    s.setCore core { c with chans := c.chans.map fun q => { q with
      waiting := q.waiting.filter (fun t => !(t.2.1 == l && t.2.2 == p.id)), inFlight := q.inFlight.filter fun t => !(t.2.1 == l && t.2.2 == p.id) } }
  | _ => s
/-- A request gets no response: its owner does not answer, or the route's first link is down before the fall-back (R415). -/
def unanswered (s : State) (node a : Nat) (port : Fin 6) : Bool :=
  !s.reachable (aliased s node a) || (!((s.pkg node).ports[port]).up && !(s.pkg node).fallback)
/-- REQUEST_RESEND_TIMEOUT (R415): a request to another package that has no response is resent, three times at most; then its owner is
lost (R416). The owner performs a request once, whatever is resent. A grain on its way is lost at its arrival. -/
def execRequestResendTimeout (loc : Loc) (op : Nat) (s : State) : Host.Outcome State Fault Refusal :=
  match pendAt s loc op with
  | none => event s
  | some p => match p.kind.owner with
    | none => event (match p.kind with
      | .packet t => s.dueOnce (.arrivalRetry t)
      | _ => s)
    | some a =>
      let node := clusterNode (coreCluster loc.core)
      match requestPort s node a with
      | none => event s
      | some port =>
        let g := s.grainAt loc
        let n := (PMap.get? op g.resent).getD 0
        if !unanswered s node a port then event s
        else if n < 3 then event (queueFlit (s.setGrainAt loc { g with resent := PMap.set op (n + 1) g.resent }) node port g.ctx 0)
        else event ((dropSend s loc p).faultAt loc p.pc .peerLost (BitVec.ofNat 64 a))

end Sys2Proof.Machine
end

