-- ==== Sys2Proof/Machine/EvPower.lean ====
section
/-! DEFINITION. Boot, configuration flash, power and the life log (spec/23_bringup_power_life_log.md R432-R437,
spec/20_protection_keys_receipts.md R400, R402). -/

namespace Sys2Proof.Machine

/-! ### The records of the life log (R436) -/

/-- Counters are 64 bits wide and saturate. -/
def saturated (n : Nat) : Nat := min n (2 ^ 64 - 1)
/-- The counters as a record shows them. -/
def LogCounters.shown (c : LogCounters) : LogCounters :=
  { poweredSec := saturated c.poweredSec, interruptions := saturated c.interruptions, votes := saturated c.votes,
    quarantines := saturated c.quarantines, returned := saturated c.returned, replaced := saturated c.replaced, droops := saturated c.droops,
    trips := saturated c.trips, powerOns := saturated c.powerOns, unclean := saturated c.unclean,
    trainDowns := c.trainDowns.map saturated, spills := c.spills.map (fun e => (e.1, saturated e.2)), fills := c.fills.map (fun e => (e.1, saturated e.2)),
    coreErrors := c.coreErrors.map (fun e => (e.1, saturated e.2)), sensed := c.sensed.map saturated }
/-- How many quantities the sensors count: corrected and uncorrectable errors of each core and channel, four dies' buckets of far-load
latency and of temperature, and throttled clk. -/
def sensedCount : Nat := 2 * (6528 + 384) + 4 * 16 + 4 * 16 + 1
/-- What the sensors have counted since the last record is free, and so is the powered time since then, 600 s at most. -/
def sense (tick : Nat) (x : LifeLog) : LifeLog :=
  { x with
    poweredSec := x.poweredSec + Config.choice tick 0 % 601
    sensed := (List.range sensedCount).map fun i => x.sensed.getD i 0 + Config.choice tick (i + 1) }
/-- Appends a record with the counters as they stand: the ring keeps the newest (R436). -/
def appendRecord (tick : Nat) (crcOk : Bool) (x : LifeLog) : LifeLog :=
  let x := sense tick x
  let all := x.records ++ [{ seq := x.next, counters := x.toLogCounters.shown, crcOk }]
  { x with next := x.next + 1, records := all.drop (all.length - max 1 Config.logCapacity) }

/-! ### Boot (R432) -/

/-- Extends a measurement register: M := SHA-384(M ‖ digest) (R402). -/
def extendReg (p : Pkg) (i : Fin 17) (digest : BitVec 384) : Pkg :=
  { p with measurements := p.measurements.set i (sha384 (p.measurements[i] ++ beBytes 48 digest.toNat)) }
/-- What becomes of a step that needs a region: its digest extends a register, or no copy is accepted. -/
def loadRegion (r : FlashRegion) (i : Fin 17) (p : Pkg) : Option Pkg := (acceptedCopy p r).map fun x => extendReg p i x.digest
/-- The step of 2 to 7 in which the head firmware extends the register of its `j`-th stage: free (R402; notes/assumptions/28.md). -/
def stageStep (j : Nat) : Nat := 2 + Config.choice 0 j % 6
/-- Registers 9 to 16 that the head firmware extends in a step. -/
def extendStages (img : BootImages) (step : Nat) (p : Pkg) : Pkg :=
  ((img.stages.take 8).zipIdx.filter fun e => stageStep e.2 == step).foldl
    (fun p e => extendReg p ⟨(9 + e.2) % 17, Nat.mod_lt _ (by decide)⟩ e.1) p
/-- The DeviceID private key, a function of the device secret (R400). -/
def deviceKey (node : Nat) : Nat := privateKey (Config.derived 2 [(Config.deviceSecret node).toNat])
/-- The device identity digest: SHA-384 of the DeviceID public key in uncompressed form (R400). -/
def deviceIdentity (node : Nat) : List Byte := sha384 (sec1 (publicKey (deviceKey node)))
/-- The alias key, derived from the device secret and all sixteen registers (R400). -/
def deriveAlias (node : Nat) (p : Pkg) : BitVec 768 :=
  Config.derived 3 ((Config.deviceSecret node).toNat :: (p.measurements.toList.drop 1).map beNat)
/-- The alias public key, as its certificate holds it. -/
def aliasPublic (p : Pkg) : List Byte := sec1 (publicKey (privateKey (p.aliasKey.getD 0#768)))
/-- A package after power-good and before step 1: the flash, the life log and the counters of the head SRAM stay. -/
def powered (p : Pkg) : Pkg :=
  { Pkg.reset with
    flash := p.flash, log := p.log, ctxs := resetCtxs p
    fills := p.fills.filter fun f => match f.unit with
      | .package _ => false
      | _ => true }
/-- A step of the boot that needs a region; without an accepted copy the package stays in recovery mode, the steps before it done. -/
def bootStep (p : Pkg) (n : Nat) (f : Pkg → Option Pkg) : Pkg :=
  if p.recovery then p
  else match f p with
    | some q => { q with boot := n }
    | none => { p with recovery := true }
/-- Step 7: the life log's power-on record; then the alias key and its certificate, once every register is final (R400, R432). -/
def bootLast (node tick : Nat) (img : BootImages) (p : Pkg) : Pkg :=
  let p := extendStages img 7 (extendReg p 8 img.lifeLogSchema)
  let log := { p.log with powerOns := p.log.powerOns + 1, unclean := p.log.unclean + (if p.log.cleanStop then 0 else 1), cleanStop := true }
  let p := { p with log := appendRecord tick true log, aliasKey := some (deriveAlias node p) }
  { p with aliasCert := ecdsa (deviceKey node) (aliasPublic p) }
/-- The boot of the head complex, step by step (R432); the cores are another matter. -/
def bootHead (node tick : Nat) (img : BootImages) (p : Pkg) : Pkg :=
  let p := { extendReg (powered p) 1 img.rom with identity := deviceIdentity node, boot := 1 }
  let p := bootStep p 2 fun p => (loadRegion .headFw 2 p).map (extendStages img 2)
  let p := bootStep p 3 fun p => ((loadRegion .repair 4 p).bind (loadRegion .sku 5)).map (extendStages img 3)
  let p := bootStep p 4 fun p =>
    (loadRegion .hbmTables 7 p).map fun p => { extendStages img 4 p with hbmSeed := Config.freeWord tick 7, hbmFresh := [] }
  let p := bootStep p 5 fun p => (loadRegion .prefect 3 p).map (extendStages img 5)
  let p := bootStep p 6 fun p => (loadRegion .linkFw 6 p).map (extendStages img 6)
  bootStep p 7 fun p => if (acceptedCopy p .deviceCert).isNone then none else some (bootLast node tick img p)
/-- Ends what still ran on a package, as its failure does (R419). -/
def losePackage (s : State) (node : Nat) : State := if (s.pkg node).failed || (s.pkg node).boot = 0 then s else failUnit s (.package node)
/-- POWER_GOOD_BOOT (R432): power-good starts the whole sequence; what the package ran before is lost. -/
def execPowerGoodBoot (node : Nat) (img : BootImages) (s : State) : Host.Outcome State Fault Refusal :=
  if !s.present.contains node then event s
  else
    let s := losePackage s node
    let p := bootHead node s.tick img (s.pkg node)
    event ((resetPackage s.ticked node (decide (5 ≤ p.boot))).setPkg node p)

/-! ### Flash and the supply (R433) -/

/-- FIRMWARE_UPDATE (R433): PLDM writes the copy that is not accepted; in recovery mode too, on a package without power never. -/
def execFirmwareUpdate (node : Nat) (region : FlashRegion) (img : FlashImage) (s : State) : Host.Outcome State Fault Refusal :=
  event (if (s.pkg node).boot = 0 then s else s.setPkg node (writeFlash (s.pkg node) region img))
/-- POWER_LOSS (R433, R436): the package fails; of a life-log record that is due nothing is in the ring or a part whose CRC fails, and the
next boot counts an unclean shutdown. -/
def execPowerLoss (node : Nat) (s : State) : Host.Outcome State Fault Refusal :=
  if (s.pkg node).boot = 0 then event s
  else
    let due := s.agenda.contains (Event.lifeLogRecord node)
    let log := (s.pkg node).log
    let log := if due && Config.choice s.tick 0 % 2 == 1 then appendRecord s.tick false log else log
    let s := losePackage s.ticked node
    let s := { s with agenda := s.agenda.filter (· != Event.lifeLogRecord node) }
    event (s.setPkg node { s.pkg node with boot := 0, recovery := false, log := { log with cleanStop := false } })

/-! ### Power and heat (R434, R435) -/

/-- The limit a package works under: the module's is fixed, the package part's is set (R434). -/
def plimOf (s : State) (node : Nat) : Nat := if Config.isModule node then 2400 else (s.pkg node).plim
/-- An uncorrectable error of data in a package (R418): the line is poisoned; in HBM, which has no check of its own, it may show as wrong data in
one block of 16 bytes, of a line that the L2 does not hold (R390). -/
def dataError (s : State) (node : Nat) : State :=
  match Config.dataError s.tick with
  | none => s
  | some (line, wrong) =>
    if 32 * line / 2 ^ 47 != node || s.poison.contains line then s
    else if wrong && isChannelLine line then
      if (s.cluster (32 * line / 2 ^ 38)).l2.any fun y => y.addr == line then s
      else
        let a := 32 * line + 16 * (Config.choice s.tick 4 % 2)
        { s with mem := s.mem.writeBytes a ((List.range 16).map fun i => Config.freeByte s.tick i) }
    else { s with poison := line :: s.poison }
/-- POWER_CONTROL_TICK (R434): the array duty follows the average; 1,000 ticks above the limit at duty 1 halve the issue, until the
average is no longer above it. Data errors show at ticks. Whether a die has cooled below 105 °C is free (notes/assumptions/27.md). -/
def execPowerControlTick (node : Nat) (watts : Nat) (s : State) : Host.Outcome State Fault Refusal :=
  let p := s.pkg node
  let above := decide (plimOf s node < watts)
  let duty := if above then max 1 (p.duty - 1) else if 100 * watts < 95 * plimOf s node then min 8 (p.duty + 1) else p.duty
  let still := p.duty == 1 && above
  let n := if still then p.overFor + 1 else 0
  let s := dataError s node
  let s := { s.ticked with
    dies := s.dies.map (fun (e : Nat × Die) => if e.1 / 4 = node then (e.1, { e.2 with hot := e.2.hot && Config.choice s.tick (e.1 % 4) % 2 == 1 }) else e) }
  let s := s.setPkg node { p with duty, overFor := n, halfIssue := p.halfIssue && still }
  event (if 1000 ≤ n then s.dueOnce (.issueThrottle node) else s)
/-- ISSUE_THROTTLE (R434): issue is limited to one clk in two once duty 1 has exceeded the limit for 10 ms. -/
def execIssueThrottle (node : Nat) (s : State) : Host.Outcome State Fault Refusal :=
  let p := s.pkg node
  event (if 1000 ≤ p.overFor then s.setPkg node { p with halfIssue := true } else s)
/-- DROOP_ALARM (R434): every array stalls for 64 clk. -/
def execDroopAlarm (node : Nat) (s : State) : Host.Outcome State Fault Refusal :=
  let s := { s with cores := s.cores.map (fun (e : Nat × Core) => if clusterNode (coreCluster e.1) = node then (e.1, { e.2 with droop := e.2.cycle + 64 }) else e) }
  event (s.logged node fun x => { x with droops := x.droops + 1 })
/-- THERMAL_THROTTLE (R435): the die's array duty is 1. -/
def execThermalThrottle (die : Nat) (s : State) : Host.Outcome State Fault Refusal := event (s.setDie die { s.die die with hot := true })
/-- THERMAL_TRIP (R435): the package is fenced as a failed one, and the life log counts the trip. -/
def execThermalTrip (die : Nat) (s : State) : Host.Outcome State Fault Refusal :=
  event ((losePackage s (die / 4)).logged (die / 4) fun x => { x with trips := x.trips + 1 })
/-- SET_POWER_LIMIT (R434): from 600 W to 2,400 W, by an effecter that answers on a package in service only (R433). -/
def execSetPowerLimit (node : Nat) (watts : Nat) (s : State) : Host.Outcome State Fault Refusal :=
  event (if (s.pkg node).up && decide (600 ≤ watts ∧ watts ≤ 2400) then s.setPkg node { s.pkg node with plim := watts } else s)

/-! ### The life log (R436, R437) -/

/-- LIFE_LOG_RECORD (R436): the counters as they stand are appended; the ring keeps the newest records. -/
def execLifeLogRecord (node : Nat) (s : State) : Host.Outcome State Fault Refusal :=
  if (s.pkg node).boot != 7 then event s
  else event (s.ticked.logged node (appendRecord s.tick true))
/-- GET_LIFE_LOG_RECORD (R436, R437): the record of a sequence number, or the oldest still held when that one has been overwritten; a
record whose CRC fails is skipped. -/
def execGetLifeLogRecord (node : Nat) (seq : Word) (s : State) : Host.Outcome State Fault Refusal :=
  if (s.pkg node).boot != 7 then event s
  else event (s.logged node fun x =>
    let good := x.records.filter (·.crcOk)
    { x with lastRead := (good.find? fun r => r.seq == seq.toNat).orElse fun _ => if seq.toNat < x.next then good.head? else none })

end Sys2Proof.Machine
end

