-- ==== Sys2Proof/Machine/EvSec.lean ====
section
/-! DEFINITION. The SPDM responder, its sessions, secured key messages and TDISP (spec/20_protection_keys_receipts.md R400-R402; the parts
of the SPDM standard that the spec refers to: notes/assumptions/28.md). -/

namespace Sys2Proof.Machine

/-- The responder answers: after the boot, and in recovery mode (R432, R433). -/
def Pkg.answers (p : Pkg) : Bool := (p.boot == 7 || p.recovery) && !p.failed
/-- The responder's reply and new state, when it answers at all. -/
def spdm (s : State) (node : Nat) (f : Pkg → Pkg) : Host.Outcome State Fault Refusal :=
  event (if (s.pkg node).answers then s.setPkg node (f (s.pkg node)) else s)
/-- A request that needs the connection in a state; out of order it is answered UnexpectedRequest (R401). -/
def inOrder (p : Pkg) (st : SpdmSt) (f : Pkg → Pkg) : Pkg := if p.spdm = st then f p else { p with reply := .unexpected }
/-- GET_VERSION: SPDM 1.3; begins a connection at any time; the sessions of the one before end. -/
def execGetVersion (node : Nat) (s : State) : Host.Outcome State Fault Refusal :=
  spdm s node fun p => { p with spdm := .version, sessions := [], reply := .version 0x13 }
/-- GET_CAPABILITIES. -/
def execGetCapabilities (node : Nat) (s : State) : Host.Outcome State Fault Refusal :=
  spdm s node fun p => inOrder p .version fun p => { p with spdm := .capabilities, reply := .capabilities [.cert, .chal, .measSig, .keyEx, .encrypt, .mac] }
/-- NEGOTIATE_ALGORITHMS: SHA-384, ECDSA P-384, secp384r1 and AES-256-GCM; an offer that lacks one does not end the negotiation. -/
def execNegotiateAlgorithms (node : Nat) (offer : AlgOffer) (s : State) : Host.Outcome State Fault Refusal :=
  spdm s node fun p => inOrder p .capabilities fun p =>
    if offer.sha384 && offer.p384 && offer.secp384r1 && offer.aes256gcm then { p with spdm := .negotiated, reply := .algorithms offer }
    else { p with reply := .refused }
/-- Slot 0's chain (R401): the DeviceID certificate, kept in flash, and the alias certificate, which the DeviceID key signs at each boot; the
spec gives neither's bytes. -/
def certChain (p : Pkg) : List Byte :=
  Config.certificate 0 ((acceptedCopy p .deviceCert).toList.map (·.digest.toNat))
    ++ Config.certificate 1 [beNat (aliasPublic p), p.aliasCert.toNat]
/-- The digest of slot 0's chain. -/
def chainDigest (p : Pkg) : List Byte := sha384 (certChain p)
/-- GET_DIGESTS. -/
def execGetDigests (node : Nat) (s : State) : Host.Outcome State Fault Refusal :=
  spdm s node fun p => inOrder p .negotiated fun p => { p with reply := .digests (chainDigest p) }
/-- GET_CERTIFICATE: a portion of slot 0, the one slot there is. -/
def execGetCertificate (node : Nat) (slot : Nat) (offset : Nat) (length : Nat) (s : State) : Host.Outcome State Fault Refusal :=
  spdm s node fun p => inOrder p .negotiated fun p => { p with reply := if slot = 0 then .certificate (((certChain p).drop offset).take length) else .refused }
/-- CHALLENGE: signed with the alias key. -/
def execChallenge (node : Nat) (nonce : BitVec 256) (s : State) : Host.Outcome State Fault Refusal :=
  spdm s node fun p => inOrder p .negotiated fun p => { p with reply := .challengeAuth (aliasSign p (chainDigest p ++ beBytes 32 nonce.toNat)) }
/-- The registers that an index names: 0 none but their number, 1 to 16 one, 0xFF all. -/
def measured (p : Pkg) (index : Nat) : Option (List (List Byte)) :=
  if index = 0 then some []
  else if index = 0xFF then some (p.measurements.toList.drop 1)
  else if index ≤ 16 then some [p.measurements.toList.getD index []]
  else none
/-- GET_MEASUREMENTS (R402): the registers' values, signed. -/
def execGetMeasurements (node : Nat) (index : Nat) (nonce : BitVec 256) (s : State) : Host.Outcome State Fault Refusal :=
  spdm s node fun p => inOrder p .negotiated fun p => match measured p index with
    | some vs => { p with reply := .measurements vs (aliasSign p (vs.flatten ++ beBytes 32 nonce.toNat)) }
    | none => { p with reply := .refused }

/-! ### Sessions (R401) -/

/-- The smallest session number not in use. -/
def freeSession (p : Pkg) : Nat := ((List.range 8).find? fun i => p.sessions.all fun x => x.id != i).getD 8
/-- KEY_EXCHANGE: a session for an owner that has none, eight at most; the responder answers with the public
key of a key pair of its own, drawn for the session. -/
def execKeyExchange (node : Nat) (who : SessionOwner) (_pub : BitVec 768) (s : State) : Host.Outcome State Fault Refusal :=
  if !(s.pkg node).answers then event s
  else
    let p := s.pkg node
    event (s.ticked.setPkg node (inOrder p .negotiated fun p =>
      if 8 ≤ p.sessions.length || p.sessions.any (fun x => x.owner == who) then { p with reply := .refused }
      else
        let i := freeSession p
        { p with
          sessions := p.sessions ++ [{ id := i, owner := who, finished := false }]
          reply := .keyExchange i (BitVec.ofNat 768 (beNat (pointBytes (publicKey (privateKey (Config.derived 6 [node, s.tick])))))) }))
/-- FINISH: the handshake of a session completes when its MAC verifies; otherwise the session ends. -/
def execFinish (node : Nat) (session : Nat) (macOk : Bool) (s : State) : Host.Outcome State Fault Refusal :=
  spdm s node fun p => match p.sessions.find? fun x => x.id == session && !x.finished with
    | none => { p with reply := .unexpected }
    | some _ =>
      if macOk then { p with sessions := p.sessions.map (fun x => if x.id = session then { x with finished := true } else x), reply := .finish }
      else { p with sessions := p.sessions.filter (fun x => x.id != session), reply := .refused }
/-- END_SESSION. -/
def execEndSession (node : Nat) (session : Nat) (s : State) : Host.Outcome State Fault Refusal :=
  spdm s node fun p =>
    if p.sessions.any (fun x => x.id == session && x.finished) then
      { p with sessions := p.sessions.filter (fun x => x.id != session), reply := .ended }
    else { p with reply := .unexpected }
/-- A session may install the key: a tenant the keys of its own context, the fabric manager link keys, either the keys of the host
link's IDE streams. -/
def mayInstall (o : SessionOwner) (m : KeyMsg) : Bool :=
  match o, m with
  | .tenant c, .link _ d _ => c == d
  | .tenant c, .data d _ => c == d
  | .tenant c, .checkpoint d _ => c == d
  | _, .ide .. => true
  | .fabricManager, .link .. => true
  | .fabricManager, _ => false
/-- The number of an IDE stream: PCIe or CXL, one for each direction. -/
def ideStream (cxl out : Bool) : Nat := (if cxl then 2 else 0) + (if out then 1 else 0)
/-- Installs what a message carries. -/
def installMsg (s : State) (node : Nat) (m : KeyMsg) : State :=
  match m with
  | .link port ctx key => installKey s node (keyIndex port ctx) key
  | .data ctx key => s.setCtx node ctx { s.ctxOf node ctx with dataKey := some key }
  | .checkpoint ctx key => s.setCtx node ctx { s.ctxOf node ctx with ckKey := some key }
  | .ide cxl out key =>
    let p := s.pkg node
    s.setPkg node { p with ide := PMap.set (ideStream cxl out) key p.ide }
/-- SECURED_KEY_INSTALL_MESSAGE (R393-R395, R401, R425): under a session whose handshake has completed. -/
def execSecuredKeyInstallMessage (node : Nat) (session : Nat) (msg : KeyMsg) (s : State) : Host.Outcome State Fault Refusal :=
  let p := s.pkg node
  if !p.answers then event s
  else match p.sessions.find? fun x => x.id == session && x.finished with
    | none => event (s.setPkg node { p with reply := .unexpected })
    | some x =>
      if mayInstall x.owner msg then event (installMsg (s.setPkg node { p with reply := .accepted }) node msg)
      else event (s.setPkg node { p with reply := .refused })

/-! ### TDISP (R401) -/

/-- TDISP_STATE_REQUEST (R401): a requester locks a device interface and becomes its owner; the owner alone starts it or takes it back to
its configuration; in recovery mode none answers (R433). -/
def execTdispStateRequest (node : Nat) (ctx : BitVec 12) (state : Tdisp) (requester : Nat) (s : State) : Host.Outcome State Fault Refusal :=
  let x := s.ctxOf node ctx
  if !(s.pkg node).up then event s
  else match x.tdisp, state with
    | .config, .locked => event (s.setCtx node ctx { x with tdisp := .locked, tdispOwner := requester })
    | .locked, .run => event (if x.tdispOwner = requester then s.setCtx node ctx { x with tdisp := .run } else s)
    | .locked, .config | .run, .config =>
      event (if x.tdispOwner = requester then s.setCtx node ctx { x with tdisp := .config, tdispOwner := 0 } else s)
    | _, _ => event s

end Sys2Proof.Machine
end

