-- ==== Sys2Proof/Machine/Int.lean ====
section
/-! DEFINITION. Register arithmetic: majors INT, INTI and LI (spec/04_scalar_and_control_instructions.md R106-R111, R127). -/

namespace Sys2Proof.Machine

/-! ### Operand shapes -/

/-- Registers a binary function touches. -/
def aluRegs (a : AluArgs) : List Res :=
  regRes a.d ++ regRes a.s ++ (match a.form with
    | .three t => regRes t
    | _ => [])
/-- The operands x and y (R106). -/
def aluOperands (pc : Word) (a : AluArgs) : M (Word × Word) :=
  match a.form with
  | .three t => do
    let x ← srcM pc a.s
    let y ← srcM pc t
    pure (x, y)
  | _ => do
    let x ← readWriteM pc a.d
    let y ← srcM pc a.s
    pure (x, y)
/-- A binary function (R106, R107). -/
def alu (i : Instr) (a : AluArgs) (f : Word → Word → Word) (s : State) : Host.Outcome State Fault Refusal :=
  issue i a.gd (Touch.of (aluRegs a)) (fun pc => do
    let (x, y) ← aluOperands pc a
    dstM pc a.d (f x y)) s
/-- A divide (R43, R105, R107): a zero divisor faults, and the grain skips three turns. -/
def divide (i : Instr) (a : AluArgs) (f : Word → Word → Word) (s : State) : Host.Outcome State Fault Refusal :=
  issue i a.gd (Touch.of (aluRegs a)) (fun pc => do
    let (x, y) ← aluOperands pc a
    trapWhen (y == 0#64) .divideByZero 0#64
    dstM pc a.d (f x y)
    onGrain fun g => { g with skip := 3 }) s
/-- ADDP and SUBP (R108). -/
def pointerStep (i : Instr) (a : AluArgs) (neg : Bool) (s : State) : Host.Outcome State Fault Refusal :=
  issue i a.gd (Touch.of (aluRegs a)) (fun pc => do
    let (p, n) ← aluOperands pc a
    match ptrStep p with
    | some step => dstM pc a.d (stepPtr p (if neg then -n.toInt else n.toInt) step)
    | none => trapM .formatInvalid (fmtInfo p 0)) s
/-- A unary function (R106). -/
def unary (i : Instr) (a : UnaryArgs) (f : Word → Word) (s : State) : Host.Outcome State Fault Refusal :=
  issue i a.gd (Touch.of (regRes a.d ++ regRes a.s)) (fun pc => do
    let y ← srcM pc a.s
    dstM pc a.d (f y)) s
/-- An immediate function (R109). -/
def immediate (i : Instr) (a : ImmArgs) (f : Word → Word → Word) (s : State) : Host.Outcome State Fault Refusal :=
  issue i a.gd (Touch.of (regRes a.d)) (fun pc => do
    let x ← readWriteM pc a.d
    dstM pc a.d (f x (BitVec.ofInt 64 (a.imm.val false)))) s

/-! ### Functions -/

/-- Shift amounts are taken modulo 64 (R107). -/
def shamt (y : Word) : Nat := y.toNat % 64
/-- Leading zero bits among the low `n`. -/
def leadZeros (x : Word) : Nat → Nat
  | 0 => 0
  | n + 1 => if x.getLsbD n then 0 else 1 + leadZeros x n
/-- Trailing zero bits from bit 64 - n. -/
def trailZeros (x : Word) : Nat → Nat
  | 0 => 0
  | n + 1 => if x.getLsbD (63 - n) then 0 else 1 + trailZeros x n
/-- One bits. -/
def popCount (x : Word) : Nat := ((List.range 64).filter x.getLsbD).length
/-- Bit i moves to bit 63 - i. -/
def bitReverse (x : Word) : Word := BitVec.ofNat 64 ((List.range 64).foldl (fun n i => 2 * n + (if x.getLsbD i then 1 else 0)) 0)
/-- Byte i moves to byte 7 - i. -/
def byteSwap (x : Word) : Word := BitVec.ofNat 64 ((List.range 8).foldl (fun n i => 256 * n + x.toNat / 256 ^ i % 256) 0)
/-- Width of the codes of SEXT and ZEXT. -/
def extWidth (w : BitVec 2) : Nat := 8 * 2 ^ w.toNat
/-- Sign extension of the low `w` bits. -/
def sextBits (x : Word) (w : Nat) : Word := BitVec.ofInt 64 (signExtend (x.toNat % 2 ^ w) w)
/-- Zero extension of the low `w` bits. -/
def zextBits (x : Word) (w : Nat) : Word := BitVec.ofNat 64 (x.toNat % 2 ^ w)
/-- A field of `w` bits at `pos` replaced (R109, R110). -/
def putField (x : Word) (pos w : Nat) (v : Word) : Word :=
  let mask : Word := BitVec.ofNat 64 (2 ^ w - 1)
  (x &&& ~~~(mask <<< pos)) ||| ((v &&& mask) <<< pos)
/-- A field of `w` bits at `pos` (R110). -/
def getField (x : Word) (pos w : Nat) : Word := (x >>> pos) &&& BitVec.ofNat 64 (2 ^ w - 1)

/-! ### INT page 0 -/

/-- A MOV half of a v register (R78). -/
def vHalf (g : Grain) (r : Reg) (hi : Bool) : Word := (g.vreg r).extractLsb' (if hi then 64 else 0) 64
/-- Writes a half of a v register and sets VDIRTY (R78). -/
def setVHalf (g : Grain) (r : Reg) (hi : Bool) (x : Word) : Grain :=
  let o := g.vreg r
  let v := if hi then x ++ o.extractLsb' 0 64 else o.extractLsb' 64 64 ++ x
  { g with v := g.v.set r.toFin v, pw := setBit g.pw 44 true }
/-- MOV (R78, R107): with a v register named, the grain waits until its sequencer is empty (R178). -/
def execMov (a : MovArgs) (s : State) : Host.Outcome State Fault Refusal :=
  let x := a.xr.getD ⟨0#3, 0#3, 0#3, false⟩
  let regs := (if x.d = 2#3 then [] else regRes a.d) ++ (if x.s = 2#3 then [] else regRes a.s)
  issue (.mov a) a.gd (Touch.of regs) (fun pc => do
    let g ← grainM
    parkWhen ((x.d == 2#3 || x.s == 2#3) && g.seqBusy) .sequencer
    let y ← if x.s = 2#3 then pure (vHalf g a.s x.hi) else srcM pc a.s
    if x.d = 2#3 then onGrain fun g => setVHalf g a.d x.hi y else dstM pc a.d y) s
/-- ADD. -/
def execAdd (a : AluArgs) (s : State) : Host.Outcome State Fault Refusal := alu (.add a) a (fun x y => x + y) s
/-- SUB. -/
def execSub (a : AluArgs) (s : State) : Host.Outcome State Fault Refusal := alu (.sub a) a (fun x y => x - y) s
/-- AND. -/
def execAnd (a : AluArgs) (s : State) : Host.Outcome State Fault Refusal := alu (.and a) a (fun x y => x &&& y) s
/-- OR. -/
def execOr (a : AluArgs) (s : State) : Host.Outcome State Fault Refusal := alu (.or a) a (fun x y => x ||| y) s
/-- XOR. -/
def execXor (a : AluArgs) (s : State) : Host.Outcome State Fault Refusal := alu (.xor a) a (fun x y => x ^^^ y) s
/-- ANDN. -/
def execAndn (a : AluArgs) (s : State) : Host.Outcome State Fault Refusal := alu (.andn a) a (fun x y => x &&& ~~~y) s
/-- SHL. -/
def execShl (a : AluArgs) (s : State) : Host.Outcome State Fault Refusal := alu (.shl a) a (fun x y => x <<< shamt y) s
/-- SHR. -/
def execShr (a : AluArgs) (s : State) : Host.Outcome State Fault Refusal := alu (.shr a) a (fun x y => x >>> shamt y) s
/-- SAR. -/
def execSar (a : AluArgs) (s : State) : Host.Outcome State Fault Refusal := alu (.sar a) a (fun x y => x.sshiftRight (shamt y)) s
/-- MUL. -/
def execMul (a : AluArgs) (s : State) : Host.Outcome State Fault Refusal := alu (.mul a) a (fun x y => x * y) s
/-- The high half of a signed product. -/
def mulHigh (x y : Word) : Word := BitVec.ofInt 64 (x.toInt * y.toInt / 2 ^ 64)
/-- The high half of an unsigned product. -/
def mulHighN (x y : Word) : Word := BitVec.ofNat 64 (x.toNat * y.toNat / 2 ^ 64)
/-- MULH. -/
def execMulh (a : AluArgs) (s : State) : Host.Outcome State Fault Refusal := alu (.mulh a) a mulHigh s
/-- MIN. -/
def execMin (a : AluArgs) (s : State) : Host.Outcome State Fault Refusal :=
  alu (.min a) a (fun x y => if y.toInt < x.toInt then y else x) s
/-- MAX. -/
def execMax (a : AluArgs) (s : State) : Host.Outcome State Fault Refusal :=
  alu (.max a) a (fun x y => if x.toInt < y.toInt then y else x) s
/-- ADDP (R108). -/
def execAddp (a : AluArgs) (s : State) : Host.Outcome State Fault Refusal := pointerStep (.addp a) a false s
/-- SUBP (R108). -/
def execSubp (a : AluArgs) (s : State) : Host.Outcome State Fault Refusal := pointerStep (.subp a) a true s

/-! ### INT page 1 -/

/-- MULHN. -/
def execMulhn (a : AluArgs) (s : State) : Host.Outcome State Fault Refusal := alu (.mulhn a) a mulHighN s
/-- DIV (R43): the quotient is rounded toward zero. -/
def execDiv (a : AluArgs) (s : State) : Host.Outcome State Fault Refusal :=
  divide (.div a) a (fun x y => BitVec.ofInt 64 (x.toInt.tdiv y.toInt)) s
/-- DIVN. -/
def execDivn (a : AluArgs) (s : State) : Host.Outcome State Fault Refusal :=
  divide (.divn a) a (fun x y => BitVec.ofNat 64 (x.toNat / y.toNat)) s
/-- REM (R43): the remainder has the sign of the dividend. -/
def execRem (a : AluArgs) (s : State) : Host.Outcome State Fault Refusal :=
  divide (.rem a) a (fun x y => BitVec.ofInt 64 (x.toInt.tmod y.toInt)) s
/-- REMN. -/
def execRemn (a : AluArgs) (s : State) : Host.Outcome State Fault Refusal :=
  divide (.remn a) a (fun x y => BitVec.ofNat 64 (x.toNat % y.toNat)) s
/-- MINN. -/
def execMinn (a : AluArgs) (s : State) : Host.Outcome State Fault Refusal :=
  alu (.minn a) a (fun x y => if y.toNat < x.toNat then y else x) s
/-- MAXN. -/
def execMaxn (a : AluArgs) (s : State) : Host.Outcome State Fault Refusal :=
  alu (.maxn a) a (fun x y => if x.toNat < y.toNat then y else x) s
/-- ROL. -/
def execRol (a : AluArgs) (s : State) : Host.Outcome State Fault Refusal := alu (.rol a) a (fun x y => x.rotateLeft (shamt y)) s
/-- ROR. -/
def execRor (a : AluArgs) (s : State) : Host.Outcome State Fault Refusal := alu (.ror a) a (fun x y => x.rotateRight (shamt y)) s
/-- CLZ. -/
def execClz (a : UnaryArgs) (s : State) : Host.Outcome State Fault Refusal :=
  unary (.clz a) a (fun y => BitVec.ofNat 64 (leadZeros y 64)) s
/-- CTZ. -/
def execCtz (a : UnaryArgs) (s : State) : Host.Outcome State Fault Refusal :=
  unary (.ctz a) a (fun y => BitVec.ofNat 64 (trailZeros y 64)) s
/-- POPC. -/
def execPopc (a : UnaryArgs) (s : State) : Host.Outcome State Fault Refusal :=
  unary (.popc a) a (fun y => BitVec.ofNat 64 (popCount y)) s
/-- BREV. -/
def execBrev (a : UnaryArgs) (s : State) : Host.Outcome State Fault Refusal := unary (.brev a) a bitReverse s
/-- BSWAP. -/
def execBswap (a : UnaryArgs) (s : State) : Host.Outcome State Fault Refusal := unary (.bswap a) a byteSwap s
/-- SEXT. -/
def execSext (a : ExtArgs) (s : State) : Host.Outcome State Fault Refusal :=
  unary (.sext a) ⟨a.gd, a.d, a.s⟩ (fun y => sextBits y (extWidth a.w)) s
/-- ZEXT. -/
def execZext (a : ExtArgs) (s : State) : Host.Outcome State Fault Refusal :=
  unary (.zext a) ⟨a.gd, a.d, a.s⟩ (fun y => zextBits y (extWidth a.w)) s

/-! ### INTI (R109, R110) -/

/-- ADDI. -/
def execAddi (a : ImmArgs) (s : State) : Host.Outcome State Fault Refusal := immediate (.addi a) a (fun x y => x + y) s
/-- SUBI. -/
def execSubi (a : ImmArgs) (s : State) : Host.Outcome State Fault Refusal := immediate (.subi a) a (fun x y => x - y) s
/-- ANDI. -/
def execAndi (a : ImmArgs) (s : State) : Host.Outcome State Fault Refusal := immediate (.andi a) a (fun x y => x &&& y) s
/-- ORI. -/
def execOri (a : ImmArgs) (s : State) : Host.Outcome State Fault Refusal := immediate (.ori a) a (fun x y => x ||| y) s
/-- XORI. -/
def execXori (a : ImmArgs) (s : State) : Host.Outcome State Fault Refusal := immediate (.xori a) a (fun x y => x ^^^ y) s
/-- SHLI. -/
def execShli (a : ImmArgs) (s : State) : Host.Outcome State Fault Refusal := immediate (.shli a) a (fun x y => x <<< shamt y) s
/-- SHRI. -/
def execShri (a : ImmArgs) (s : State) : Host.Outcome State Fault Refusal := immediate (.shri a) a (fun x y => x >>> shamt y) s
/-- SARI. -/
def execSari (a : ImmArgs) (s : State) : Host.Outcome State Fault Refusal :=
  immediate (.sari a) a (fun x y => x.sshiftRight (shamt y)) s
/-- MULI. -/
def execMuli (a : ImmArgs) (s : State) : Host.Outcome State Fault Refusal := immediate (.muli a) a (fun x y => x * y) s
/-- ROLI. -/
def execRoli (a : ImmArgs) (s : State) : Host.Outcome State Fault Refusal :=
  immediate (.roli a) a (fun x y => x.rotateLeft (shamt y)) s
/-- BFX reads s only (R110). -/
def execBfx (a : FieldArgs) (s : State) : Host.Outcome State Fault Refusal :=
  issue (.bfx a) a.gd (Touch.of (regRes a.d ++ regRes a.s)) (fun pc => do
    let y ← srcM pc a.s
    dstM pc a.d (getField y a.pos.toNat (a.width.toNat + 1))) s
/-- BFI reads d and s (R110). -/
def execBfi (a : FieldArgs) (s : State) : Host.Outcome State Fault Refusal :=
  issue (.bfi a) a.gd (Touch.of (regRes a.d ++ regRes a.s)) (fun pc => do
    let x ← readWriteM pc a.d
    let y ← srcM pc a.s
    dstM pc a.d (putField x a.pos.toNat (a.width.toNat + 1) y)) s
/-- PFMT. -/
def execPfmt (a : ImmArgs) (s : State) : Host.Outcome State Fault Refusal := immediate (.pfmt a) a (fun x y => putField x 58 6 y) s
/-- PBLK. -/
def execPblk (a : ImmArgs) (s : State) : Host.Outcome State Fault Refusal := immediate (.pblk a) a (fun x y => putField x 55 3 y) s
/-- PSEG. -/
def execPseg (a : ImmArgs) (s : State) : Host.Outcome State Fault Refusal := immediate (.pseg a) a (fun x y => putField x 52 3 y) s
/-- PCLR. -/
def execPclr (a : RegArgs) (s : State) : Host.Outcome State Fault Refusal :=
  issue (.pclr a) a.gd (Touch.of (regRes a.d)) (fun pc => do
    let x ← readWriteM pc a.d
    dstM pc a.d (getField x 0 52)) s

/-! ### LI (R111) -/

/-- LI. -/
def execLi (a : LiArgs) (s : State) : Host.Outcome State Fault Refusal :=
  issue (.li a) a.gd (Touch.of (regRes a.d)) (fun pc => dstM pc a.d (BitVec.ofInt 64 (a.imm.val false))) s
/-- LI with a lane: an output stream in d is refused at decoding (R85). -/
def execLiLane (a : LaneArgs) (s : State) : Host.Outcome State Fault Refusal :=
  issue (.liLane a) a.gd (Touch.of (regRes a.d)) (fun pc => do
    let x ← readWriteM pc a.d
    dstM pc a.d (putField x (16 * a.lane.toNat) 16 (BitVec.ofInt 64 (a.imm.val false)))) s

end Sys2Proof.Machine
end

