-- ==== Sys2Proof/Machine/Dispatch.lean ====
section
/-! DEFINITION. One arm per constructor of Instr: each is one direct call of that instruction's or event's meaning. -/

namespace Sys2Proof.Machine

/-- The meaning of every instruction and event. -/
def exec (i : Instr) (s : State) : Host.Outcome State Fault Refusal :=
  match i with
  | .mov a => Sys2Proof.Machine.execMov a s
  | .add a => Sys2Proof.Machine.execAdd a s
  | .sub a => Sys2Proof.Machine.execSub a s
  | .and a => Sys2Proof.Machine.execAnd a s
  | .or a => Sys2Proof.Machine.execOr a s
  | .xor a => Sys2Proof.Machine.execXor a s
  | .andn a => Sys2Proof.Machine.execAndn a s
  | .shl a => Sys2Proof.Machine.execShl a s
  | .shr a => Sys2Proof.Machine.execShr a s
  | .sar a => Sys2Proof.Machine.execSar a s
  | .mul a => Sys2Proof.Machine.execMul a s
  | .mulh a => Sys2Proof.Machine.execMulh a s
  | .min a => Sys2Proof.Machine.execMin a s
  | .max a => Sys2Proof.Machine.execMax a s
  | .addp a => Sys2Proof.Machine.execAddp a s
  | .subp a => Sys2Proof.Machine.execSubp a s
  | .mulhn a => Sys2Proof.Machine.execMulhn a s
  | .div a => Sys2Proof.Machine.execDiv a s
  | .divn a => Sys2Proof.Machine.execDivn a s
  | .rem a => Sys2Proof.Machine.execRem a s
  | .remn a => Sys2Proof.Machine.execRemn a s
  | .minn a => Sys2Proof.Machine.execMinn a s
  | .maxn a => Sys2Proof.Machine.execMaxn a s
  | .rol a => Sys2Proof.Machine.execRol a s
  | .ror a => Sys2Proof.Machine.execRor a s
  | .clz a => Sys2Proof.Machine.execClz a s
  | .ctz a => Sys2Proof.Machine.execCtz a s
  | .popc a => Sys2Proof.Machine.execPopc a s
  | .brev a => Sys2Proof.Machine.execBrev a s
  | .bswap a => Sys2Proof.Machine.execBswap a s
  | .sext a => Sys2Proof.Machine.execSext a s
  | .zext a => Sys2Proof.Machine.execZext a s
  | .addi a => Sys2Proof.Machine.execAddi a s
  | .subi a => Sys2Proof.Machine.execSubi a s
  | .andi a => Sys2Proof.Machine.execAndi a s
  | .ori a => Sys2Proof.Machine.execOri a s
  | .xori a => Sys2Proof.Machine.execXori a s
  | .shli a => Sys2Proof.Machine.execShli a s
  | .shri a => Sys2Proof.Machine.execShri a s
  | .sari a => Sys2Proof.Machine.execSari a s
  | .muli a => Sys2Proof.Machine.execMuli a s
  | .roli a => Sys2Proof.Machine.execRoli a s
  | .bfx a => Sys2Proof.Machine.execBfx a s
  | .bfi a => Sys2Proof.Machine.execBfi a s
  | .pfmt a => Sys2Proof.Machine.execPfmt a s
  | .pblk a => Sys2Proof.Machine.execPblk a s
  | .pseg a => Sys2Proof.Machine.execPseg a s
  | .pclr a => Sys2Proof.Machine.execPclr a s
  | .li a => Sys2Proof.Machine.execLi a s
  | .liLane a => Sys2Proof.Machine.execLiLane a s
  | .ceq a => Sys2Proof.Machine.execCeq a s
  | .cne a => Sys2Proof.Machine.execCne a s
  | .clt a => Sys2Proof.Machine.execClt a s
  | .cge a => Sys2Proof.Machine.execCge a s
  | .cltn a => Sys2Proof.Machine.execCltn a s
  | .cgen a => Sys2Proof.Machine.execCgen a s
  | .ctst a => Sys2Proof.Machine.execCtst a s
  | .ctstn a => Sys2Proof.Machine.execCtstn a s
  | .ceqi a => Sys2Proof.Machine.execCeqi a s
  | .cnei a => Sys2Proof.Machine.execCnei a s
  | .clti a => Sys2Proof.Machine.execClti a s
  | .cgei a => Sys2Proof.Machine.execCgei a s
  | .cltni a => Sys2Proof.Machine.execCltni a s
  | .cgeni a => Sys2Proof.Machine.execCgeni a s
  | .plog a => Sys2Proof.Machine.execPlog a s
  | .pxfer a => Sys2Proof.Machine.execPxfer a s
  | .ld a => Sys2Proof.Machine.execLd a s
  | .ldi a => Sys2Proof.Machine.execLdi a s
  | .ld8 a => Sys2Proof.Machine.execLd8 a s
  | .ld16 a => Sys2Proof.Machine.execLd16 a s
  | .ld32 a => Sys2Proof.Machine.execLd32 a s
  | .ld64 a => Sys2Proof.Machine.execLd64 a s
  | .ldn8 a => Sys2Proof.Machine.execLdn8 a s
  | .ldn16 a => Sys2Proof.Machine.execLdn16 a s
  | .ldn32 a => Sys2Proof.Machine.execLdn32 a s
  | .ldacq a => Sys2Proof.Machine.execLdacq a s
  | .pref a => Sys2Proof.Machine.execPref a s
  | .ldrec a => Sys2Proof.Machine.execLdrec a s
  | .st a => Sys2Proof.Machine.execSt a s
  | .sti a => Sys2Proof.Machine.execSti a s
  | .st8 a => Sys2Proof.Machine.execSt8 a s
  | .st16 a => Sys2Proof.Machine.execSt16 a s
  | .st32 a => Sys2Proof.Machine.execSt32 a s
  | .st64 a => Sys2Proof.Machine.execSt64 a s
  | .strel a => Sys2Proof.Machine.execStrel a s
  | .stnt a => Sys2Proof.Machine.execStnt a s
  | .aadd a => Sys2Proof.Machine.execAadd a s
  | .amin a => Sys2Proof.Machine.execAmin a s
  | .amax a => Sys2Proof.Machine.execAmax a s
  | .aminn a => Sys2Proof.Machine.execAminn a s
  | .amaxn a => Sys2Proof.Machine.execAmaxn a s
  | .aand a => Sys2Proof.Machine.execAand a s
  | .aor a => Sys2Proof.Machine.execAor a s
  | .axor a => Sys2Proof.Machine.execAxor a s
  | .aswap a => Sys2Proof.Machine.execAswap a s
  | .acas a => Sys2Proof.Machine.execAcas a s
  | .afadd a => Sys2Proof.Machine.execAfadd a s
  | .afmin a => Sys2Proof.Machine.execAfmin a s
  | .afmax a => Sys2Proof.Machine.execAfmax a s
  | .migr a => Sys2Proof.Machine.execMigr a s
  | .rupd a => Sys2Proof.Machine.execRupd a s
  | .spawn a => Sys2Proof.Machine.execSpawn a s
  | .seqwait a => Sys2Proof.Machine.execSeqwait a s
  | .seqadv a => Sys2Proof.Machine.execSeqadv a s
  | .watch a => Sys2Proof.Machine.execWatch a s
  | .waitw a => Sys2Proof.Machine.execWaitw a s
  | .barw a => Sys2Proof.Machine.execBarw a s
  | .fence a => Sys2Proof.Machine.execFence a s
  | .send a => Sys2Proof.Machine.execSend a s
  | .recv a => Sys2Proof.Machine.execRecv a s
  | .recvn a => Sys2Proof.Machine.execRecvn a s
  | .recvs a => Sys2Proof.Machine.execRecvs a s
  | .chstat a => Sys2Proof.Machine.execChstat a s
  | .clean a => Sys2Proof.Machine.execClean a s
  | .shfence a => Sys2Proof.Machine.execShfence a s
  | .xpull a => Sys2Proof.Machine.execXpull a s
  | .xfill a => Sys2Proof.Machine.execXfill a s
  | .xstat a => Sys2Proof.Machine.execXstat a s
  | .vmov a => Sys2Proof.Machine.execVmov a s
  | .vadd a => Sys2Proof.Machine.execVadd a s
  | .vsub a => Sys2Proof.Machine.execVsub a s
  | .vmul a => Sys2Proof.Machine.execVmul a s
  | .vfma a => Sys2Proof.Machine.execVfma a s
  | .vmin a => Sys2Proof.Machine.execVmin a s
  | .vmax a => Sys2Proof.Machine.execVmax a s
  | .vand a => Sys2Proof.Machine.execVand a s
  | .vor a => Sys2Proof.Machine.execVor a s
  | .vxor a => Sys2Proof.Machine.execVxor a s
  | .vshl a => Sys2Proof.Machine.execVshl a s
  | .vshr a => Sys2Proof.Machine.execVshr a s
  | .vabs a => Sys2Proof.Machine.execVabs a s
  | .vneg a => Sys2Proof.Machine.execVneg a s
  | .vcvt a => Sys2Proof.Machine.execVcvt a s
  | .vcmp a => Sys2Proof.Machine.execVcmp a s
  | .vld a => Sys2Proof.Machine.execVld a s
  | .vst a => Sys2Proof.Machine.execVst a s
  | .vgath a => Sys2Proof.Machine.execVgath a s
  | .vscat a => Sys2Proof.Machine.execVscat a s
  | .vbcast a => Sys2Proof.Machine.execVbcast a s
  | .vextr a => Sys2Proof.Machine.execVextr a s
  | .vins a => Sys2Proof.Machine.execVins a s
  | .vshuf a => Sys2Proof.Machine.execVshuf a s
  | .vrsum a => Sys2Proof.Machine.execVrsum a s
  | .vdot a => Sys2Proof.Machine.execVdot a s
  | .vsel a => Sys2Proof.Machine.execVsel a s
  | .vqnt a => Sys2Proof.Machine.execVqnt a s
  | .vdqnt a => Sys2Proof.Machine.execVdqnt a s
  | .vaccr a => Sys2Proof.Machine.execVaccr a s
  | .vaccw a => Sys2Proof.Machine.execVaccw a s
  | .vmovp a => Sys2Proof.Machine.execVmovp a s
  | .vrcp a => Sys2Proof.Machine.execVrcp a s
  | .vrsq a => Sys2Proof.Machine.execVrsq a s
  | .vsqrt a => Sys2Proof.Machine.execVsqrt a s
  | .vexp2 a => Sys2Proof.Machine.execVexp2 a s
  | .vlog2 a => Sys2Proof.Machine.execVlog2 a s
  | .vsin a => Sys2Proof.Machine.execVsin a s
  | .vcos a => Sys2Proof.Machine.execVcos a s
  | .vtanh a => Sys2Proof.Machine.execVtanh a s
  | .vloop a => Sys2Proof.Machine.execVloop a s
  | .vsync a => Sys2Proof.Machine.execVsync a s
  | .vgang a => Sys2Proof.Machine.execVgang a s
  | .vsplit a => Sys2Proof.Machine.execVsplit a s
  | .vsett a => Sys2Proof.Machine.execVsett a s
  | .br a => Sys2Proof.Machine.execBr a s
  | .jmp a => Sys2Proof.Machine.execJmp a s
  | .jmpr a => Sys2Proof.Machine.execJmpr a s
  | .call a => Sys2Proof.Machine.execCall a s
  | .callr a => Sys2Proof.Machine.execCallr a s
  | .ret a => Sys2Proof.Machine.execRet a s
  | .exit a => Sys2Proof.Machine.execExit a s
  | .yield a => Sys2Proof.Machine.execYield a s
  | .nop a => Sys2Proof.Machine.execNop a s
  | .loop a => Sys2Proof.Machine.execLoop a s
  | .getid a => Sys2Proof.Machine.execGetid a s
  | .clock a => Sys2Proof.Machine.execClock a s
  | .rand a => Sys2Proof.Machine.execRand a s
  | .brk a => Sys2Proof.Machine.execBrk a s
  | .rhome a => Sys2Proof.Machine.execRhome a s
  | .mma a => Sys2Proof.Machine.execMma a s
  | .mmai a => Sys2Proof.Machine.execMmai a s
  | .mzero a => Sys2Proof.Machine.execMzero a s
  | .mldc a => Sys2Proof.Machine.execMldc a s
  | .mstc a => Sys2Proof.Machine.execMstc a s
  | .wbld a => Sys2Proof.Machine.execWbld a s
  | .wbinv a => Sys2Proof.Machine.execWbinv a s
  | .macq a => Sys2Proof.Machine.execMacq a s
  | .mrel a => Sys2Proof.Machine.execMrel a s
  | .sbind a => Sys2Proof.Machine.execSbind a s
  | .sunbind a => Sys2Proof.Machine.execSunbind a s
  | .sstat a => Sys2Proof.Machine.execSstat a s
  | .sdrain a => Sys2Proof.Machine.execSdrain a s
  | .rwpop a => Sys2Proof.Machine.execRwpop a s
  | .rwpush a => Sys2Proof.Machine.execRwpush a s
  | .nalloc a => Sys2Proof.Machine.execNalloc a s
  | .nfree a => Sys2Proof.Machine.execNfree a s
  | .nld a => Sys2Proof.Machine.execNld a s
  | .nst a => Sys2Proof.Machine.execNst a s
  | .pxchg a => Sys2Proof.Machine.execPxchg a s
  | .plink a => Sys2Proof.Machine.execPlink a s
  | .nref a => Sys2Proof.Machine.execNref a s
  | .nown a => Sys2Proof.Machine.execNown a s
  | .rwdone a => Sys2Proof.Machine.execRwdone a s
  | .trap a => Sys2Proof.Machine.execTrap a s
  | .mcall a => Sys2Proof.Machine.execMcall a s
  | .mret a => Sys2Proof.Machine.execMret a s
  | .crrd a => Sys2Proof.Machine.execCrrd a s
  | .crwr a => Sys2Proof.Machine.execCrwr a s
  | .segset a => Sys2Proof.Machine.execSegset a s
  | .segget a => Sys2Proof.Machine.execSegget a s
  | .segld a => Sys2Proof.Machine.execSegld a s
  | .invpg a => Sys2Proof.Machine.execInvpg a s
  | .invpgr a => Sys2Proof.Machine.execInvpgr a s
  | .protw a => Sys2Proof.Machine.execProtw a s
  | .spill a => Sys2Proof.Machine.execSpill a s
  | .fill a => Sys2Proof.Machine.execFill a s
  | .rdsig a => Sys2Proof.Machine.execRdsig a s
  | .ndval a => Sys2Proof.Machine.execNdval a s
  | .halt a => Sys2Proof.Machine.execHalt a s
  | .barrelIssueCycle core => Sys2Proof.Machine.execBarrelIssueCycle core s
  | .longLatencyResult loc op => Sys2Proof.Machine.execLongLatencyResult loc op s
  | .tlbWalkComplete cl ctx va => Sys2Proof.Machine.execTlbWalkComplete cl ctx va s
  | .sliceExpiry loc => Sys2Proof.Machine.execSliceExpiry loc s
  | .priorityPreempt core => Sys2Proof.Machine.execPriorityPreempt core s
  | .spillComplete loc => Sys2Proof.Machine.execSpillComplete loc s
  | .fillComplete loc => Sys2Proof.Machine.execFillComplete loc s
  | .remoteWatchInsert loc reg => Sys2Proof.Machine.execRemoteWatchInsert loc reg s
  | .remoteWatchWake loc reg v => Sys2Proof.Machine.execRemoteWatchWake loc reg v s
  | .watchPollTimer loc reg => Sys2Proof.Machine.execWatchPollTimer loc reg s
  | .barrierStaggerResume launch sc core => Sys2Proof.Machine.execBarrierStaggerResume launch sc core s
  | .channelFlitArrival core ch => Sys2Proof.Machine.execChannelFlitArrival core ch s
  | .channelWatchdogExpiry loc op => Sys2Proof.Machine.execChannelWatchdogExpiry loc op s
  | .macqWatchdogExpiry loc => Sys2Proof.Machine.execMacqWatchdogExpiry loc s
  | .bagPushWatchdogExpiry loc op => Sys2Proof.Machine.execBagPushWatchdogExpiry loc op s
  | .migrationArrival loc => Sys2Proof.Machine.execMigrationArrival loc s
  | .spawnArrival core => Sys2Proof.Machine.execSpawnArrival core s
  | .arrivalRetry core => Sys2Proof.Machine.execArrivalRetry core s
  | .excursionAtOwner loc op => Sys2Proof.Machine.execExcursionAtOwner loc op s
  | .excursionReturn loc op => Sys2Proof.Machine.execExcursionReturn loc op s
  | .remoteUpdateApply cl => Sys2Proof.Machine.execRemoteUpdateApply cl s
  | .bursarAtomic die slot => Sys2Proof.Machine.execBursarAtomic die slot s
  | .copyCommandStart cl => Sys2Proof.Machine.execCopyCommandStart cl s
  | .copyCommandComplete cl id => Sys2Proof.Machine.execCopyCommandComplete cl id s
  | .burstWindowClose cl region => Sys2Proof.Machine.execBurstWindowClose cl region s
  | .sequencerEntryStart core => Sys2Proof.Machine.execSequencerEntryStart core s
  | .sequencerEntryComplete loc => Sys2Proof.Machine.execSequencerEntryComplete loc s
  | .mmaStart core => Sys2Proof.Machine.execMmaStart core s
  | .mmaComplete core => Sys2Proof.Machine.execMmaComplete core s
  | .weightSlotReload core w => Sys2Proof.Machine.execWeightSlotReload core w s
  | .inputStreamFetch loc n => Sys2Proof.Machine.execInputStreamFetch loc n s
  | .outputStreamLineWrite loc n => Sys2Proof.Machine.execOutputStreamLineWrite loc n s
  | .randValueReady core v => Sys2Proof.Machine.execRandValueReady core v s
  | .forwardedValueArrival who count v => Sys2Proof.Machine.execForwardedValueArrival who count v s
  | .replicaCompareFlit who flit => Sys2Proof.Machine.execReplicaCompareFlit who flit s
  | .externalAtomicResult who op old => Sys2Proof.Machine.execExternalAtomicResult who op old s
  | .pairRecordArrival cl => Sys2Proof.Machine.execPairRecordArrival cl s
  | .stealRetryTimer loc => Sys2Proof.Machine.execStealRetryTimer loc s
  | .netSweep launch => Sys2Proof.Machine.execNetSweep launch s
  | .epochAdopt cl launch epoch => Sys2Proof.Machine.execEpochAdopt cl launch epoch s
  | .faultReport node => Sys2Proof.Machine.execFaultReport node s
  | .launchStopAtCore launch core => Sys2Proof.Machine.execLaunchStopAtCore launch core s
  | .launchComplete launch => Sys2Proof.Machine.execLaunchComplete launch s
  | .completionWrite launch => Sys2Proof.Machine.execCompletionWrite launch s
  | .queueTailWrite node q v => Sys2Proof.Machine.execQueueTailWrite node q v s
  | .queueEnable node q => Sys2Proof.Machine.execQueueEnable node q s
  | .queueDisable node q => Sys2Proof.Machine.execQueueDisable node q s
  | .queueAbort node q => Sys2Proof.Machine.execQueueAbort node q s
  | .configurationWrite node w => Sys2Proof.Machine.execConfigurationWrite node w s
  | .launchRecordRead node q => Sys2Proof.Machine.execLaunchRecordRead node q s
  | .schedulerRound node cls => Sys2Proof.Machine.execSchedulerRound node cls s
  | .launchPlace launch => Sys2Proof.Machine.execLaunchPlace launch s
  | .graphNodeDispatch node q j => Sys2Proof.Machine.execGraphNodeDispatch node q j s
  | .contextCreate node ctx => Sys2Proof.Machine.execContextCreate node ctx s
  | .contextDestroy node ctx => Sys2Proof.Machine.execContextDestroy node ctx s
  | .contextInvalidate node ctx => Sys2Proof.Machine.execContextInvalidate node ctx s
  | .contextMigrate node ctx => Sys2Proof.Machine.execContextMigrate node ctx s
  | .migrationFirstPassDone node ctx => Sys2Proof.Machine.execMigrationFirstPassDone node ctx s
  | .migrationFinalPassDone node ctx => Sys2Proof.Machine.execMigrationFinalPassDone node ctx s
  | .faultHeadWrite node ctx v => Sys2Proof.Machine.execFaultHeadWrite node ctx v s
  | .faultResolve node ctx token refuse => Sys2Proof.Machine.execFaultResolve node ctx token refuse s
  | .checkpointTake node ctx => Sys2Proof.Machine.execCheckpointTake node ctx s
  | .checkpointPullStart node ctx => Sys2Proof.Machine.execCheckpointPullStart node ctx s
  | .checkpointComplete node ctx stopUs => Sys2Proof.Machine.execCheckpointComplete node ctx stopUs s
  | .checkpointRestore node ctx => Sys2Proof.Machine.execCheckpointRestore node ctx s
  | .coreFailureDetected core => Sys2Proof.Machine.execCoreFailureDetected core s
  | .clusterFailureDetected cl => Sys2Proof.Machine.execClusterFailureDetected cl s
  | .dieFailureDetected die => Sys2Proof.Machine.execDieFailureDetected die s
  | .packageFailureDetected node => Sys2Proof.Machine.execPackageFailureDetected node s
  | .lossDeclaration core unit => Sys2Proof.Machine.execLossDeclaration core unit s
  | .coreRepair core => Sys2Proof.Machine.execCoreRepair core s
  | .clusterRepair cl => Sys2Proof.Machine.execClusterRepair cl s
  | .nodeAliasInstall failed spare => Sys2Proof.Machine.execNodeAliasInstall failed spare s
  | .quarantineSelfTest cl pass => Sys2Proof.Machine.execQuarantineSelfTest cl pass s
  | .spareFill die => Sys2Proof.Machine.execSpareFill die s
  | .coreResetAfterHalt core => Sys2Proof.Machine.execCoreResetAfterHalt core s
  | .routerCycle cl => Sys2Proof.Machine.execRouterCycle cl s
  | .fabricFallback node => Sys2Proof.Machine.execFabricFallback node s
  | .requestResendTimeout loc op => Sys2Proof.Machine.execRequestResendTimeout loc op s
  | .congestionNotice node target tier => Sys2Proof.Machine.execCongestionNotice node target tier s
  | .windowGrowthTimer node target tier => Sys2Proof.Machine.execWindowGrowthTimer node target tier s
  | .tierStarvationGrant node port => Sys2Proof.Machine.execTierStarvationGrant node port s
  | .linkAuthFailure node port => Sys2Proof.Machine.execLinkAuthFailure node port s
  | .linkTrainDown node port => Sys2Proof.Machine.execLinkTrainDown node port s
  | .keyInstall node port ctx key => Sys2Proof.Machine.execKeyInstall node port ctx key s
  | .keyActivate node port ctx slot => Sys2Proof.Machine.execKeyActivate node port ctx slot s
  | .keySlotRetire node port ctx slot => Sys2Proof.Machine.execKeySlotRetire node port ctx slot s
  | .powerControlTick node watts => Sys2Proof.Machine.execPowerControlTick node watts s
  | .issueThrottle node => Sys2Proof.Machine.execIssueThrottle node s
  | .droopAlarm node => Sys2Proof.Machine.execDroopAlarm node s
  | .thermalThrottle die => Sys2Proof.Machine.execThermalThrottle die s
  | .thermalTrip die => Sys2Proof.Machine.execThermalTrip die s
  | .setPowerLimit node watts => Sys2Proof.Machine.execSetPowerLimit node watts s
  | .powerGoodBoot node img => Sys2Proof.Machine.execPowerGoodBoot node img s
  | .lifeLogRecord node => Sys2Proof.Machine.execLifeLogRecord node s
  | .getLifeLogRecord node seq => Sys2Proof.Machine.execGetLifeLogRecord node seq s
  | .firmwareUpdate node region img => Sys2Proof.Machine.execFirmwareUpdate node region img s
  | .getVersion node => Sys2Proof.Machine.execGetVersion node s
  | .getCapabilities node => Sys2Proof.Machine.execGetCapabilities node s
  | .negotiateAlgorithms node offer => Sys2Proof.Machine.execNegotiateAlgorithms node offer s
  | .getDigests node => Sys2Proof.Machine.execGetDigests node s
  | .getCertificate node slot offset length => Sys2Proof.Machine.execGetCertificate node slot offset length s
  | .challenge node nonce => Sys2Proof.Machine.execChallenge node nonce s
  | .getMeasurements node index nonce => Sys2Proof.Machine.execGetMeasurements node index nonce s
  | .keyExchange node who pub => Sys2Proof.Machine.execKeyExchange node who pub s
  | .finish node session macOk => Sys2Proof.Machine.execFinish node session macOk s
  | .endSession node session => Sys2Proof.Machine.execEndSession node session s
  | .securedKeyInstallMessage node session msg => Sys2Proof.Machine.execSecuredKeyInstallMessage node session msg s
  | .storePerformed loc => Sys2Proof.Machine.execStorePerformed loc s
  | .invpgCompletion who => Sys2Proof.Machine.execInvpgCompletion who s
  | .powerLoss node => Sys2Proof.Machine.execPowerLoss node s
  | .tdispStateRequest node ctx state requester => Sys2Proof.Machine.execTdispStateRequest node ctx state requester s

end Sys2Proof.Machine
end

