-- ==== Sys2Proof/Machine/Fetch.lean ====
section
/-! DEFINITION. Fetching the instruction at the PC (spec/03_encoding_and_assembly.md R73, R79) and giving a slot its turn
(spec/08_grains_and_the_barrel.md R250). -/

namespace Sys2Proof.Machine

/-- The global address a code pointer is fetched at. -/
def codeAddr (s : State) (p : Word) : Nat :=
  let g := s.grain
  if ptrSeg p < 4 then resolve s p else effAddr s (clusterNode s.here) g.launch g.replica (resolve s p) false
/-- The word at an address that the core's instruction cache serves (R3). DESIGN CHOICE: which held words it serves and which are read at their
owner again is left free (notes/assumptions/65.md). -/
def cachedWord (s : State) (addr : Nat) : Option Half :=
  match (s.core s.cur.core).icache.find? fun x => x.ctx == s.accCtx && x.addr == addr / 32 with
  | none => none
  | some x => if Config.choice s.tick (2 ^ 64 + addr) % 2 = 0 then none else some (BitVec.ofNat 16 (leNat ((x.data.drop (addr % 32)).take 2)))
/-- A fetched line enters the instruction cache of 16 KiB, 512 lines; the oldest leaves (R3). -/
def Core.keepLine (c : Core) (x : CodeLine) : Core :=
  let rest := c.icache.filter fun y => !(y.ctx == x.ctx && y.addr == x.addr)
  { c with icache := (if 512 ≤ rest.length then rest.drop 1 else rest) ++ [x] }
/-- What fetching the word at a pointer leaves: the line its owner gave, and the mapping used (R3, R378). -/
def keepWord (s : State) (p : Word) : State :=
  let addr := codeAddr s p
  if (cachedWord s addr).isSome then s
  else match readOwner s s.accCtx (addr / 32 * 32) 32 with
    | .value bs =>
      let s := tlbTouch s s.accCtx addr 2
      s.setCurCore ((s.core s.cur.core).keepLine { ctx := s.accCtx, addr := addr / 32, data := bs })
    | _ => s
/-- What fetching an instruction of `n` words leaves. -/
def keepCode (s : State) (n : Nat) : State := (List.range n).foldl (fun t j => keepWord t (pcAdd s.grain.pc (2 * j))) s

/-- One word fetched: checks 3 and 5 of R33 with the x right, through the segment of the word's own pointer; from the instruction cache, or at
its owner. -/
def fetchWord (s : State) (pc p : Word) : Except Stop Half :=
  let d := s.grain.seg (ptrSeg p)
  let real := codeAddr s p
  if !d.x then .error (.trap .segRights (segInfo pc ||| (1#64 <<< 57)))
  else if d.limit < ptrOff p + 2 || (decide (ptrSeg p < 4) && decide (2 ^ 38 < d.w0.toNat + ptrOff p + 2))
      || (windowOf s real 2).isNone then .error (.trap .segBounds (segInfo pc))
  else match cachedWord s real with
  | some w => .ok w
  | none =>
  if engineHolds s s.accCtx real 2 then .error (.park .engineLine [retryEvent s.cur])
  else match readOwner s s.accCtx real 2 with
    | .value bs => .ok (BitVec.ofNat 16 (leNat bs))
    | .lost => .error (.trap .peerLost (BitVec.ofNat 64 real))
    | .poisoned => .error (.trap .uncorrectable (BitVec.ofNat 64 real))
    | .noPlace (.miss gid va) => .error (.park .walk [.tlbWalkComplete gid s.accCtx (BitVec.ofNat 38 va)])
    | .noPlace (.held _ _) => .error (.park .walk [retryEvent s.cur])
    | .noPlace (.refused _ _) => .error (.trap .segBounds (segInfo pc))
    | .noPlace (.unread c) => .error (.trap c (BitVec.ofNat 64 real))
    | .noPlace (.fault gid va) => .error (.page gid s.accCtx va (segInfo pc) 2)

/-- TRAP_INFO of a decoding fault (R237). -/
def decodeInfo (base : Half) (n : Nat) : Word := (BitVec.ofNat 64 n <<< 16) ||| base.setWidth 64
/-- The cause of a decoding fault (R79). -/
def decodeCause : DecodeErr → Cause
  | .illegalOpcode => .illegalOpcode
  | .illegalPrefix => .illegalPrefix
  | .reservedField => .reservedField

/-- Fetches words until the decoder has an instruction, or refuses it: at most a prefix chain and its base word (R73, R75). -/
def fetchFrom (s : State) (pc : Word) : Nat → List Half → Except Stop Instr
  | 0, _ => .error (.trap .illegalPrefix 0#64)
  | n + 1, ws =>
    match fetchWord s pc (pcAdd pc (2 * ws.length)) with
    | .error st => .error st
    | .ok w =>
      match decodeWords (ws ++ [w]) with
      | .instr i _ => .ok i
      | .bad e base k => .error (.trap (decodeCause e) (decodeInfo base k))
      | .more => fetchFrom s pc n (ws ++ [w])
/-- The instruction at the PC of the grain whose turn it is. -/
def fetch (s : State) : Except Stop Instr := fetchFrom s s.grain.pc 5 []

/-- The waits that stand before any instruction of the grain (R39, R41, R139, R214, R278). -/
def turnStop (s : State) : Option Stop :=
  if s.pageFaulted s.cur then some (.park .pageFault [])
  else if s.arrayBusy s.cur then some (.park .array [])
  else if s.grain.blocked then some (.park s.grain.blockWait [])
  else none

/-- The prefect in a slot's monitor mode runs the service and its MRET, one step (R229; notes/assumptions/14.md). -/
def prefectTurn : Instr := .mret ⟨none, false⟩

/-- The grain whose turn it is issues the instruction at its PC. -/
def turn (s : State) : Host.Outcome State Fault Refusal :=
  match turnStop s with
  | some st => finish s (.error st)
  | none =>
    if s.inMonitor && (s.slotAt s.cur).msave.isSome then exec prefectTurn s
    else match fetch s with
      | .ok i => exec i (keepCode s (Sys2Proof.wordCount i))
      | .error st => finish s (.error st)

end Sys2Proof.Machine
end

