-- ==== Sys2Proof/Machine/Run.lean ====
section
/-! DEFINITION. Events that are due run by the meanings of exec: one arm per constructor of Event, each the same direct call as that
constructor's arm in Dispatch.lean (Laws/Run.lean says so). -/

namespace Sys2Proof.Machine

/-- The meaning of an event that is due. -/
def runEvent (i : Event) (s : State) : Host.Outcome State Fault Refusal :=
  match i with
  | .barrelIssueCycle core => Sys2Proof.Machine.execBarrelIssueCycle core s
  | .longLatencyResult loc op => Sys2Proof.Machine.execLongLatencyResult loc op s
  | .tlbWalkComplete cl ctx va => Sys2Proof.Machine.execTlbWalkComplete cl ctx va s
  | .sliceExpiry loc => Sys2Proof.Machine.execSliceExpiry loc s
  | .priorityPreempt core => Sys2Proof.Machine.execPriorityPreempt core s
  | .spillComplete loc => Sys2Proof.Machine.execSpillComplete loc s
  | .fillComplete loc => Sys2Proof.Machine.execFillComplete loc s
  | .remoteWatchInsert loc reg => Sys2Proof.Machine.execRemoteWatchInsert loc reg s
  | .remoteWatchWake loc reg v => Sys2Proof.Machine.execRemoteWatchWake loc reg v s
  | .watchPollTimer loc reg => Sys2Proof.Machine.execWatchPollTimer loc reg s
  | .barrierStaggerResume launch sc core => Sys2Proof.Machine.execBarrierStaggerResume launch sc core s
  | .channelFlitArrival core ch => Sys2Proof.Machine.execChannelFlitArrival core ch s
  | .channelWatchdogExpiry loc op => Sys2Proof.Machine.execChannelWatchdogExpiry loc op s
  | .macqWatchdogExpiry loc => Sys2Proof.Machine.execMacqWatchdogExpiry loc s
  | .bagPushWatchdogExpiry loc op => Sys2Proof.Machine.execBagPushWatchdogExpiry loc op s
  | .migrationArrival loc => Sys2Proof.Machine.execMigrationArrival loc s
  | .spawnArrival core => Sys2Proof.Machine.execSpawnArrival core s
  | .arrivalRetry core => Sys2Proof.Machine.execArrivalRetry core s
  | .excursionAtOwner loc op => Sys2Proof.Machine.execExcursionAtOwner loc op s
  | .excursionReturn loc op => Sys2Proof.Machine.execExcursionReturn loc op s
  | .remoteUpdateApply cl => Sys2Proof.Machine.execRemoteUpdateApply cl s
  | .bursarAtomic die slot => Sys2Proof.Machine.execBursarAtomic die slot s
  | .copyCommandStart cl => Sys2Proof.Machine.execCopyCommandStart cl s
  | .copyCommandComplete cl id => Sys2Proof.Machine.execCopyCommandComplete cl id s
  | .burstWindowClose cl region => Sys2Proof.Machine.execBurstWindowClose cl region s
  | .sequencerEntryStart core => Sys2Proof.Machine.execSequencerEntryStart core s
  | .sequencerEntryComplete loc => Sys2Proof.Machine.execSequencerEntryComplete loc s
  | .mmaStart core => Sys2Proof.Machine.execMmaStart core s
  | .mmaComplete core => Sys2Proof.Machine.execMmaComplete core s
  | .weightSlotReload core w => Sys2Proof.Machine.execWeightSlotReload core w s
  | .inputStreamFetch loc n => Sys2Proof.Machine.execInputStreamFetch loc n s
  | .outputStreamLineWrite loc n => Sys2Proof.Machine.execOutputStreamLineWrite loc n s
  | .randValueReady core v => Sys2Proof.Machine.execRandValueReady core v s
  | .forwardedValueArrival who count v => Sys2Proof.Machine.execForwardedValueArrival who count v s
  | .replicaCompareFlit who flit => Sys2Proof.Machine.execReplicaCompareFlit who flit s
  | .externalAtomicResult who op old => Sys2Proof.Machine.execExternalAtomicResult who op old s
  | .pairRecordArrival cl => Sys2Proof.Machine.execPairRecordArrival cl s
  | .stealRetryTimer loc => Sys2Proof.Machine.execStealRetryTimer loc s
  | .netSweep launch => Sys2Proof.Machine.execNetSweep launch s
  | .epochAdopt cl launch epoch => Sys2Proof.Machine.execEpochAdopt cl launch epoch s
  | .faultReport node => Sys2Proof.Machine.execFaultReport node s
  | .launchStopAtCore launch core => Sys2Proof.Machine.execLaunchStopAtCore launch core s
  | .launchComplete launch => Sys2Proof.Machine.execLaunchComplete launch s
  | .completionWrite launch => Sys2Proof.Machine.execCompletionWrite launch s
  | .queueTailWrite node q v => Sys2Proof.Machine.execQueueTailWrite node q v s
  | .queueEnable node q => Sys2Proof.Machine.execQueueEnable node q s
  | .queueDisable node q => Sys2Proof.Machine.execQueueDisable node q s
  | .queueAbort node q => Sys2Proof.Machine.execQueueAbort node q s
  | .configurationWrite node w => Sys2Proof.Machine.execConfigurationWrite node w s
  | .launchRecordRead node q => Sys2Proof.Machine.execLaunchRecordRead node q s
  | .schedulerRound node cls => Sys2Proof.Machine.execSchedulerRound node cls s
  | .launchPlace launch => Sys2Proof.Machine.execLaunchPlace launch s
  | .graphNodeDispatch node q j => Sys2Proof.Machine.execGraphNodeDispatch node q j s
  | .contextCreate node ctx => Sys2Proof.Machine.execContextCreate node ctx s
  | .contextDestroy node ctx => Sys2Proof.Machine.execContextDestroy node ctx s
  | .contextInvalidate node ctx => Sys2Proof.Machine.execContextInvalidate node ctx s
  | .contextMigrate node ctx => Sys2Proof.Machine.execContextMigrate node ctx s
  | .migrationFirstPassDone node ctx => Sys2Proof.Machine.execMigrationFirstPassDone node ctx s
  | .migrationFinalPassDone node ctx => Sys2Proof.Machine.execMigrationFinalPassDone node ctx s
  | .faultHeadWrite node ctx v => Sys2Proof.Machine.execFaultHeadWrite node ctx v s
  | .faultResolve node ctx token refuse => Sys2Proof.Machine.execFaultResolve node ctx token refuse s
  | .checkpointTake node ctx => Sys2Proof.Machine.execCheckpointTake node ctx s
  | .checkpointPullStart node ctx => Sys2Proof.Machine.execCheckpointPullStart node ctx s
  | .checkpointComplete node ctx stopUs => Sys2Proof.Machine.execCheckpointComplete node ctx stopUs s
  | .checkpointRestore node ctx => Sys2Proof.Machine.execCheckpointRestore node ctx s
  | .coreFailureDetected core => Sys2Proof.Machine.execCoreFailureDetected core s
  | .clusterFailureDetected cl => Sys2Proof.Machine.execClusterFailureDetected cl s
  | .dieFailureDetected die => Sys2Proof.Machine.execDieFailureDetected die s
  | .packageFailureDetected node => Sys2Proof.Machine.execPackageFailureDetected node s
  | .lossDeclaration core unit => Sys2Proof.Machine.execLossDeclaration core unit s
  | .coreRepair core => Sys2Proof.Machine.execCoreRepair core s
  | .clusterRepair cl => Sys2Proof.Machine.execClusterRepair cl s
  | .nodeAliasInstall failed spare => Sys2Proof.Machine.execNodeAliasInstall failed spare s
  | .quarantineSelfTest cl pass => Sys2Proof.Machine.execQuarantineSelfTest cl pass s
  | .spareFill die => Sys2Proof.Machine.execSpareFill die s
  | .coreResetAfterHalt core => Sys2Proof.Machine.execCoreResetAfterHalt core s
  | .routerCycle cl => Sys2Proof.Machine.execRouterCycle cl s
  | .fabricFallback node => Sys2Proof.Machine.execFabricFallback node s
  | .requestResendTimeout loc op => Sys2Proof.Machine.execRequestResendTimeout loc op s
  | .congestionNotice node target tier => Sys2Proof.Machine.execCongestionNotice node target tier s
  | .windowGrowthTimer node target tier => Sys2Proof.Machine.execWindowGrowthTimer node target tier s
  | .tierStarvationGrant node port => Sys2Proof.Machine.execTierStarvationGrant node port s
  | .linkAuthFailure node port => Sys2Proof.Machine.execLinkAuthFailure node port s
  | .linkTrainDown node port => Sys2Proof.Machine.execLinkTrainDown node port s
  | .keyInstall node port ctx key => Sys2Proof.Machine.execKeyInstall node port ctx key s
  | .keyActivate node port ctx slot => Sys2Proof.Machine.execKeyActivate node port ctx slot s
  | .keySlotRetire node port ctx slot => Sys2Proof.Machine.execKeySlotRetire node port ctx slot s
  | .powerControlTick node watts => Sys2Proof.Machine.execPowerControlTick node watts s
  | .issueThrottle node => Sys2Proof.Machine.execIssueThrottle node s
  | .droopAlarm node => Sys2Proof.Machine.execDroopAlarm node s
  | .thermalThrottle die => Sys2Proof.Machine.execThermalThrottle die s
  | .thermalTrip die => Sys2Proof.Machine.execThermalTrip die s
  | .setPowerLimit node watts => Sys2Proof.Machine.execSetPowerLimit node watts s
  | .powerGoodBoot node img => Sys2Proof.Machine.execPowerGoodBoot node img s
  | .lifeLogRecord node => Sys2Proof.Machine.execLifeLogRecord node s
  | .getLifeLogRecord node seq => Sys2Proof.Machine.execGetLifeLogRecord node seq s
  | .firmwareUpdate node region img => Sys2Proof.Machine.execFirmwareUpdate node region img s
  | .getVersion node => Sys2Proof.Machine.execGetVersion node s
  | .getCapabilities node => Sys2Proof.Machine.execGetCapabilities node s
  | .negotiateAlgorithms node offer => Sys2Proof.Machine.execNegotiateAlgorithms node offer s
  | .getDigests node => Sys2Proof.Machine.execGetDigests node s
  | .getCertificate node slot offset length => Sys2Proof.Machine.execGetCertificate node slot offset length s
  | .challenge node nonce => Sys2Proof.Machine.execChallenge node nonce s
  | .getMeasurements node index nonce => Sys2Proof.Machine.execGetMeasurements node index nonce s
  | .keyExchange node who pub => Sys2Proof.Machine.execKeyExchange node who pub s
  | .finish node session macOk => Sys2Proof.Machine.execFinish node session macOk s
  | .endSession node session => Sys2Proof.Machine.execEndSession node session s
  | .securedKeyInstallMessage node session msg => Sys2Proof.Machine.execSecuredKeyInstallMessage node session msg s
  | .storePerformed loc => Sys2Proof.Machine.execStorePerformed loc s
  | .invpgCompletion who => Sys2Proof.Machine.execInvpgCompletion who s
  | .powerLoss node => Sys2Proof.Machine.execPowerLoss node s
  | .tdispStateRequest node ctx state requester => Sys2Proof.Machine.execTdispStateRequest node ctx state requester s

end Sys2Proof.Machine
end

