-- ==== Sys2Proof/Machine/Timers.lean ====
section
/-! DEFINITION. Events that come due by the state itself: timers, watchdogs, sweeps, routers that hold flits, repairs
(notes/assumptions/3.md). Which of them happens when is Step.lean's. -/

namespace Sys2Proof.Machine

/-- The registers of a grain whose poll timers run (R153). -/
def pollTimers (l : Loc) (g : Grain) : List Event :=
  (List.finRange 5).filterMap fun r => if (g.watches[r]).polling then some (.watchPollTimer l r) else none
/-- The watchdog of one outstanding operation (R162, R225). -/
def pendTimer (s : State) (l : Loc) (p : Pend) : Option Event :=
  let c := s.core l.core
  match p.kind with
  | .send core ch t =>
    if sendHeld s l p.id core ch && decide (t ≤ c.cycle) then some (.channelWatchdogExpiry l p.id) else none
  | k => match pushUntil k with
    | some t => if t ≤ c.cycle then some (.bagPushWatchdogExpiry l p.id) else none
    | none => none
/-- The resend of a request that its owner in another package does not answer (R415). -/
def resendTimer (s : State) (l : Loc) (p : Pend) : Option Event :=
  let node := clusterNode (coreCluster l.core)
  match p.kind.owner with
  | none => none
  | some a => match requestPort s node a with
    | none => none
    | some port => if unanswered s node a port then some (.requestResendTimeout l p.id) else none
/-- A slot's timers: its slice, its tile wait, its operations, its polls (R202, R252). -/
def slotTimers (s : State) (l : Loc) : List Event :=
  let c := s.core l.core
  let sl := s.slotAt l
  if !sl.occupied then []
  else
    (if lapsed s l && (!sl.expired || (expiredVictim s l.core == some l.slot && s.engineIdle l.core))
        then [Event.sliceExpiry l] else [])
      ++ (match sl.grain.tileWait with
          | some t => if sl.st == .parked .tile && decide (t + c.chanWatchdog.toNat ≤ c.cycle) then [.macqWatchdogExpiry l] else []
          | none => [])
      ++ sl.grain.pend.filterMap (pendTimer s l) ++ sl.grain.pend.filterMap (resendTimer s l)
      ++ pollTimers l sl.grain
/-- A core's timers. -/
def coreTimers (s : State) (k : Nat) : List Event :=
  (if s.engineIdle k && (preemptVictim s k).isSome then [Event.priorityPreempt k] else []) ++ (coreLocs k).flatMap (slotTimers s)
/-- A cluster's timers: polls of spilled grains, a router with flits, a quarantine's self-test (R410, R423). -/
def clusterTimers (s : State) (e : Nat × Cluster) : List Event :=
  e.2.slates.flatMap (fun x => pollTimers (slateLoc x.1) x.2.grain)
    ++ (if e.2.flits.isEmpty then [] else [Event.routerCycle e.1])
    ++ (if e.2.status == .quarantined then [.quarantineSelfTest e.1 (Config.choice s.tick 2 % 2 == 1)] else [])
/-- A net launch's sweep (R317). -/
def launchTimers (e : Nat × Launch) : List Event := if e.2.net && e.2.st == .running && !e.2.finished then [.netSweep e.1] else []
/-- The repair of a failed unit, and the fill of the first that is repaired (R420, R421, R431). -/
def fillTimers (s : State) (n : Nat) (p : Pkg) : List Event :=
  (p.fills.filterMap fun f => if f.repaired then none else match f.unit with
    | .core k => some (Event.coreRepair k)
    | .cluster g => some (.clusterRepair g)
    | _ => none)
    ++ (p.fills.filter fun f => f.repaired && !f.running && fillMayRun s n f).map fun f => .spareFill (clusterDie (unitGid f.unit))
/-- Draining key slots whose requests are answered (R393). -/
def keyTimers (s : State) (n : Nat) (p : Pkg) : List Event :=
  p.keys.flatMap fun e => (List.finRange 4).filterMap fun i =>
    let x := e.2[i]
    if x.st == .draining && !x.requests.any (stillOut s) then
      some (.keySlotRetire n ⟨e.1 / 4096 % 6, Nat.mod_lt _ (by decide)⟩ (BitVec.ofNat 12 e.1) i)
    else none
/-- A package's timers: scheduler rounds while a launch can be placed (R367), power control and the log while it is up, windows, ports with flits, keys, repairs (R413, R414, R434, R436). -/
def pkgTimers (s : State) (e : Nat × Pkg) : List Event :=
  let n := e.1
  let p := e.2
  (if p.up then ((List.range 4).filter fun c => classPlaceable s n (BitVec.ofNat 2 c)).map fun c => Event.schedulerRound n (BitVec.ofNat 2 c)
   else [])
    ++ (if p.up then [Event.powerControlTick n (Config.choice s.tick 1), .lifeLogRecord n] else [])
    ++ (p.windows.map fun w => .windowGrowthTimer n w.target ⟨w.tier % 3, Nat.mod_lt _ (by decide)⟩)
    ++ ((List.finRange 6).filterMap fun i =>
          if (p.ports[i]).up && ((p.ports[i]).nextTier fun _ => true).isSome then some (.tierStarvationGrant n i) else none)
    ++ keyTimers s n p ++ fillTimers s n p
/-- Every timer that has come due. -/
def timers (s : State) : List Event :=
  s.cores.flatMap (fun e => coreTimers s e.1) ++ s.clusters.flatMap (clusterTimers s) ++ s.launches.flatMap launchTimers
    ++ s.pkgs.flatMap (pkgTimers s)

end Sys2Proof.Machine
end

