-- ==== Sys2Proof/Machine/Sched.lean ====
section
/-! DEFINITION. What can happen next, and a program placed for the next step to run (spec/08_grains_and_the_barrel.md R250;
notes/assumptions/3.md, 4.md). -/

namespace Sys2Proof.Machine

/-- What a step does: a core lets a slot issue, an event of the agenda happens, a timer does. -/
inductive Action where
  | issue (core : Nat)
  | agenda (i : Nat)
  | timer (e : Event)
  deriving DecidableEq, Repr

/-- All that can happen next. -/
def State.actions (s : State) : List Action :=
  (s.cores.filter fun e => (nextSlot s e.1).isSome).map (fun e => .issue e.1)
    ++ (List.range s.agenda.length).map .agenda ++ (timers s).map .timer
/-- What does happen: a single action, or a free choice among several; none where nothing can. -/
def State.chosen (s : State) : Option Action :=
  match s.actions with
  | [] => none
  | [a] => some a
  | a :: r => (a :: r)[Config.pick s.tick % (r.length + 1)]?
/-- `n` clk pass on every core (R7). -/
def State.elapse (s : State) (n : Nat) : State := { s with cores := s.cores.map fun e => (e.1, { e.2 with cycle := e.2.cycle + n }) }
/-- The clk that pass at a step that issues nothing (notes/assumptions/5.md). -/
def State.waits (s : State) : State := (s.elapse (1 + Config.extraClk s.tick)).ticked

/-- The slot stands parked before the instruction it was given a turn for (R249). -/
def waiting (pc : Word) (sl : Slot) : Bool :=
  (match sl.st with
   | .parked w => w != .fault
   | .gated => true
   | _ => false) && sl.grain.pc == pc
/-- An instruction that parks its grain takes no issue clk of the core (R250): the rotation stands where it stood. -/
def unclocked (old s : State) (k : Nat) (i : Fin 16) : State :=
  let o := old.core k
  let c := s.core k
  let sl := c.slots[i]
  if waiting (o.slots[i]).grain.pc sl then
    s.setCore k { c with cycle := o.cycle, served := o.served, slots := c.slots.set i { sl with lastIssue := (o.slots[i]).lastIssue } }
  else s
/-- A core's next slot takes its turn: a divide's turn passes, any other runs the instruction (R109, R250). -/
def issueAt (k : Nat) (s : State) : Host.Outcome State Fault Refusal :=
  match nextSlot s k with
  | none => .next (barrelClk s k)
  | some i =>
    if 0 < (s.grainAt ⟨k, i⟩).skip then .next (barrelClk s k)
    else match turn (barrelClk s k) with
      | .next t => .next (unclocked s t k i)
      | o => o

/-! ### A program placed for the next step (notes/assumptions/4.md) -/

/-- The cluster SRAM of cluster 0 (R36), where the program is placed. -/
def placedBase : Nat := 0x400000
/-- The segment of a placed program: the cluster SRAM, with the rights to read, write and execute. -/
def placedSeg : Seg := ⟨BitVec.ofNat 64 placedBase, 0x100000#64, 7#64⟩
/-- The launch of a placed program: one grain on core 0, running. -/
def placedLaunch : Launch :=
  { Launch.none with
    st := .running, segs := (Vector.replicate 8 Seg.empty).set 0 placedSeg, allot := [0], origins := [0], cores := [0], live := 1,
    code := placedBase }
/-- Core 0 with the placed program's grain in slot 0 and every other slot empty. -/
def placedCore : Core :=
  { Core.reset with
    status := .running, partitions := [(1, 0)],
    slots := Core.reset.slots.set 0 { Slot.blank with
      st := .ready, grain := { Grain.blank with sg := placedLaunch.segs, segSet := 1#64, launch := 1 } } }
/-- Bytes of words in the hardware's order: each little-endian, the first at the lowest address (R16, R73). -/
def wordBytes (ws : List Half) : List Byte := ws.flatMap fun w => leBytes 2 w.toNat
/-- The machine with a program in place and nothing else to do: what a queue, a launch record and a code object would have set up. -/
def placed (s : State) (ws : List Half) : State :=
  { State.reset with
    mem := s.mem.writeBytes placedBase (wordBytes ws), tick := s.tick, cores := [(0, placedCore)], launches := [(1, placedLaunch)],
    nextLaunch := 2 }

end Sys2Proof.Machine
end

