-- ==== Sys2Proof/Machine/Step.lean ====
section
/-! DEFINITION. One step of the whole machine: one thing happens, an instruction or an event, each whole and indivisible
(spec/95_what_each_step_holds.md; notes/assumptions/3.md). -/

namespace Sys2Proof.Machine

/-- One step. -/
def step (s : State) : Host.Outcome State Fault Refusal :=
  match s.chosen with
  | none => .next s.waits
  | some (.issue k) => issueAt k s.ticked
  | some (.agenda i) => match s.agenda[i]? with
    | some e => runEvent e { s.waits with agenda := s.agenda.eraseIdx i }
    | none => .next s.waits
  | some (.timer e) => runEvent e s.waits

/-- The machine with an instruction of a table row stored where the next step fetches it, the bits above the row's being zero. -/
def State.withFetchWord (s : State) (nbits w : Nat) : State :=
  placed s (Sys2Proof.wordsOfTable nbits w ++ [0#16, 0#16, 0#16, 0#16])

end Sys2Proof.Machine
end

