-- ==== Sys2Proof/Safety.lean ====
section
/-! DEFINITION. What counts as a safe run, in the terms that statements use. -/

namespace Sys2Proof.Machine

/-- The machine did not stop. -/
def Runs (o : Host.Outcome State Fault Refusal) : Prop := ∃ s, o = .next s
/-- The invariant of the machine: memory stands in its one canonical form (notes/assumptions/1.md). -/
def State.Inv (s : State) : Prop := s.mem.wf = true
/-- Every byte reads in `t` as it reads in `s` at a cluster: those of the system's own memory, and those of outside memory as the cluster's L2
holds them (R279). -/
def SameBytes (s t : State) (gid : Nat) : Prop := ∀ k, ownerByte t gid k = ownerByte s gid k
/-- A run of `n` steps that goes on throughout. -/
def SafeRun (n : Nat) (s : State) : Prop := Runs (Sys2Proof.core.run n s)

/-! ### When an instruction executes, and how it reads and writes registers -/

/-- The grain whose turn it is executes `i`: no store of it waits for its page and no operation of it is at the array (R139, R214), no
window, body rule or pending result stops it (R39, R40, R104, R178, R196), its guard holds (R77), and it is no body instruction of a VLOOP
whose count is 0 (R195). `gd` is the instruction's guard and `t` what it touches. -/
def Issues (i : Instr) (gd : Option Guard) (t : Touch) (s : State) : Prop :=
  s.pageFaulted s.cur = false ∧ s.arrayBusy s.cur = false ∧ issueStop i s.grain gd t = none ∧ guardHolds s.grain gd = true
    ∧ s.grain.voidBody = false
/-- A source field answers `x` and leaves `s'` (R20, R21, R103). -/
def Reads (pc : Word) (r : Reg) (s : State) (x : Word) (s' : State) : Prop := (srcM pc r).run s = .ok (x, s')
/-- A field that is read and then written answers `x` (R103). -/
def ReadsOwn (pc : Word) (r : Reg) (s : State) (x : Word) (s' : State) : Prop := (readWriteM pc r).run s = .ok (x, s')
/-- A destination field takes `x` and leaves `s'` (R20, R22, R103). -/
def Writes (pc : Word) (r : Reg) (x : Word) (s s' : State) : Prop := (dstM pc r x).run s = .ok ((), s')
/-- The instruction's next state is the one its write of `x` to `d` leaves, wherever `d` can be written. -/
def EndsWriting (i : Instr) (s s1 : State) (d : Reg) (x : Word) : Prop := ∀ t, Writes s.grain.pc d x s1 t → exec i s = .next t
/-- The instruction completes with its effect on the grain and nothing else: the grain `f` makes of the one past the instruction. -/
def EndsWith (i : Instr) (s : State) (f : Grain → Grain) : Prop := exec i s = .next ((s.issued i).setGrain (f (s.issued i).grain))

/-! ### Long-latency operations and accesses -/

/-- The state in which an operation of the grain whose turn it is has become outstanding: its window opens with `la` positions (R39, R40). -/
def State.opened (s : State) (pc : Word) (kind : PendKind) (dst : List Res) (la : BitVec 4) : State :=
  s.setGrain { s.grain with nextOp := s.grain.nextOp + 1, pend := s.grain.pend ++ [⟨s.grain.nextOp + 1, pc, kind⟩],
                            windows := s.grain.windows ++ [{ op := s.grain.nextOp + 1, dst, k := la.toNat, pos := 0 }] }
/-- The same, with the operation's result due. -/
def State.begun (s : State) (pc : Word) (kind : PendKind) (dst : List Res) (la : BitVec 4) : State :=
  (s.opened pc kind dst la).due [.longLatencyResult s.cur (s.grain.nextOp + 1)]
/-- The state in which an operation whose result needs no wait has opened its window: nothing of it is outstanding. -/
def State.answered (s : State) (dst : List Res) (la : BitVec 4) : State :=
  s.setGrain { s.grain with nextOp := s.grain.nextOp + 1, pend := s.grain.pend.filter fun p => p.id != s.grain.nextOp + 1,
                            windows := s.grain.windows ++ [{ op := s.grain.nextOp + 1, dst, k := la.toNat, pos := 0 }] }
/-- The instruction completes by making an operation outstanding, from the state `s1`. -/
def Begins (i : Instr) (s s1 : State) (kind : PendKind) (dst : List Res) (la : BitVec 4) : Prop :=
  exec i s = .next (s1.begun s.grain.pc kind dst la)
/-- A register names a pointer of one of the formats `ok`; after its offset it is `p`, and its element step is `step` (R129). -/
def Points (r : Reg) (off : List Chunk) (ok : List Nat) (s : State) (p : Word) (step : Nat) : Prop :=
  ok.contains (ptrFmt (s.grain.reg r.toNat)) = true ∧ ptrStep (s.grain.reg r.toNat) = some step
    ∧ p = stepPtr (s.grain.reg r.toNat) (offsetVal off) step
/-- No earlier operation of the grain stands before a write of an access (R143, R283, R288). -/
def Clear (g : Grain) (acc : Acc) : Prop :=
  ∀ p ∈ g.pend, p.kind.isAcquire = false ∧ match p.kind with
    | .load a _ _ _ _ none | .ldrec a _ | .mldc a _ | .wbld a _ | .seqadd a _ => overlaps a.addr a.size acc.addr acc.size = false
    | .atomic r _ _ none => overlaps r.acc.addr r.acc.size acc.addr acc.size = false
    | _ => True
/-- A release at a scope waits for nothing (R281): no earlier load, no element appended to a stream, no add, above core scope no store of the
buffer, and no update or spawn of the grain is on its way. -/
def Released (s : State) (sc : Scope) : Prop :=
  s.grain.loadsPending = false ∧ s.grain.appendedPending = false ∧ s.grain.addsPending = false
    ∧ (sc = .core ∨ s.storesPending s.cur = false) ∧ s.doorsPending s.cur sc = false
/-- Something that a release at a scope waits for is undone, other than elements that its own stream writes will bring along (R281). -/
def Unreleased (s : State) (sc : Scope) : Prop :=
  s.grain.loadsPending = true ∨ s.grain.appendedPending = false ∧ (s.grain.addsPending = true
    ∨ sc ≠ .core ∧ s.storesPending s.cur = true ∨ s.doorsPending s.cur sc = true)
/-- No line of an owner that the reader cache of a core served before is served after (R133, R270). -/
def Cleaned (named : Nat) (c c' : Core) : Prop :=
  ∀ ctx line x i gen at_, srcFind c named = some i → c.l1Hit ctx named line = some x → x.remote = some (i, gen, at_) →
    c'.l1Hit ctx named line ≠ some x
/-- From `s` to `t` the grain of a core has acquired the cluster that owns `addr` and that its address names `named`: where that is another
cluster, without condition or with a sequence value `v` greater than the one recorded, which is then recorded (R133, R440). -/
def Acquires (s t : State) (core addr named : Nat) (v : Option Word) : Prop :=
  coreCluster core ≠ addr / 2 ^ 38 → ∀ i, srcFind (s.core core) named = some i →
    match v with
    | none => Cleaned named (s.core core) (t.core core)
    | some x => (((s.core core).srcTab[i]).value.toNat < x.toNat →
        Cleaned named (s.core core) (t.core core) ∧ ((t.core core).srcTab[i]).value = x)
/-- The launch of the grain whose turn it is has no replicas left to compare with (R324, R327). -/
def Alone (s : State) : Prop := (s.launch s.grain.launch).reps.live.length ≤ 1
/-- The grain has no outstanding result and an empty sequencer (R40). -/
def Quiet (s : State) : Prop := s.grain.pend = [] ∧ s.grain.seqBusy = false
/-- The state after a release of a grain whose launch has nothing to compare with: at system scope outside memory is written back, and
the running signature is 0 (R279, R281, R324). -/
def State.released (s : State) (sc : Scope) : State :=
  let s' := if sc = .system then writeBack s s.here else s
  s'.setGrain { s'.grain with sig := 0#64 }
/-- The running signature has taken a record (R324, R325). -/
def State.signed (s : State) (addr cls : Nat) (bs : List Byte) : State :=
  s.setGrain { s.grain with
    sig := sigRecord s.grain.sig (sigOffset (s.launch s.grain.launch) s.grain.replica addr) cls bs }
/-- A store has entered the core's buffer and is due to be performed (R139). -/
def State.buffered (s : State) (acc : Acc) (bs : List Byte) (alloc : Bool) (pc : Word) : State :=
  let c := s.curCore
  (s.setCurCore { c with
    buffer := c.buffer ++ [{ id := c.nextStore, slot := s.cur.slot, ctx := acc.ctx, launch := s.grain.launch, pc, addr := acc.addr,
                             ptr := acc.ptr, bytes := bs, alloc, faulted := false }]
    nextStore := c.nextStore + 1 }).due [.storePerformed s.cur]
/-- An entry has entered the sequencer of the grain whose turn it is (R176, R195). -/
def State.entered (s : State) (e : SeqEntry) : State :=
  (s.setGrain { s.grain with
    seq := seqInsert e s.grain.seq, pw := if writesV e.op then setBit s.grain.pw 44 true else s.grain.pw }).dueOnce
      (.sequencerEntryStart s.cur.core)
/-- The sequencer has room for an entry (R176, R195). -/
def Room (s : State) : Prop := s.grain.seqHeld < 16
/-- A source of a VOP instruction: a v register, or with bank 001 a general field in every lane (R78, R174). -/
def VReads (pc : Word) (bank : BitVec 3) (r : Reg) (s : State) (v : VSrc) (s' : State) : Prop :=
  (bank = 1#3 ∧ ∃ x, Reads pc r s x s' ∧ v = .value x) ∨ (bank ≠ 1#3 ∧ s' = s ∧ v = .reg r)
/-- The instruction puts the entry `e` into the sequencer, from the state `s1`. -/
def Enters (i : Instr) (s1 : State) (e : SeqEntry) (s : State) : Prop := exec i s = .next (s1.entered e)
/-- A memory form of the vector unit waits for nothing (R179, R283). -/
def VectorIdle (g : Grain) : Prop := g.seq = [] ∧ g.pend.any (fun p => p.kind.isAcquire) = false

end Sys2Proof.Machine
end

