-- ==== Sys2Proof/Certificates/Slice0/Obligations.lean ====
section
/-! DEFINITION. The statements. -/

open Sys2Proof Sys2Proof.Machine

/-! ### Tables of instructions of one shape -/

namespace Sys2Proof.Claims

/-- Functions of two 64-bit values, as R107 gives them. -/
def binaryFn : List ((AluArgs → Instr) × (Word → Word → Word)) :=
  [(.add, fun x y => x + y),
   (.sub, fun x y => x - y),
   (.and, fun x y => x &&& y),
   (.or, fun x y => x ||| y),
   (.xor, fun x y => x ^^^ y),
   (.andn, fun x y => x &&& ~~~y),
   (.shl, fun x y => x <<< (y.toNat % 64)),
   (.shr, fun x y => x >>> (y.toNat % 64)),
   (.sar, fun x y => x.sshiftRight (y.toNat % 64)),
   (.mul, fun x y => BitVec.ofNat 64 (x.toNat * y.toNat)),
   (.mulh, fun x y => BitVec.ofInt 64 (x.toInt * y.toInt / 2 ^ 64)),
   (.mulhn, fun x y => BitVec.ofNat 64 (x.toNat * y.toNat / 2 ^ 64)),
   (.min, fun x y => if x.slt y then x else y),
   (.max, fun x y => if x.slt y then y else x),
   (.minn, fun x y => if x.ult y then x else y),
   (.maxn, fun x y => if x.ult y then y else x),
   (.rol, fun x y => (x <<< (y.toNat % 64)) ||| (x >>> (64 - y.toNat % 64))),
   (.ror, fun x y => (x >>> (y.toNat % 64)) ||| (x <<< (64 - y.toNat % 64)))]

/-- The divisions of R43 and R107. -/
def divideFn : List ((AluArgs → Instr) × (Word → Word → Word)) :=
  [(.div, fun x y => x.sdiv y),
   (.divn, fun x y => x / y),
   (.rem, fun x y => x.srem y),
   (.remn, fun x y => x % y)]

/-- Functions of one 64-bit value (R107), each as the relation of result to operand that the rule states. -/
def unaryRel : List ((UnaryArgs → Instr) × (Word → Word → Prop)) :=
  [(.clz, fun y v => v.toNat ≤ 64 ∧ (∀ i, i < v.toNat → y.getMsbD i = false) ∧ (v.toNat < 64 → y.getMsbD v.toNat = true)),
   (.ctz, fun y v => v.toNat ≤ 64 ∧ (∀ i, i < v.toNat → y.getLsbD i = false) ∧ (v.toNat < 64 → y.getLsbD v.toNat = true)),
   (.popc, fun y v => v.toNat = ((List.range 64).filter fun i => y.getLsbD i).length),
   (.brev, fun y v => ∀ i, i < 64 → v.getLsbD i = y.getLsbD (63 - i)),
   (.bswap, fun y v => ∀ i, i < 8 → v.extractLsb' (8 * i) 8 = y.extractLsb' (56 - 8 * i) 8)]
/-- The width extensions (R107). -/
def extendFn : List ((ExtArgs → Instr) × (Nat → Word → Word)) :=
  [(.sext, fun w y => (y.setWidth w).signExtend 64),
   (.zext, fun w y => (y.setWidth w).setWidth 64)]

/-- Functions of the destination's value and an immediate (R109). -/
def immediateFn : List ((ImmArgs → Instr) × (Word → Word → Word)) :=
  [(.addi, fun x y => x + y),
   (.subi, fun x y => x - y),
   (.andi, fun x y => x &&& y),
   (.ori, fun x y => x ||| y),
   (.xori, fun x y => x ^^^ y),
   (.shli, fun x y => x <<< (y.toNat % 64)),
   (.shri, fun x y => x >>> (y.toNat % 64)),
   (.sari, fun x y => x.sshiftRight (y.toNat % 64)),
   (.muli, fun x y => BitVec.ofNat 64 (x.toNat * y.toNat)),
   (.roli, fun x y => (x <<< (y.toNat % 64)) ||| (x >>> (64 - y.toNat % 64)))]

/-- Compares of two registers (R112). -/
def compareFn : List ((CmpArgs → Instr) × (Word → Word → Bool)) :=
  [(.ceq, fun x y => decide (x = y)),
   (.cne, fun x y => decide (x ≠ y)),
   (.clt, fun x y => decide (x.toInt < y.toInt)),
   (.cge, fun x y => decide (y.toInt ≤ x.toInt)),
   (.cltn, fun x y => decide (x.toNat < y.toNat)),
   (.cgen, fun x y => decide (y.toNat ≤ x.toNat)),
   (.ctst, fun x y => decide (x &&& y ≠ 0#64)),
   (.ctstn, fun x y => decide (x &&& y = 0#64))]

/-- Compares with an immediate (R112). -/
def compareImmFn : List ((CmpImmArgs → Instr) × (Word → Word → Bool)) :=
  [(.ceqi, fun x y => decide (x = y)),
   (.cnei, fun x y => decide (x ≠ y)),
   (.clti, fun x y => decide (x.toInt < y.toInt)),
   (.cgei, fun x y => decide (y.toInt ≤ x.toInt)),
   (.cltni, fun x y => decide (x.toNat < y.toNat)),
   (.cgeni, fun x y => decide (y.toNat ≤ x.toNat))]

end Sys2Proof.Claims
open Sys2Proof.Claims

namespace Sys2Proof.Claims
/-- The operands x and y of a binary function: d and s, or s and t in the three-address form, read in the order of their positions (R21,
R103, R106). `s` is the state past the instruction, `pc` its address. -/
def BinaryReads (pc : Word) (a : AluArgs) (s : State) (x y : Word) (s' : State) : Prop :=
  ∃ m, match a.form with
    | .three t => Reads pc a.s s x m ∧ Reads pc t m y s'
    | _ => ReadsOwn pc a.d s x m ∧ Reads pc a.s m y s'
/-- `v` is `x` with the `w` bits from `pos` on replaced by the low bits of `y` (R109, R110, R111). -/
def Inserted (x : Word) (pos w : Nat) (y v : Word) : Prop :=
  ∀ j, j < 64 → v.getLsbD j = if pos ≤ j ∧ j < pos + w then y.getLsbD (j - pos) else x.getLsbD j
/-- `v` is the field of `w` bits of `x` from `pos` on, zero-extended (R110). -/
def Extracted (x : Word) (pos w : Nat) (v : Word) : Prop := ∀ j, j < 64 → v.getLsbD j = (decide (j < w) && x.getLsbD (pos + j))
/-- The pointer fields that an immediate replaces, with place and width (R109). -/
def pointerFields : List ((ImmArgs → Instr) × Nat × Nat) :=
  [(.pfmt, 58, 6), (.pblk, 55, 3), (.pseg, 52, 3)]
end Sys2Proof.Claims

/-! ### Registers (R20-R22) -/

/-- R20: a source field 0-9 reads its g register, 14 reads 0 and 15 the PC of the instruction; a destination field 0-9 writes its register
and no other, and 14 discards the result. R20, R22: a destination field of a bound output stream with room in its buffer appends the value
and moves the stream on by one, in program order with the replays of a VLOOP (log 25) and with no acquire outstanding. R20, R21: an input
stream field answers the next element, fetched and extended, and moves the stream on by one; an unbound stream, a stream of the other
direction and a stream past its end raise STREAM_MISUSE. R197: while replays of a VLOOP still move elements of the stream, the field waits
for them (log 25). -/
def Obligations.RegisterFields : Prop :=
  ((∀ (pc x : Word) (r : Reg) (s : State) (n : Fin 4) (st : Stream), r.toNat = 10 + n.val → st = s.grain.streams[n] →
    (∀ e ∈ s.grain.seq, e.stream.any (fun k => k.toNat == n.val) = false ∨ s.grain.ownReplay e = true) →
    st.bound = true → st.output = true → st.pos < st.total → st.appended.length < st.room →
    s.grain.pend.any (fun p => p.kind.isAcquire) = false →
    ∃ t, Writes pc r x s t ∧ (t.grain.streams[n]).pos = st.pos + 1 ∧ (t.grain.streams[n]).appended = st.appended ++ [x]
      ∧ t.mem = s.mem ∧ ∀ k, t.grain.reg k = s.grain.reg k)
  ∧ ∀ (pc x : Word) (r : Reg) (s : State),
    (r.toNat < 10 → Reads pc r s (s.grain.reg r.toNat) s) ∧ Reads pc 14#4 s 0#64 s ∧ Reads pc 15#4 s pc s
      ∧ (r.toNat < 10 → ∃ t, Writes pc r x s t ∧ t.grain.reg r.toNat = x
          ∧ (∀ n, n < 10 → n ≠ r.toNat → t.grain.reg n = s.grain.reg n) ∧ t.mem = s.mem ∧ t.grain.pw = s.grain.pw)
      ∧ ∃ t, Writes pc 14#4 x s t ∧ t.grain = s.grain ∧ t.mem = s.mem)
  ∧ (∀ (pc x : Word) (n : Fin 4) (rest : List StreamElem) (s : State) (r : Reg), r.toNat = 10 + n.val →
    ∀ st, st = s.grain.streams[n] →
    ((∃ e ∈ s.grain.seq, e.stream.any (fun k => k.toNat == n.val) = true ∧ s.grain.ownReplay e = false) →
      (srcM pc r).run s = .error (.park .sequencer []) ∧ (dstM pc r x).run s = .error (.park .sequencer []))
    ∧ ((∀ e ∈ s.grain.seq, e.stream.any (fun k => k.toNat == n.val) = false ∨ s.grain.ownReplay e = true) →
    (st.bound = true → st.output = false → st.pos < st.total → st.fetched = .value x :: rest →
      ∃ t, Reads pc r s x t ∧ (t.grain.streams[n]).pos = st.pos + 1 ∧ (t.grain.streams[n]).fetched = rest ∧ t.mem = s.mem
        ∧ ∀ k, t.grain.reg k = s.grain.reg k)
    ∧ (st.bound = false → (srcM pc r).run s = .error (.trap .streamMisuse (streamInfo n 1))
        ∧ (dstM pc r x).run s = .error (.trap .streamMisuse (streamInfo n 1)))
    ∧ (st.bound = true → st.output = true → (srcM pc r).run s = .error (.trap .streamMisuse (streamInfo n 0)))
    ∧ (st.bound = true → st.output = false → (dstM pc r x).run s = .error (.trap .streamMisuse (streamInfo n 0)))
    ∧ (st.bound = true → st.output = false → st.total ≤ st.pos → (srcM pc r).run s = .error (.trap .streamMisuse (streamInfo n 2)))))

/-! ### Register arithmetic (R106-R111) -/

/-- R107: ADD, SUB, AND, OR, XOR, ANDN, SHL, SHR, SAR, MUL, MULH, MULHN, MIN, MAX, MINN, MAXN, ROL and ROR write their function of x and
y. -/
def Obligations.BinaryResults : Prop :=
  ∀ p ∈ binaryFn, ∀ a x y s s1, Issues (p.1 a) a.gd (Touch.of (aluRegs a)) s →
    BinaryReads s.grain.pc a (s.issued (p.1 a)) x y s1 → EndsWriting (p.1 a) s s1 a.d (p.2 x y)

/-- R108: ADDP and SUBP step a pointer by y elements of its format's step; only the offset [51:0] changes, modulo 2^52; a pointer whose
format has no element step raises FORMAT_INVALID. R43, R105, R107: DIV, DIVN, REM and REMN write quotient or remainder for a divisor other
than zero, and the grain skips three turns; a zero divisor raises DIVIDE_BY_ZERO and nothing else happens. -/
def Obligations.PointerStepsAndDivisions : Prop :=
  (∀ a x y s s1, (∀ i, i = .addp a ∨ i = .subp a → Issues i a.gd (Touch.of (aluRegs a)) s →
    BinaryReads s.grain.pc a (s.issued i) x y s1 →
      (∀ step, ptrStep x = some step → ∃ v : Word, EndsWriting i s s1 a.d v ∧ v.extractLsb' 52 12 = x.extractLsb' 52 12
        ∧ v.extractLsb' 0 52 = x.extractLsb' 0 52
            + BitVec.ofInt 52 ((if i = .addp a then y.toInt else -y.toInt) * step))
      ∧ (ptrStep x = none → exec i s = .next (s.raise .formatInvalid (fmtInfo x 0)))))
  ∧ (∀ p ∈ divideFn, ∀ a x y s s1, Issues (p.1 a) a.gd (Touch.of (aluRegs a)) s →
    BinaryReads s.grain.pc a (s.issued (p.1 a)) x y s1 →
      (y ≠ 0#64 → ∀ t, Writes s.grain.pc a.d (p.2 x y) s1 t → exec (p.1 a) s = .next (t.setGrain { t.grain with skip := 3 }))
      ∧ (y = 0#64 → exec (p.1 a) s = .next (s.raise .divideByZero 0#64)))

/-- R107: CLZ, CTZ, POPC, BREV, BSWAP, SEXT and ZEXT write the value that the rule describes by its bits. R109: the immediate functions
write their function of d and the immediate; R111: LI writes its immediate, sign-extended. R109, R110, R111: BFX writes a field of s; BFI
writes d with a field of it replaced by the low bits of s; PFMT, PBLK and PSEG replace their field of a pointer, PCLR clears [63:52], and
LI with a lane replaces 16 bits. R78, R107: MOV copies its source field; with XREG it reads or writes the 64-bit half of a v register that
the prefix names, once the grain's sequencer is empty, and a write of a v register leaves the other half as it was and sets VDIRTY. -/
def Obligations.UnaryAndImmediateResults : Prop :=
  ((∀ p ∈ unaryRel, ∀ a y s s1, Issues (p.1 a) a.gd (Touch.of (regRes a.d ++ regRes a.s)) s →
    Reads s.grain.pc a.s (s.issued (p.1 a)) y s1 → ∃ v, p.2 y v ∧ EndsWriting (p.1 a) s s1 a.d v)
  ∧ ∀ p ∈ extendFn, ∀ a y s s1, Issues (p.1 a) a.gd (Touch.of (regRes a.d ++ regRes a.s)) s →
      Reads s.grain.pc a.s (s.issued (p.1 a)) y s1 → EndsWriting (p.1 a) s s1 a.d (p.2 (8 * 2 ^ a.w.toNat) y))
  ∧ ((∀ p ∈ immediateFn, ∀ a x s s1, Issues (p.1 a) a.gd (Touch.of (regRes a.d)) s →
    ReadsOwn s.grain.pc a.d (s.issued (p.1 a)) x s1 → EndsWriting (p.1 a) s s1 a.d (p.2 x (BitVec.ofInt 64 (a.imm.val false))))
  ∧ ∀ a s, Issues (.li a) a.gd (Touch.of (regRes a.d)) s →
      EndsWriting (.li a) s (s.issued (.li a)) a.d (BitVec.ofInt 64 (a.imm.val false)))
  ∧ ((∀ a y s s1, Issues (.bfx a) a.gd (Touch.of (regRes a.d ++ regRes a.s)) s → Reads s.grain.pc a.s (s.issued (.bfx a)) y s1 →
    ∃ v, Extracted y a.pos.toNat (a.width.toNat + 1) v ∧ EndsWriting (.bfx a) s s1 a.d v)
  ∧ (∀ a x y s s1 s2, Issues (.bfi a) a.gd (Touch.of (regRes a.d ++ regRes a.s)) s → ReadsOwn s.grain.pc a.d (s.issued (.bfi a)) x s1 →
      Reads s.grain.pc a.s s1 y s2 → ∃ v, Inserted x a.pos.toNat (a.width.toNat + 1) y v ∧ EndsWriting (.bfi a) s s2 a.d v)
  ∧ (∀ p ∈ pointerFields, ∀ a x s s1, Issues (p.1 a) a.gd (Touch.of (regRes a.d)) s → ReadsOwn s.grain.pc a.d (s.issued (p.1 a)) x s1 →
      ∃ v, Inserted x p.2.1 p.2.2 (BitVec.ofInt 64 (a.imm.val false)) v ∧ EndsWriting (p.1 a) s s1 a.d v)
  ∧ (∀ a x s s1, Issues (.pclr a) a.gd (Touch.of (regRes a.d)) s → ReadsOwn s.grain.pc a.d (s.issued (.pclr a)) x s1 →
      ∃ v, Inserted x 52 12 0#64 v ∧ EndsWriting (.pclr a) s s1 a.d v)
  ∧ ∀ a x s s1, Issues (.liLane a) a.gd (Touch.of (regRes a.d)) s → ReadsOwn s.grain.pc a.d (s.issued (.liLane a)) x s1 →
      ∃ v, Inserted x (16 * a.lane.toNat) 16 (BitVec.ofInt 64 (a.imm.val false)) v ∧ EndsWriting (.liLane a) s s1 a.d v)
  ∧ (∀ a s (x : XReg), x = a.xr.getD ⟨0#3, 0#3, 0#3, false⟩ →
    Issues (.mov a) a.gd (Touch.of ((if x.d = 2#3 then [] else regRes a.d) ++ (if x.s = 2#3 then [] else regRes a.s))) s →
    (x.d = 2#3 ∨ x.s = 2#3 → (s.issued (.mov a)).grain.seqBusy = false) →
    ∀ y s1, (x.s ≠ 2#3 → Reads s.grain.pc a.s (s.issued (.mov a)) y s1) →
      (x.s = 2#3 → s1 = s.issued (.mov a) ∧ y = (s.grain.vreg a.s).extractLsb' (if x.hi then 64 else 0) 64) →
      (x.d ≠ 2#3 → EndsWriting (.mov a) s s1 a.d y)
      ∧ (x.d = 2#3 → ∃ t, exec (.mov a) s = .next t ∧ (t.grain.vreg a.d).extractLsb' (if x.hi then 64 else 0) 64 = y
          ∧ (t.grain.vreg a.d).extractLsb' (if x.hi then 0 else 64) 64 = (s1.grain.vreg a.d).extractLsb' (if x.hi then 0 else 64) 64
          ∧ vdirtyOf t.grain.pw = true))

/-! ### Predicates (R112-R114) -/

/-- R23, R112: writing a predicate changes it and no other bit of the word; p31 is always true and writing it changes nothing. R112: CEQ,
CNE, CLT, CGE, CLTN, CGEN, CTST and CTSTN, and the six compares with an immediate, write their predicate, p0 where none is named, and
nothing else. R113: PLOG writes bit 2·p[pa] + p[pb] of its truth table; R114: PXFER reads the predicate word with p31 as 1, writes the
predicates p0-p30 or the flags, or, in mode 1, both with the vector type, the rounding mode and FTZ. -/
def Obligations.ComparesAndPredicates : Prop :=
  (∀ (pw : Word) (p q : BitVec 5) (b : Bool), predOf (setPred pw p b) q = (if q = p ∧ p ≠ 31#5 then b else predOf pw q)
    ∧ predOf pw 31#5 = true ∧ (setPred pw p b).extractLsb' 32 32 = pw.extractLsb' 32 32)
  ∧ ((∀ p ∈ compareFn, ∀ a x y s s1 s2, Issues (p.1 a) a.gd (Touch.predsOf (regRes a.d ++ regRes a.s ++ predRes (a.pd.getD 0#5))) s →
    Reads s.grain.pc a.d (s.issued (p.1 a)) x s1 → Reads s.grain.pc a.s s1 y s2 →
    exec (p.1 a) s = .next (s2.setGrain { s2.grain with pw := setPred s2.grain.pw (a.pd.getD 0#5) (p.2 x y) }))
  ∧ ∀ p ∈ compareImmFn, ∀ a x s s1, Issues (p.1 a) a.gd (Touch.predsOf (regRes a.d ++ predRes (a.pd.getD 0#5))) s →
      Reads s.grain.pc a.d (s.issued (p.1 a)) x s1 →
      exec (p.1 a) s = .next (s1.setGrain
        { s1.grain with pw := setPred s1.grain.pw (a.pd.getD 0#5) (p.2 x (BitVec.ofInt 64 (a.imm.val false))) }))
  ∧ ((∀ a s, Issues (.plog a) a.gd (Touch.predsOf (predRes a.pa ++ predRes a.pb ++ predRes (a.pd.getD 0#5))) s →
    EndsWith (.plog a) s fun g => 
      { g with pw := (setPred g.pw (a.pd.getD 0#5) (a.tt.getLsbD ((if predOf g.pw a.pa then 2 else 0) + if predOf g.pw a.pb then 1 else 0))) })
  ∧ ∀ a s, Issues (.pxfer a) a.gd (Touch.predsOf (regRes a.g ++ if a.mode = 3#2 then [] else [.p0])) s →
      (a.mode = 0#2 → EndsWith (.pxfer a) s fun g => g.setReg a.g.toNat (g.pw ||| 0x80000000#64))
      ∧ (a.mode = 2#2 → EndsWith (.pxfer a) s fun g => { g with pw := underMask 0x7FFFFFFF#64 g.pw (g.reg a.g.toNat) })
      ∧ (a.mode = 3#2 → EndsWith (.pxfer a) s fun g => { g with pw := underMask 0xFF00000000#64 g.pw (g.reg a.g.toNat) })
      ∧ (a.mode = 1#2 → ∀ x, x = s.grain.reg a.g.toNat →
          (x >>> 47 = 0#64 → etypeOfCode (x.extractLsb' 40 4) ≠ none →
            EndsWith (.pxfer a) s fun g => writeVdirty (s.issued (.pxfer a)) (x.getLsbD 44) { g with pw := underMask pxferMask g.pw x })
          ∧ (x >>> 47 ≠ 0#64 → exec (.pxfer a) s = .next (s.raise .reservedField (infoOfInstr (.pxfer a))))))

/-! ### Transfers of control (R115-R120) -/

/-- R115, R116, R117, R120: BR, JMP and CALL go to their PC plus twice the offset; JMPR, CALLR and RET go to pc_target of their register,
and a register with bit 0 set raises MISALIGNED; CALL and CALLR write the next instruction's PC to g9; LOOP counts its register down and
branches while it is not zero; NOP only moves on. -/
def Obligations.Transfers : Prop :=
  (∀ a s, Issues (.br a) (some ⟨a.p, a.neg⟩) (Touch.of []) s →
    EndsWith (.br a) s fun g => { g with pc := pcAdd s.grain.pc (2 * a.off.val true) })
  ∧ (∀ a s, Issues (.jmp a) a.gd (Touch.of []) s → EndsWith (.jmp a) s fun g => { g with pc := pcAdd s.grain.pc (2 * a.off.val true) })
  ∧ (∀ a s, Issues (.nop a) a.gd (Touch.of []) s → exec (.nop a) s = .next (s.issued (.nop a)))
  ∧ (∀ a s, Issues (.call a) a.gd (Touch.of [.g 9#4]) s →
      EndsWith (.call a) s fun g => { g.setReg 9 g.pc with pc := pcAdd s.grain.pc (2 * a.off.val true) })
  ∧ (∀ a s, Issues (.jmpr a) a.gd (Touch.of (regRes a.r)) s → ∀ x, x = s.grain.reg a.r.toNat →
      (x.getLsbD 0 = false → EndsWith (.jmpr a) s fun g => { g with pc := 0x0800000000000000#64 ||| (x &&& 0x007FFFFFFFFFFFFF#64) })
      ∧ (x.getLsbD 0 = true → exec (.jmpr a) s = .next (s.raise .misaligned (segInfo x))))
  ∧ (∀ a s, Issues (.ret a) a.gd (Touch.of [.g 9#4]) s → ∀ x, x = s.grain.reg 9 →
      (x.getLsbD 0 = false → EndsWith (.ret a) s fun g => { g with pc := 0x0800000000000000#64 ||| (x &&& 0x007FFFFFFFFFFFFF#64) })
      ∧ (x.getLsbD 0 = true → exec (.ret a) s = .next (s.raise .misaligned (segInfo x))))
  ∧ (∀ a s, Issues (.callr a) a.gd (Touch.of (regRes a.r ++ [.g 9#4])) s → s.grain.pend = [] → ∀ x, x = s.grain.reg a.r.toNat →
      (x.getLsbD 0 = false →
        EndsWith (.callr a) s fun g => { g.setReg 9 g.pc with pc := 0x0800000000000000#64 ||| (x &&& 0x007FFFFFFFFFFFFF#64) })
      ∧ (x.getLsbD 0 = true → exec (.callr a) s = .next (s.raise .misaligned (segInfo x))))
  ∧ ∀ a s, Issues (.loop a) a.gd (Touch.of (regRes a.g)) s → ∀ n, n = s.grain.reg a.g.toNat - 1#64 →
      EndsWith (.loop a) s fun g =>
        { g.setReg a.g.toNat n with pc := if n = 0#64 then g.pc else pcAdd s.grain.pc (2 * a.off.val true) }
/-! ### Grain control (R118-R126) -/

/-- R92, R123: GETID writes the value of its selector: 0 the packed coordinates of the core the grain is on, 1 to 5 its rank, stage,
sheaf, ear and grain index, 6 its context. R124, R125, R235: CLOCK and NDVAL of the clock return the core's cycle counter, RAND and NDVAL
of random values the value that is ready, which is then used up; in a replicated launch all of them return the value forwarded for the
grain's count (R126, R331). R126, R331: in a replicated launch CLOCK, RAND and NDVAL return the value forwarded for the grain's count, and
the count moves on. -/
def Obligations.ObservedValues : Prop :=
  (∀ a s, Issues (.getid a) a.gd (Touch.of (regRes a.d)) s → ∀ v : Word,
    ((a.sel = 0#3 ∧ v = BitVec.ofNat 64 (16 * s.cur.core + s.cur.slot.val)) ∨ (a.sel = 1#3 ∧ v = s.grain.rank)
      ∨ (a.sel = 2#3 ∧ v = s.grain.stage) ∨ (a.sel = 3#3 ∧ v = s.grain.sheaf) ∨ (a.sel = 4#3 ∧ v = s.grain.ear)
      ∨ (a.sel = 5#3 ∧ v = s.grain.index) ∨ (a.sel = 6#3 ∧ v = s.grain.ctx.setWidth 64)) →
    EndsWriting (.getid a) s (s.issued (.getid a)) a.d v)
  ∧ (∀ s, (s.launch s.grain.launch).reps.count ≤ 1 →
    (∀ a, Issues (.clock a) a.gd (Touch.of (regRes a.r)) s →
      EndsWriting (.clock a) s (s.issued (.clock a)) a.r (BitVec.ofNat 64 s.curCore.cycle))
    ∧ (∀ a, a.rand = false → Issues (.ndval a) a.gd (Touch.of (regRes a.d)) s →
        EndsWith (.ndval a) s fun g => g.setReg a.d.toNat (BitVec.ofNat 64 s.curCore.cycle))
    ∧ ∀ v, s.curCore.randReady = some v →
        (∀ a, Issues (.rand a) a.gd (Touch.of (regRes a.r)) s →
          EndsWriting (.rand a) s ((s.issued (.rand a)).setCurCore
            { (s.issued (.rand a)).curCore with randReady := none, randAt := some s.curCore.cycle }) a.r v)
        ∧ ∀ a, a.rand = true → Issues (.ndval a) a.gd (Touch.of (regRes a.d)) s →
            ∃ t, exec (.ndval a) s = .next t ∧ (a.d.toNat < 10 → t.grain.reg a.d.toNat = v) ∧ t.curCore.randReady = none)
  ∧ (∀ s v, 2 ≤ (s.launch s.grain.launch).reps.count → PMap.get? s.grain.ndCount s.grain.forwarded = some v →
    (∀ i : CtlRegArgs → Instr, i = .clock ∨ i = .rand → ∀ a, Issues (i a) a.gd (Touch.of (regRes a.r)) s → a.r.toNat < 10 →
      ∃ t, exec (i a) s = .next t ∧ t.grain.reg a.r.toNat = v ∧ t.grain.ndCount = s.grain.ndCount + 1)
    ∧ ∀ a, Issues (.ndval a) a.gd (Touch.of (regRes a.d)) s → a.d.toNat < 10 →
        ∃ t, exec (.ndval a) s = .next t ∧ t.grain.reg a.d.toNat = v ∧ t.grain.ndCount = s.grain.ndCount + 1)

/-- R118: EXIT of a quiet grain whose stores are performed ends it: its slot holds no grain any more, its tiles are free unless the slot
is being filled with another grain already, and its launch has one live grain less. R119: YIELD of a quiet grain starts its spill where
the core's run queue holds a grain of the same or a higher class, and has no further effect otherwise; R121: RHOME on the grain's own core
has no further effect, is refused while VDIRTY is 1, and otherwise the grain travels. R122, R228: BREAK ends the launch with BREAK and its
code in TRAP_INFO [7:0]; TRAP with TRAP_INSTR and its 32-bit value. -/
def Obligations.GrainEnds : Prop :=
  (∀ a s, Issues (.exit a) a.gd (Touch.of []) s → Quiet (s.issued (.exit a)) → Released (s.issued (.exit a)) .system →
    Alone (s.issued (.exit a)) →
    ∃ t, exec (.exit a) s = .next t ∧ (t.slotAt s.cur).occupied = false
      ∧ ((t.slotAt s.cur).st = .empty → ∀ k : Fin 4, ((t.core s.cur.core).tiles[k]).owner ≠ some s.cur.slot)
      ∧ (t.launch s.grain.launch).live = (s.launch s.grain.launch).live - 1)
  ∧ ((∀ a s, Issues (.yield a) a.gd (Touch.of []) s → Quiet (s.issued (.yield a)) →
    (queuedFor (s.issued (.yield a)) s.cur = false → exec (.yield a) s = .next (s.issued (.yield a)))
    ∧ (queuedFor (s.issued (.yield a)) s.cur = true → s.storesPending s.cur = false → s.engineIdle s.cur.core = true →
        exec (.yield a) s = .next (startSpill (s.issued (.yield a)) s.cur)))
  ∧ ∀ a s, Issues (.rhome a) a.gd (Touch.of []) s → Quiet (s.issued (.rhome a)) →
      ∀ home, home = (if s.grain.spawned then s.grain.created else (unpackLoc s.grain.home).core) →
      (home = s.cur.core → exec (.rhome a) s = .next (s.issued (.rhome a)))
      ∧ (home ≠ s.cur.core → s.storesPending s.cur = false → vdirtyOf s.grain.pw = true →
          exec (.rhome a) s = .next (s.raise .migrateDenied 0#64))
      ∧ (home ≠ s.cur.core → s.storesPending s.cur = false → migrateDenied (s.issued (.rhome a)) home = none →
          ∃ t p, exec (.rhome a) s = .next t ∧ p ∈ (t.cluster s.here).packets ∧ p.target = home ∧ p.source = some s.cur
            ∧ p.grain.pc = (s.issued (.rhome a)).grain.pc ∧ p.grain.g = s.grain.g))
  ∧ ((∀ a s, Issues (.brk a) a.gd (Touch.of []) s → exec (.brk a) s = .next (s.raise .brk (a.code.setWidth 64)))
  ∧ ∀ a s, Issues (.trap a) a.gd (Touch.of []) s →
      exec (.trap a) s = .next (s.raise .trapInstr ((BitVec.ofInt 32 (a.imm.val false)).setWidth 64)))

/-! ### Loads and stores (R128-R140) -/

namespace Sys2Proof.Claims
/-- The plain loads with the size and extension each fixes, if any, and whether it then steps its pointer (R135). -/
def loads : List ((MemArgs → Instr) × Option (Nat × Ext) × Bool) :=
  [(.ld, none, false), (.ldi, none, true), (.ld8, some (1, .sign), false), (.ld16, some (2, .sign), false),
   (.ld32, some (4, .sign), false), (.ld64, some (8, .sign), false), (.ldn8, some (1, .zero), false),
   (.ldn16, some (2, .zero), false), (.ldn32, some (4, .zero), false)]
/-- The plain stores with the bytes each fixes, if any, whether it then steps its pointer, and whether it allocates in the L1 (R138). -/
def stores : List ((StoreArgs → Instr) × Option Nat × Bool × Bool) :=
  [(.st, none, false, true), (.sti, none, true, true), (.st8, some 1, false, true), (.st16, some 2, false, true),
   (.st32, some 4, false, true), (.st64, some 8, false, true), (.stnt, none, false, false)]
/-- The state in which the pointer register has moved on by one element, where the instruction does that (R135, R138). -/
def stepped (post : Bool) (r : Reg) (step : Nat) (s : State) : State :=
  if post then s.setReg r.toNat (stepPtr (s.grain.reg r.toNat) 1 step) else s
end Sys2Proof.Claims

/-- R128, R129, R135: a load whose address passes the checks of R33 is outstanding with its destination, size and extension; LDI has moved
its pointer on. A check that fails raises its cause, and nothing else happens. R136, R135: LDREC is outstanding for the 192 bytes of its
record; PREF completes and changes no register, whether its line comes, its checks fail or its page is missing, once its translation is
known. -/
def Obligations.LoadsBegin : Prop :=
  ((∀ q ∈ loads, ∀ a s, Issues (q.1 a) a.gd (Touch.longOf (regRes a.d ++ regRes a.a)) s →
    ∀ p step, Points a.a a.off loadFmts (s.issued (q.1 a)) p step → ∀ sz, sz = q.2.1.getD (step, fmtExt (ptrFmt p)) →
      (∀ acc, checkAcc (s.issued (q.1 a)) p (readSpec loadFmts sz.1 sz.1) = .ok acc →
        Begins (q.1 a) s (stepped q.2.2 a.a step (s.issued (q.1 a))) (.load acc sz.2 a.d .none true none) (regRes a.d) a.la)
      ∧ ∀ c info, checkAcc (s.issued (q.1 a)) p (readSpec loadFmts sz.1 sz.1) = .error (c, info) →
          exec (q.1 a) s = .next (s.raise c info))
  ∧ ∀ a s, Issues (.ldacq a) a.gd (Touch.longOf (regRes a.d ++ regRes a.a)) s →
      ∀ p step acc, Points a.a a.off loadFmts (s.issued (.ldacq a)) p step →
        checkAcc (s.issued (.ldacq a)) p (readSpec loadFmts step step) = .ok acc →
        Begins (.ldacq a) s (s.issued (.ldacq a))
          (.load acc (fmtExt (ptrFmt p)) a.d (if ptrFmt p = 48 then .compare else .always) false none) (regRes a.d) a.la)
  ∧ ((∀ a s, Issues (.ldrec a) a.gd (Touch.longOf (regRes a.a)) s →
    ∀ p step acc, Points a.a a.off plainFmts (s.issued (.ldrec a)) p step →
      checkAcc (s.issued (.ldrec a)) p (readSpec plainFmts 192 64) = .ok acc →
      Begins (.ldrec a) s (s.issued (.ldrec a)) (.ldrec acc a.e) [] a.la)
  ∧ ∀ a s, Issues (.pref a) a.gd (Touch.of (regRes a.a)) s → ∀ s0 x, s0 = s.issued (.pref a) → x = s0.grain.reg a.a.toNat →
      (ptrStep x = none → exec (.pref a) s = .next s0)
      ∧ ∀ step, ptrStep x = some step →
          ∀ r, r = checkAcc s0 (stepPtr x (offsetVal a.off) step) (readSpec allFmts 1 1) →
          (∀ e, r = .error e → exec (.pref a) s = .next s0)
          ∧ ∀ acc, r = .ok acc →
              (∀ g va, placeOf s0 acc.ctx acc.addr = .error (.fault g va) ∨ placeOf s0 acc.ctx acc.addr = .error (.refused g va) →
                exec (.pref a) s = .next s0)
              ∧ ∀ k, placeOf s0 acc.ctx acc.addr = .ok k →
                  ∃ t, exec (.pref a) s = .next t ∧ t.grain.g = s0.grain.g ∧ t.grain.pc = s0.grain.pc
                    ∧ (s.Inv → SameBytes s t (acc.addr / 2 ^ 38)))

/-- R22, R39, R131, R133, R135: the result of a load of which no earlier operation stands in the way writes its destination with the bytes
served, zero- or sign-extended, and the operation is no longer outstanding; every byte reads as before at its owner. An LDACQ acquires: of
a seq word by the value it read, of any other format without condition. R131, R285: a load is served from the latest store of its context
in the core's buffer where that store covers all of its bytes, and waits where it covers some; from a cluster's SRAM or scratchpads it is
served with the bytes memory holds. R22, R135: an extension keeps the loaded bytes and fills the bits above them with zeros or with the
top bit. -/
def Obligations.LoadResults : Prop :=
  (∀ l s p acc ext d clean plain bs s1, pendAt s l p.id = some p → p.kind = .load acc ext d clean plain none →
    (s.grainAt l).acquireBefore p.id = false → (s.grainAt l).loadBefore p.id acc.addr acc.size = false →
    (s.grainAt l).atomicBefore p.id acc.addr acc.size = false →
    serveLoad s l.core acc.ctx acc.named acc.addr acc.size plain (plain && shapedLoad acc) = .value bs s1 →
    ∃ t, exec (.longLatencyResult l p.id) s = .next t ∧ (d.toNat < 10 → (t.grainAt l).reg d.toNat = extendTo ext acc.size (leNat bs))
      ∧ (∀ n, n < 10 → n ≠ d.toNat → (t.grainAt l).reg n = (s.grainAt l).reg n)
      ∧ (∀ q ∈ (t.grainAt l).pend, q.id ≠ p.id) ∧ (s.Inv → SameBytes s t (acc.addr / 2 ^ 38))
      ∧ (clean = .compare → plain = false → Acquires s t l.core acc.addr acc.named (some (extendTo ext acc.size (leNat bs))))
      ∧ (clean = .always → plain = false → Acquires s t l.core acc.addr acc.named none))
  ∧ ((∀ s core ctx named addr n plain b, engineHolds s ctx addr n = false → bufferedStore (s.core core) ctx addr n = some b →
    (plain = true → b.addr ≤ addr → addr + n ≤ b.addr + b.bytes.length →
      serveLoad s core ctx named addr n plain false = .value ((b.bytes.drop (addr - b.addr)).take n) s)
    ∧ (addr < b.addr ∨ b.addr + b.bytes.length < addr + n → serveLoad s core ctx named addr n plain false = .wait s))
  ∧ ∀ s core ctx named addr n plain, engineHolds s ctx addr n = false → bufferedStore (s.core core) ctx addr n = none →
      (plain = true → (s.core core).l1Hit ctx named (addr / 32) = none) → s.reachable addr = true →
      addr % 2 ^ 38 + n ≤ 0x1000000000 → addr + n ≤ 2 ^ 64 →
      (∀ k, addr ≤ k → k < addr + n → s.poison.contains (k / 32) = false) →
      ∃ s', serveLoad s core ctx named addr n plain false = .value (s.mem.bytes addr n) s')
  ∧ (∀ size x, size = 1 ∨ size = 2 ∨ size = 4 ∨ size = 8 → ∀ j, j < 64 →
    (extendTo .zero size x).getLsbD j = (decide (j < 8 * size) && x.testBit j)
    ∧ (extendTo .sign size x).getLsbD j = x.testBit (min j (8 * size - 1)))

/-! ### Atomics, updates and moving work (R141-R150) -/

namespace Sys2Proof.Claims
/-- The atomics (R141). -/
def atomics : List ((AtomArgs → Instr) × AtomOp) :=
  [(.aadd, .add), (.amin, .min), (.amax, .max), (.aminn, .minn), (.amaxn, .maxn), (.aand, .and), (.aor, .or), (.axor, .xor),
   (.aswap, .swap), (.acas, .cas), (.afadd, .fadd), (.afmin, .fmin), (.afmax, .fmax)]
/-- What the integer atomics store, over the `w` bits of the element (R141). -/
def atomicFn : List (AtomOp × ((w : Nat) → BitVec w → BitVec w → BitVec w)) :=
  [(.add, fun _ o x => o + x), (.min, fun _ o x => if x.slt o then x else o), (.max, fun _ o x => if o.slt x then x else o),
   (.minn, fun _ o x => if x.ult o then x else o), (.maxn, fun _ o x => if o.ult x then x else o), (.and, fun _ o x => o &&& x),
   (.or, fun _ o x => o ||| x), (.xor, fun _ o x => o ^^^ x), (.swap, fun _ _ x => x)]
end Sys2Proof.Claims

/-- R128, R130, R141, R143: an atomic on an address of the replica's own clusters whose checks pass is outstanding with its operands, its
request on the way to the owner; a release ordering has made its waits. No register changes. -/
def Obligations.AtomicsBegin : Prop :=
  ∀ q ∈ atomics, ∀ a s, Issues (q.1 a) a.gd (Touch.longOf (atomDst q.2 a.d ++ regRes a.a)) s →
    ∀ p step acc, Points a.a a.off q.2.fmts (s.issued (q.1 a)) p step →
      checkAcc (s.issued (q.1 a)) p (atomSpec q.2.fmts step (decide (ptrSeg p < 4))) = .ok acc →
      (a.ord.release = true → Released (s.issued (q.1 a)) .system) → outsideReplica (s.issued (q.1 a)) acc.addr = false →
      ∃ t r, exec (q.1 a) s = .next t ∧ r.op = q.2 ∧ r.acc = acc ∧ r.x = s.grain.reg a.d.toNat
        ∧ (q.2 = .cas → r.y = s.grain.reg (a.d.toNat + 1)) ∧ r.acquire = a.ord.acquire
        ∧ (∃ e ∈ t.grain.pend, e.pc = s.grain.pc ∧ e.kind = .atomic r a.d false none ∧ .excursionAtOwner s.cur e.id ∈ t.agenda)
        ∧ t.grain.g = s.grain.g ∧ (a.ord.release = false → t.mem = s.mem)

/-- R141: the integer atomics store their function of the old element and the operand; ACAS stores the new value where the old equals the
expected one, bit for bit, and else leaves the element. They raise no flag. R141, R142: at the owner, with no earlier access of the grain
and no buffered store of its context in the way, an atomic of a cluster's SRAM updates its element in memory and its result is on the way
back; no byte outside the element changes. R141, R143: when an atomic's result returns, d holds the old value, extended, and for ACAS d +
1 whether it stored; the flags are ORed into the grain's; the operation is no longer outstanding; with acquire ordering the owner's
cluster is acquired. -/
def Obligations.AtomicResults : Prop :=
  (∀ (r : AtomReq) (old w : Nat), w = 8 * r.acc.size → 0 < w → old < 2 ^ w →
    (∀ q ∈ atomicFn, r.op = q.1 → (r.apply old).1 = (q.2 w (BitVec.ofNat w old) (r.x.setWidth w)).toNat ∧ (r.apply old).2.2 = 0#5)
    ∧ (r.op = .cas → r.apply old = if old = (r.x.setWidth w).toNat then ((r.y.setWidth w).toNat, true, 0#5) else (old, false, 0#5)))
  ∧ (∀ l s p r d old, s.Inv → pendAt s l p.id = some p → p.kind = .atomic r d false none → (s.launch (s.grainAt l).launch).reps.count ≤ 1 →
    (s.grainAt l).acquireBefore p.id = false → (s.grainAt l).loadBefore p.id r.acc.addr r.acc.size = false →
    (s.grainAt l).atomicBefore p.id r.acc.addr r.acc.size = false →
    bufferedStore (s.core l.core) r.acc.ctx r.acc.addr r.acc.size = none →
    (∀ b ∈ (s.core l.core).storesOf l.slot, overlaps b.addr b.bytes.length r.acc.addr r.acc.size = false) →
    engineHolds s r.acc.ctx r.acc.addr r.acc.size = false → r.tag = none → 0 < r.acc.size → r.acc.addr % 2 ^ 38 + r.acc.size ≤ 0x1000000000 →
    r.acc.addr + r.acc.size ≤ 2 ^ 64 →
    readOwner s r.acc.ctx r.acc.addr r.acc.size = .value old →
    ∃ t, exec (.excursionAtOwner l p.id) s = .next t ∧ t.mem.bytes r.acc.addr r.acc.size = leBytes r.acc.size (r.apply (leNat old)).1
      ∧ (∀ k, k < r.acc.addr ∨ r.acc.addr + r.acc.size ≤ k → t.mem.read k = s.mem.read k) ∧ .excursionReturn l p.id ∈ t.agenda)
  ∧ (∀ l s p r d at_ x, pendAt s l p.id = some p → p.kind = .atomic r d at_ (some x) → d.toNat < 10 →
    ∃ t, exec (.excursionReturn l p.id) s = .next t ∧ t.mem = s.mem ∧ (∀ q ∈ (t.grainAt l).pend, q.id ≠ p.id)
      ∧ (t.grainAt l).reg d.toNat = extendTo (if r.signed then .sign else .zero) r.acc.size x.old.toNat
      ∧ (r.op = .cas → d.toNat < 9 → (t.grainAt l).reg (d.toNat + 1) = if x.ok then 1#64 else 0#64)
      ∧ (t.grainAt l).pw = orFlags (s.grainAt l).pw x.flags
      ∧ (r.acquire = true → Acquires s t l.core r.acc.addr r.acc.named none)
      ∧ ∀ n, n < 10 → n ≠ d.toNat → ¬(r.op = .cas ∧ n = d.toNat + 1) → (t.grainAt l).reg n = (s.grainAt l).reg n)

/-- R148: RUPD sends its update, captured, on the way to the owner's queue, and is outstanding until the router has it; the updates that
do not commute are refused in replicated and deterministic launches. -/
def Obligations.RemoteUpdates : Prop :=
  ∀ a s op, op = atomOfVariant a.op.toNat → Issues (.rupd a) a.gd (Touch.longOf (atomDst op a.d ++ regRes a.a)) s →
    ((op.ordered = true → 2 ≤ (s.launch s.grain.launch).reps.count ∨ (s.launch s.grain.launch).detMode = true →
        exec (.rupd a) s = .next (s.raise .nondetForbidden 0#64)))
    ∧ ((op.ordered = true → (s.launch s.grain.launch).reps.count ≤ 1 ∧ (s.launch s.grain.launch).detMode = false) →
        ∀ p step acc, Points a.a a.off op.fmts (s.issued (.rupd a)) p step →
          checkAcc (s.issued (.rupd a)) p (atomSpec op.fmts step (decide (ptrSeg p < 4))) = .ok acc →
          (a.rel = true → Released (s.issued (.rupd a)) .system) → outsideReplica (s.issued (.rupd a)) acc.addr = false →
          Clear s.grain acc →
          ∃ t u, exec (.rupd a) s = .next t ∧ u ∈ (t.cluster (acc.addr / 2 ^ 38)).heldUpdates ∧ u.req.op = op ∧ u.req.acc = acc
            ∧ u.req.x = s.grain.reg a.d.toNat ∧ u.from_ = s.cur ∧ .remoteUpdateApply (acc.addr / 2 ^ 38) ∈ t.agenda
            ∧ (∃ e ∈ t.grain.pend, e.kind = .packet acc.addr) ∧ t.grain.g = s.grain.g)

namespace Sys2Proof.Claims
/-- What the grain did before is performed: no load, acquire or add is outstanding, no vector store or stream element is left, its stores are out of
the buffer (R283). -/
def Performed (s : State) : Prop :=
  s.grain.pend.any (fun p => p.kind.isLoad || p.kind.isAcquire || p.kind.isAdd) = false ∧ s.grain.seq.any SeqEntry.stores = false
    ∧ s.grain.appendedPending = false ∧ s.storesPending s.cur = false
end Sys2Proof.Claims

/-! ### Sequence words, barriers, channels and copies (R151-R171) -/

/-- R152, R154, R155, R156: SEQWAIT, CLEAN, WATCH and WAITW are outstanding from their issue, WATCH with its register armed; SEQADV makes
a release first. R133, R152, R154, R155, R156: the result of a SEQWAIT, once no earlier acquire or access of the word stands before it and
its word is not lost: from a value at its threshold or above it writes d with the value, acquires by it and is over; below, its watch
register 0 is armed and it stays outstanding. CLEAN is over with the value read and acquires by it. WAITW is over once a watch of its mask
has fired, or none is armed: d holds the mask of the fired ones, and each of these is off and acquired; else it stays. SEQADV's add is
made at the word. A WATCH of a word of its own cluster is over, fired from a value at its threshold or above. -/
def Obligations.SequenceWords : Prop :=
  ((∀ a s, Issues (.seqwait a) a.gd (Touch.longOf (regRes a.d ++ regRes a.a)) s → ∀ p step acc,
    Points a.a a.off [48] (s.issued (.seqwait a)) p step → checkAcc (s.issued (.seqwait a)) p seqRead = .ok acc → translated acc.addr = false →
      Begins (.seqwait a) s (s.issued (.seqwait a)) (.seqwait acc a.d (s.grain.reg a.d.toNat) a.sc) (regRes a.d) a.la)
  ∧ (∀ a s, Issues (.clean a) a.gd (Touch.longOf (regRes a.a)) s → ∀ p step acc,
      Points a.a a.off [48] (s.issued (.clean a)) p step → checkAcc (s.issued (.clean a)) p seqRead = .ok acc → translated acc.addr = false →
      Begins (.clean a) s (s.issued (.clean a)) (.clean acc) [] a.la)
  ∧ (∀ a s, Issues (.watch a) a.gd (Touch.longOf (regRes a.d ++ regRes a.a)) s → ∀ p step acc,
      Points a.a a.off [48] (s.issued (.watch a)) p step → checkAcc (s.issued (.watch a)) p seqRead = .ok acc → translated acc.addr = false →
      ∃ t, exec (.watch a) s = .next t
        ∧ t.grain.watches[a.w.toNat + 1]? = some ⟨true, false, acc.addr, acc.named, s.grain.reg a.d.toNat, false, false⟩
        ∧ ∃ e ∈ t.grain.pend, e.kind = .watch (watchReg a.w) ∧ .longLatencyResult s.cur e.id ∈ t.agenda)
  ∧ (∀ a s, Issues (.waitw a) a.gd (Touch.longOf (regRes a.d)) s →
      Begins (.waitw a) s (s.issued (.waitw a)) (.waitw a.d a.mask) (regRes a.d) a.la)
  ∧ ∀ a s, Issues (.seqadv a) a.gd (Touch.longOf (regRes a.d ++ regRes a.a)) s → ∀ p step acc,
      Points a.a a.off [48] (s.issued (.seqadv a)) p step → checkAcc (s.issued (.seqadv a)) p seqWrite = .ok acc →
      translated acc.addr = false → Released (s.issued (.seqadv a)) a.sc → Alone (s.issued (.seqadv a)) → Clear s.grain acc →
      Begins (.seqadv a) s ((s.issued (.seqadv a)).released a.sc) (.seqadd acc (s.grain.reg a.d.toNat)) [] a.la)
  ∧ ((∀ l s p acc d thr sc bs s1, pendAt s l p.id = some p → p.kind = .seqwait acc d thr sc →
    acc.now s (clusterNode (coreCluster l.core)) (s.grainAt l).launch (s.grainAt l).replica = acc →
    (s.grainAt l).earlierFirst p.id acc.addr acc.size = false → ((s.grainAt l).watches[(0 : Fin 5)]).lost = false →
    serveLoad s l.core acc.ctx acc.named acc.addr acc.size false false = .value bs s1 →
    (thr.toNat ≤ (wordOf bs 0).toNat → ∃ t, exec (.longLatencyResult l p.id) s = .next t
      ∧ (d.toNat < 10 → (t.grainAt l).reg d.toNat = wordOf bs 0) ∧ (∀ q ∈ (t.grainAt l).pend, q.id ≠ p.id)
      ∧ Acquires s t l.core acc.addr acc.named (some (wordOf bs 0)))
    ∧ ((wordOf bs 0).toNat < thr.toNat → ((s.grainAt l).watches[(0 : Fin 5)]).armed = false →
      ∃ t, exec (.longLatencyResult l p.id) s = .next t
        ∧ (t.grainAt l).watches[(0 : Fin 5)] = ⟨true, false, acc.addr, acc.named, thr, false, false⟩
        ∧ (t.grainAt l).pend = (s.grainAt l).pend ∧ (t.grainAt l).g = (s.grainAt l).g))
  ∧ (∀ l s p acc bs s1, pendAt s l p.id = some p → p.kind = .clean acc →
      (s.grainAt l).earlierFirst p.id acc.addr acc.size = false →
      serveLoad s l.core acc.ctx acc.named acc.addr acc.size false false = .value bs s1 →
      ∃ t, exec (.longLatencyResult l p.id) s = .next t ∧ (∀ q ∈ (t.grainAt l).pend, q.id ≠ p.id) ∧ (t.grainAt l).g = (s.grainAt l).g
        ∧ Acquires s t l.core acc.addr acc.named (some (wordOf bs 0)))
  ∧ (∀ l s p d mask, pendAt s l p.id = some p → p.kind = .waitw d mask → (s.grainAt l).acquireBefore p.id = false →
      ∀ w : Fin 4 → Watch, (∀ i, (s.grainAt l).watches[i.val + 1]? = some (w i)) →
      (∀ i : Fin 4, mask.getLsbD i = true → (w i).armed = true → (w i).lost = false) →
      ∀ on : Fin 4 → Bool, (∀ i, on i = (mask.getLsbD i && (w i).armed && (w i).fired)) →
      ((∃ i, on i = true) ∨ (∀ i : Fin 4, mask.getLsbD i = true → (w i).armed = false) → ∃ t, exec (.longLatencyResult l p.id) s = .next t
        ∧ (∀ q ∈ (t.grainAt l).pend, q.id ≠ p.id)
        ∧ (d.toNat < 10 → ∀ k, k < 64 → ((t.grainAt l).reg d.toNat).getLsbD k = if h : k < 4 then on ⟨k, h⟩ else false)
        ∧ ∀ i, (t.grainAt l).watches[i.val + 1]? = some (if on i then Watch.off else w i)
            ∧ (on i = true → Acquires s t l.core (w i).addr (w i).named none))
      ∧ ((∀ i, on i = false) → (∃ i : Fin 4, mask.getLsbD i = true ∧ (w i).armed = true) →
          exec (.longLatencyResult l p.id) s = .next s))
  ∧ (∀ l s p acc x old, s.Inv → pendAt s l p.id = some p → p.kind = .seqadd acc x →
      (s.grainAt l).earlierFirst p.id acc.addr 8 = false → engineHolds s acc.ctx acc.addr 8 = false →
      (∀ b ∈ (s.core l.core).storesOf l.slot, overlaps b.addr b.bytes.length acc.addr 8 = false) →
      bufferedStore (s.core l.core) acc.ctx acc.addr 8 = none → acc.addr % 2 ^ 38 + 8 ≤ 0x1000000000 → acc.addr + 8 ≤ 2 ^ 64 →
      readOwner s acc.ctx acc.addr 8 = .value old →
      ∃ t, exec (.longLatencyResult l p.id) s = .next t ∧ t.mem.bytes acc.addr 8 = leBytes 8 (wordOf old 0 + x).toNat
        ∧ (∀ k, k < acc.addr ∨ acc.addr + 8 ≤ k → t.mem.read k = s.mem.read k) ∧ ∀ q ∈ (t.grainAt l).pend, q.id ≠ p.id)
  ∧ ∀ l s p r w, pendAt s l p.id = some p → p.kind = .watch r → w = (s.grainAt l).watches[r] → w.armed = true →
      w.addr / 2 ^ 38 = coreCluster l.core →
      ∃ t, exec (.longLatencyResult l p.id) s = .next t ∧ (∀ q ∈ (t.grainAt l).pend, q.id ≠ p.id)
        ∧ ((t.grainAt l).watches[r]).fired = (w.fired || decide (w.thr.toNat ≤ (seqValue s w.addr).toNat)))

namespace Sys2Proof.Claims
/-- An instruction is a fence of a kind at a scope (R159): while an earlier load, add or store that it names is undone the grain waits at it,
and else it completes; at system scope stores to windows are written back. -/
def Fences (i : Instr) (s : State) (kind : FenceKind) (sc : Scope) : Prop :=
  ((kind ≠ .stores ∧ s.grain.loadsPending = true)
      ∨ (kind ≠ .loads ∧ (s.grain.addsPending = true ∨ sc ≠ .core ∧ s.storesPending s.cur = true)) →
    exec i s = .next (s.parkCur .drain))
  ∧ ((kind ≠ .stores → s.grain.loadsPending = false) →
      (kind ≠ .loads → s.grain.addsPending = false ∧ (sc = .core ∨ s.storesPending s.cur = false)) →
      exec i s = .next (if kind ≠ .loads ∧ sc = .system then writeBack (s.issued i) s.here else s.issued i))
end Sys2Proof.Claims

/-- R157, R158: BARW waits while what its release names is undone; then it arrives and waits at its own PC; a member whose core the
barrier's release has not reached waits on; once it has, the grain acquires every cluster with a member and goes on with its next barrier
instance. The BARW of a spawned grain is FENCE all. R159: a FENCE waits while what its kind names is undone, and else completes. R160:
SHFENCE waits while a store of the grain is in the buffer, and else empties the shape-record cache. -/
def Obligations.BarriersAndFences : Prop :=
  (∀ a s s0, s0 = s.issued (.barw a) → Issues (.barw a) a.gd (Touch.longOf []) s →
    (s.grain.spawned = true → Fences (.barw a) s .all a.sc)
    ∧ (s.grain.spawned = false → s.grain.barrier = none →
        (Unreleased s0 a.sc → exec (.barw a) s = .next (s.parkCur .release))
        ∧ (Released s0 a.sc → Alone s0 →
            ∃ t, exec (.barw a) s = .next t ∧ t.grain.barrier = some ⟨a.sc, s.grain.epochs[scopeNum a.sc]⟩ ∧ t.grain.pc = s.grain.pc
              ∧ ∃ x ∈ (t.launch s.grain.launch).barriers, x.sc = a.sc ∧ x.epoch = s.grain.epochs[scopeNum a.sc] ∧ s.grain.ident ∈ x.arrived))
    ∧ (s.grain.spawned = false → ∀ b x, s.grain.barrier = some b → groupOf s0 b = some x →
        (x.releasedTo.contains (unpackLoc s.grain.home).core = false → exec (.barw a) s = .next (s.parkCur .barrier))
        ∧ (x.releasedTo.contains (unpackLoc s.grain.home).core = true →
            ∃ t, exec (.barw a) s = .next t ∧ t.grain.barrier = none ∧ t.grain.pc = s0.grain.pc
              ∧ t.grain.epochs[scopeNum b.sc] = s.grain.epochs[scopeNum b.sc] + 1
              ∧ ∀ gid ∈ memberClusters (s.launch s.grain.launch) x,
                  Acquires s t s.cur.core (gid * 2 ^ 38) (namedOf (s.launch s.grain.launch) s.grain.replica gid) none)))
  ∧ (∀ a s, Issues (.fence a) a.gd (Touch.longOf []) s → Fences (.fence a) s a.kind a.sc)
  ∧ ∀ a s, Issues (.shfence a) a.gd (Touch.longOf []) s →
      (s.storesPending s.cur = true → exec (.shfence a) s = .next (s.parkCur .drain))
      ∧ (s.storesPending s.cur = false → exec (.shfence a) s = .next ((s.issued (.shfence a)).setCurCore
          { (s.issued (.shfence a)).curCore with shape := Vector.replicate 8 none }))

namespace Sys2Proof.Claims
/-- The launch refuses receives whose order is open (R165). -/
def OrderBound (s : State) : Prop := 2 ≤ (s.launch s.grain.launch).reps.count ∨ (s.launch s.grain.launch).detMode = true
/-- A receive took the flit `f` from a channel of a core: the flit is gone, flits that wait for room follow, and the sender's cluster is
acquired (R133, R162, R163). -/
def Received (s t : State) (core h r : Nat) (ch : BitVec 3) (f : Flit) : Prop :=
  ∀ q, q = (s.core core).chans[ch.toFin] →
    ((t.core core).chans[ch.toFin]).flits = q.flits.erase f ++ (q.waiting.take (16 - (q.flits.erase f).length)).map Prod.fst
      ∧ Acquires s t core (f.cluster * 2 ^ 38) (namedOf (s.launch h) r f.cluster) none
end Sys2Proof.Claims

/-- R161: SEND waits while what its system release names is undone; then its flit, numbered for the core and channel, is on the way; a
target whose core, cluster or node is none or is lost raises PEER_LOST, one without a grain of the launch PROTECTION, and in a
deterministic or replicated launch a spawned grain's SEND NONDET_FORBIDDEN. R163, R165: RECV and RECVS join the channel's receivers; in
such a launch RECV and RECVN raise NONDET_FORBIDDEN. R164: RECVN takes at once the oldest flit of its context that no receive before it
would take, and says so in p0; CHSTAT counts. R163, R165: the result of a receive with no other receive before it on its channel: RECV
takes the oldest flit of its context, RECVS the next of its sender in the order of sending; d holds the data and the receive is over; with
no such flit it waits on. -/
def Obligations.Channels : Prop :=
  ((∀ a s s0, s0 = s.issued (.send a) → Issues (.send a) a.gd (Touch.longOf (regRes a.d ++ regRes a.a)) s →
    (s.grain.spawned = true → OrderBound s → exec (.send a) s = .next (s.raise .nondetForbidden 0#64))
    ∧ ((s.grain.spawned = true → ¬OrderBound s) →
      (Unreleased s0 .system → exec (.send a) s = .next (s.parkCur .release))
      ∧ ∀ n core, n = (unpackLoc (s.grain.reg a.a.toNat).toNat).core →
        core = replicaMap (s.launch s.grain.launch) s.grain.replica (coreCluster n) * 32 + coreIndex n → Released s0 .system → Alone s0 →
        (17 ≤ coreIndex core ∨ s.alive (coreCluster core) = false →
          exec (.send a) s = .next (s.raise .peerLost (BitVec.ofNat 64 (coreCluster core * 2 ^ 38))))
        ∧ (coreIndex core < 17 → s.alive (coreCluster core) = true → holdsLaunch s0 core s.grain.launch = false →
            exec (.send a) s = .next (s.raise .protection 0#64))
        ∧ (coreIndex core < 17 → s.alive (coreCluster core) = true → holdsLaunch s0 core s.grain.launch = true →
            ∃ t f id, exec (.send a) s = .next t ∧ (f, s.cur, id) ∈ ((t.core core).chans[a.ch.toFin]).inFlight
              ∧ f.data = s.grain.reg a.d.toNat ∧ f.ctx = s.grain.ctx ∧ f.spawned = s.grain.spawned
              ∧ f.num = (PMap.get? (core * 8 + a.ch.toNat) s.grain.sends).getD 0
              ∧ PMap.get? (core * 8 + a.ch.toNat) t.grain.sends = some (f.num + 1)
              ∧ .channelFlitArrival core a.ch ∈ t.agenda ∧ ∃ e ∈ t.grain.pend, e.id = id)))
  ∧ (∀ a s, Issues (.recv a) a.gd (Touch.longOf (regRes a.d)) s →
      (OrderBound s → exec (.recv a) s = .next (s.raise .nondetForbidden 0#64))
      ∧ (¬OrderBound s →
          exec (.recv a) s = .next (waitChannel ((s.issued (.recv a)).begun s.grain.pc (.recv a.d a.ch none) (regRes a.d) a.la) a.ch)))
  ∧ (∀ a s, Issues (.recvs a) a.gd (Touch.longOf (regRes a.d ++ regRes a.a)) s →
      exec (.recvs a) s = .next (waitChannel ((s.issued (.recvs a)).begun s.grain.pc
        (.recv a.d a.ch (some ((s.grain.reg a.a.toNat).toNat % 2 ^ 35))) (regRes a.d) a.la) a.ch))
  ∧ (∀ a s s0, s0 = s.issued (.recvn a) → Issues (.recvn a) a.gd (Touch.longOf (regRes a.d ++ [.p0])) s →
      (OrderBound s → exec (.recvn a) s = .next (s.raise .nondetForbidden 0#64))
      ∧ (¬OrderBound s → ∀ o, o = oldestFlit s0 s.cur.core a.ch s0.grain →
        (o = none → exec (.recvn a) s = .next
          ((s0.setGrain { s0.grain with pw := setPred s.grain.pw 0#5 false }).answered (regRes a.d ++ [.p0]) a.la))
        ∧ ∀ f, o = some f → ∃ t, exec (.recvn a) s = .next t ∧ (a.d.toNat < 10 → t.grain.reg a.d.toNat = f.data)
            ∧ predOf t.grain.pw 0#5 = true ∧ Received s t s.cur.core s.grain.launch s.grain.replica a.ch f))
  ∧ ∀ a s, Issues (.chstat a) a.gd (Touch.longOf (regRes a.d)) s → ∀ q, q = s.curCore.chans[a.ch.toFin] →
      exec (.chstat a) s = .next (((s.issued (.chstat a)).setReg a.d.toNat
        (BitVec.ofNat 64 ((q.flits.filter fun f => f.ctx == s.grain.ctx).length + (if q.waiting.isEmpty then 0 else 32)
          + (if q.receivers.isEmpty then 0 else 64)))).answered (regRes a.d) a.la))
  ∧ (∀ l s p d ch sender, pendAt s l p.id = some p → p.kind = .recv d ch sender →
    (((s.core l.core).chans[ch.toFin]).receivers).head? = some ((s.grainAt l).key, p.id) →
    ∀ o, o = (((s.core l.core).chans[ch.toFin]).flits).find? (takesFlit (s.grainAt l) l.core ch sender) →
    (o = none → exec (.longLatencyResult l p.id) s = .next s)
    ∧ ∀ f, o = some f → ∃ t, exec (.longLatencyResult l p.id) s = .next t ∧ (d.toNat < 10 → (t.grainAt l).reg d.toNat = f.data)
        ∧ (∀ q ∈ (t.grainAt l).pend, q.id ≠ p.id) ∧ Received s t l.core (s.grainAt l).launch (s.grainAt l).replica ch f
        ∧ ∀ n, sender = some n → takesFlit (t.grainAt l) l.core ch sender f = false)

namespace Sys2Proof.Claims
/-- The grain whose turn it is has nothing outstanding, and its launch is neither replicated nor deterministic. -/
def AllDone (s : State) : Prop :=
  s.grain.pend = [] ∧ s.grain.appendedPending = false ∧ s.storesPending s.cur = false ∧ (∀ sc, s.doorsPending s.cur sc = false)
    ∧ Alone s ∧ ¬OrderBound s
/-- The instruction completes: the grain goes on past it. -/
def Completes (i : Instr) (s : State) : Prop := ∃ t, exec i s = .next t ∧ t.grain.pc = (s.issued i).grain.pc
end Sys2Proof.Claims

/-- R157 to R165: for a grain with nothing outstanding FENCE, SHFENCE, RECV, RECVS, RECVN and CHSTAT complete at their issue, as does SEND
to a core that holds a grain of the launch, and BARW where its barrier has been released to the core, or at once for a spawned grain. -/
def Obligations.WaitsComplete : Prop :=
  ∀ s, AllDone s →
    (∀ a b x, Issues (.barw a) a.gd (Touch.longOf []) s → s.grain.spawned = false → s.grain.barrier = some b →
      groupOf (s.issued (.barw a)) b = some x → x.releasedTo.contains (unpackLoc s.grain.home).core = true → Completes (.barw a) s)
    ∧ (∀ a, Issues (.barw a) a.gd (Touch.longOf []) s → s.grain.spawned = true → Completes (.barw a) s)
    ∧ (∀ a, Issues (.fence a) a.gd (Touch.longOf []) s → Completes (.fence a) s)
    ∧ (∀ a, Issues (.shfence a) a.gd (Touch.longOf []) s → Completes (.shfence a) s)
    ∧ (∀ a n core, Issues (.send a) a.gd (Touch.longOf (regRes a.d ++ regRes a.a)) s → n = (unpackLoc (s.grain.reg a.a.toNat).toNat).core →
        core = replicaMap (s.launch s.grain.launch) s.grain.replica (coreCluster n) * 32 + coreIndex n → coreIndex core < 17 →
        s.alive (coreCluster core) = true → holdsLaunch (s.issued (.send a)) core s.grain.launch = true → Completes (.send a) s)
    ∧ (∀ a, Issues (.recv a) a.gd (Touch.longOf (regRes a.d)) s → Completes (.recv a) s)
    ∧ (∀ a, Issues (.recvs a) a.gd (Touch.longOf (regRes a.d ++ regRes a.a)) s → Completes (.recvs a) s)
    ∧ (∀ a, Issues (.recvn a) a.gd (Touch.longOf (regRes a.d ++ [.p0])) s → Completes (.recvn a) s)
    ∧ ∀ a, Issues (.chstat a) a.gd (Touch.longOf (regRes a.d)) s → Completes (.chstat a) s

/-! ### The vector unit (R173-R199) -/

namespace Sys2Proof.Claims
/-- The binary VOP instructions with their lane operations (R182). -/
def vopBinary : List ((VopArgs → Instr) × LaneOp) :=
  [(.vadd, .add), (.vsub, .sub), (.vmul, .mul), (.vmin, .min), (.vmax, .max), (.vand, .and), (.vor, .or), (.vxor, .xor),
   (.vshl, .shl), (.vshr, .shr)]
/-- The unary VOP instructions (R182). -/
def vopUnary : List ((VunArgs → Instr) × VecFn) := [(.vmov, .mov), (.vabs, .abs), (.vneg, .neg)]
/-- Integer lanes, with the signedness of the type (R182). -/
def laneFn : List (LaneOp × (Bool → (w : Nat) → BitVec w → BitVec w → BitVec w)) :=
  [(.add, fun _ _ x y => x + y), (.sub, fun _ _ x y => x - y), (.mul, fun _ _ x y => x * y),
   (.min, fun i _ x y => if (if i then y.slt x else y.ult x) then y else x),
   (.max, fun i _ x y => if (if i then x.slt y else x.ult y) then y else x),
   (.and, fun _ _ x y => x &&& y), (.or, fun _ _ x y => x ||| y), (.xor, fun _ _ x y => x ^^^ y),
   (.shl, fun _ w x y => x <<< (y.toNat % w)),
   (.shr, fun i w x y => if i then x.sshiftRight (y.toNat % w) else x >>> (y.toNat % w))]
/-- The special functions (R192). -/
def specials : List ((VsfArgs → Instr) × Special) :=
  [(.vrcp, .rcp), (.vrsq, .rsq), (.vsqrt, .sqrt), (.vexp2, .exp2), (.vlog2, .log2), (.vsin, .sin), (.vcos, .cos), (.vtanh, .tanh)]
/-- The reads of a gather, in lane order, each a plain access of its own (R186). -/
def ReadsAll (pc : Word) : List Acc → State → List (List Byte) → State → Prop
  | [], s, bs, s' => bs = [] ∧ s' = s
  | acc :: r, s, bs, s' => ∃ b rest s1, (readM acc true).run s = .ok (b, s1) ∧ bs = b :: rest
      ∧ ReadsAll pc r (detAccess s1 s1.cur pc acc.addr acc.size false) rest s'
/-- The lane accesses of a gather or scatter: lane i steps the pointer by its signed index (R186). -/
def LaneAccs (s : State) (ty : EType) (p : Word) (step : Nat) (idx : Nat) (spec : AccSpec) (accs : List Acc) : Prop :=
  List.Forall₂ (fun x acc => checkAcc s (stepPtr p (signExtend x (etBits ty)) step) spec = .ok acc)
    (lanesOf s.grain.vbits (etBits ty) idx) accs
end Sys2Proof.Claims

/-- R173 to R176, R181 to R184: a VOP instruction enters the sequencer with the type, rounding mode, predicates and sources it has at
issue; sat on a float type and a shift of one raise RESERVED_FIELD. R182: an integer lane of VADD, VSUB, VMUL, VMIN, VMAX, VAND, VOR,
VXOR, VSHL and VSHR, without sat, is the function of the table over its w bits, signed for the i types, and raises no flag. -/
def Obligations.VectorArithmetic : Prop :=
  ((∀ q ∈ vopBinary, ∀ a s, Issues (q.1 a) a.gd (Touch.of (vopRegs a.xr (some a.s) a.t)) s → ∀ x ty, x = a.xr.getD noXreg →
    ty = typeOf s.grain a.ty →
    (ty.isFloat = true → a.sat = true ∨ q.2 = .shl ∨ q.2 = .shr → exec (q.1 a) s = .next (s.raise .reservedField (infoOfInstr (q.1 a))))
    ∧ (¬(ty.isFloat = true ∧ (a.sat = true ∨ q.2 = .shl ∨ q.2 = .shr)) →
        (∀ v s1, a.t = none → VReads s.grain.pc x.s a.s (s.issued (q.1 a)) v s1 → Room s1 →
          Enters (q.1 a) s1 (entryOf s1.grain s.grain.pc (.fn (.bin q.2 a.sat)) ty a.d (.reg a.d) v) s)
        ∧ ∀ t u v s1 s2, a.t = some t → VReads s.grain.pc x.s a.s (s.issued (q.1 a)) u s1 → VReads s.grain.pc x.t t s1 v s2 → Room s2 →
            Enters (q.1 a) s2 (entryOf s2.grain s.grain.pc (.fn (.bin q.2 a.sat)) ty a.d u v) s))
  ∧ (∀ q ∈ vopUnary, ∀ a s v s1, Issues (q.1 a) a.gd (Touch.of (vopRegs a.xr (some a.s) none)) s →
      VReads s.grain.pc (a.xr.getD noXreg).s a.s (s.issued (q.1 a)) v s1 → Room s1 →
      Enters (q.1 a) s1 (entryOf s1.grain s.grain.pc (.fn q.2) (typeOf s.grain a.ty) a.d v v) s)
  ∧ (∀ a s u v s1 s2, Issues (.vfma a) a.gd (Touch.of (vopRegs a.xr (some a.s) (some a.t))) s →
      VReads s.grain.pc (a.xr.getD noXreg).s a.s (s.issued (.vfma a)) u s1 → VReads s.grain.pc (a.xr.getD noXreg).t a.t s1 v s2 → Room s2 →
      Enters (.vfma a) s2 (entryOf s2.grain s.grain.pc (.fn .fma) a.ty a.d u v) s)
  ∧ (∀ a s v s1 ty, Issues (.vcvt a) a.gd (Touch.of (vopRegs a.xr (some a.s) none)) s → ty = typeOf s.grain a.ty →
      (a.sat = true → ty.isFloat = false ∧ a.dst.isFloat = false) →
      VReads s.grain.pc (a.xr.getD noXreg).s a.s (s.issued (.vcvt a)) v s1 → Room s1 →
      Enters (.vcvt a) s1 (entryOf s1.grain s.grain.pc (.fn (.cvt a.dst a.sat)) ty a.d v v) s)
  ∧ ∀ a s u v s1 s2,
      Issues (.vcmp a) a.gd (Touch.of (vopRegs a.xr (some a.s) (some a.t) ++ (if a.bank then [] else [.p0]))) s →
      (a.bank = true → s.grain.lanes a.ty ≤ 16) →
      VReads s.grain.pc (a.xr.getD noXreg).s a.s (s.issued (.vcmp a)) u s1 → VReads s.grain.pc (a.xr.getD noXreg).t a.t s1 v s2 → Room s2 →
      Enters (.vcmp a) s2 (entryOf s2.grain s.grain.pc (.fn (.cmp a.cond a.bank)) a.ty 0#4 u v) s)
  ∧ (∀ q ∈ laneFn, ∀ (t : EType) env x y, t.isFloat = false → x < 2 ^ etBits t → y < 2 ^ etBits t →
    laneOp q.1 t env false x y = ((q.2 (etSigned t) (etBits t) (BitVec.ofNat _ x) (BitVec.ofNat _ y)).toNat, 0#5))

/-- R177: entries start in order, and one that can start has only started entries before it and none whose result it reads; the vector
unit starts the first entry not started of the next slot whose entry can start, with the operands it has then, and with passes of its loop
left the entry of the next pass takes its place behind it (R195; where it stands is the model's reading, log 25); R55, R177: one of the
started entries of a sequencer completes, each after its own latency: its result is written, its flags are ORed in, and it leaves. -/
def Obligations.SequencerEntries : Prop :=
  (∀ s l, canStart s l = true → ∃ before e rest, (s.grainAt l).nextEntry = some (before, e) ∧ (s.grainAt l).seq = before ++ e :: rest
    ∧ e.started = false ∧ ∀ f ∈ before, f.started = true ∧ e.after f = false)
  ∧ (∀ core s, (vecRotation (s.core core)).filter (fun i => canStart s ⟨core, i⟩) = [] →
      ∃ t, exec (.sequencerEntryStart core) s = .next t ∧ ∀ l, t.grainAt l = s.grainAt l)
  ∧ (∀ core s i rest before e f, (vecRotation (s.core core)).filter (fun i => canStart s ⟨core, i⟩) = i :: rest →
    ∀ g, g = s.grainAt ⟨core, i⟩ → g.nextEntry = some (before, e) → e.op = .fn f →
    ∃ t, exec (.sequencerEntryStart core) s = .next t ∧ .sequencerEntryComplete ⟨core, i⟩ ∈ t.agenda
      ∧ { e with started := true
                 out := (vecFn f g.vbits e.ty e.env e.preds.toNat (srcVal g e.ty e.s) (srcVal g e.ty e.t) (g.vval e.d)).1
                 flags := (vecFn f g.vbits e.ty e.env e.preds.toNat (srcVal g e.ty e.s) (srcVal g e.ty e.t) (g.vval e.d)).2 }
          ∈ (t.grainAt ⟨core, i⟩).seq
      ∧ (0 < e.again → e.nextPass ∈ (t.grainAt ⟨core, i⟩).seq))
  ∧ ∀ l s going e, going = (s.grainAt l).seq.filter (·.started) → going[Config.choice s.tick 0 % going.length]? = some e →
      (s.slotAt l).occupied = true →
      ∃ t, exec (.sequencerEntryComplete l) s = .next t ∧ (t.grainAt l).seq = (s.grainAt l).seq.erase e ∧ t.mem = s.mem
        ∧ (∀ x, e.out = .v x → writesV e.op = true → (t.grainAt l).vreg e.d = BitVec.ofNat 128 x
            ∧ (t.grainAt l).pw = orFlags (s.grainAt l).pw e.flags ∧ ∀ r, r ≠ e.d → (t.grainAt l).vreg r = (s.grainAt l).vreg r)
        ∧ (∀ x, e.out = .g x → e.d.toNat < 10 → (t.grainAt l).reg e.d.toNat = x)
        ∧ ∀ mask vals, e.out = .preds mask vals → ∀ p : BitVec 5, p ≠ 31#5 →
            predOf (t.grainAt l).pw p = if mask.testBit p.toNat then vals.testBit p.toNat else predOf (s.grainAt l).pw p

/-- R188 to R192: the lane moves, reductions, VQNT, the accumulator rows and the special functions enter the sequencer; a lane that does
not exist, a type the instruction excludes, and a quarter that a ganged grain cannot move raise RESERVED_FIELD. -/
def Obligations.VectorMoves : Prop :=
  (∀ a s x s1, Issues (.vbcast a) a.gd (Touch.of (regRes a.s)) s → Reads s.grain.pc a.s (s.issued (.vbcast a)) x s1 → Room s1 →
    Enters (.vbcast a) s1 (entryOf s1.grain s.grain.pc (.fn .bcast) (typeOf s.grain a.ty) a.d (.value x) (.value x)) s)
  ∧ (∀ a s s0 ty, s0 = s.issued (.vextr a) → ty = typeOf s.grain a.ty → Issues (.vextr a) a.gd (Touch.of []) s →
      (s.grain.lanes ty ≤ a.lane.toNat → exec (.vextr a) s = .next (s.raise .reservedField (infoOfInstr (.vextr a))))
      ∧ (a.lane.toNat < s.grain.lanes ty → s0.grain.extrPending (regRes a.d) = false → Room s0 →
          Enters (.vextr a) s0 (entryOf s0.grain s.grain.pc (.fn (.extr a.lane.toNat)) ty a.d (.reg a.s) (.reg a.s)) s))
  ∧ (∀ a s x s1 ty, ty = typeOf s.grain a.ty → Issues (.vins a) a.gd (Touch.of (regRes a.s)) s →
      a.lane.toNat < s.grain.lanes ty → Reads s.grain.pc a.s (s.issued (.vins a)) x s1 → Room s1 →
      Enters (.vins a) s1 (entryOf s1.grain s.grain.pc (.fn (.ins a.lane.toNat)) ty a.d (.value x) (.value x)) s)
  ∧ (∀ a s s0, s0 = s.issued (.vshuf a) → Issues (.vshuf a) a.gd (Touch.of []) s → Room s0 →
      Enters (.vshuf a) s0 (entryOf s0.grain s.grain.pc (.fn .shuf) (typeOf s.grain a.ty) a.d (.reg a.s) (.reg a.t)) s)
  ∧ (∀ a s s0, s0 = s.issued (.vdot a) → Issues (.vdot a) a.gd (Touch.of []) s → Room s0 →
      Enters (.vdot a) s0 (entryOf s0.grain s.grain.pc (.fn .dot) (typeOf s.grain a.ty) a.d (.reg a.s) (.reg a.t)) s)
  ∧ (∀ a s s0, s0 = s.issued (.vrsum a) → Issues (.vrsum a) a.gd (Touch.of []) s → Room s0 →
      Enters (.vrsum a) s0 (entryOf s0.grain s.grain.pc (.fn .rsum) (typeOf s.grain a.ty) a.d (.reg a.s) (.reg a.s)) s)
  ∧ (∀ a s s0 ty, s0 = s.issued (.vsel a) → ty = typeOf s.grain a.ty → Issues (.vsel a) a.gd (Touch.predsOf (if a.hi then [] else [.p0])) s →
      (a.hi = true → s.grain.lanes ty ≤ 16) → Room s0 →
      Enters (.vsel a) s0 (entryOf s0.grain s.grain.pc (.fn (.sel a.hi)) ty a.d (.reg a.s) (.reg a.t)) s)
  ∧ (∀ a s s0 ty, s0 = s.issued (.vmovp a) → ty = typeOf s.grain a.ty →
      Issues (.vmovp a) a.gd (if a.toPred then Touch.of (if a.bank then [] else [.p0]) else Touch.predsOf (if a.bank then [] else [.p0])) s →
      (a.bank = true → s.grain.lanes ty ≤ 16) → Room s0 →
      Enters (.vmovp a) s0 (entryOf s0.grain s.grain.pc (.fn (if a.toPred then .lanesToPreds a.bank else .predsToLanes a.bank)) ty
        a.v (.reg a.v) (.reg a.v)) s)
  ∧ (∀ a s s0 ty h, s0 = s.issued (.vqnt a) → ty = typeOf s.grain a.ty → Issues (.vqnt a) a.gd (Touch.of (regRes a.t)) s →
      h = (s.grain.reg a.t.toNat).toNat % 2 ^ 32 →
      (ty ≠ .f16 → ty ≠ .bf16 → ty ≠ .f32 → exec (.vqnt a) s = .next (s.raise .reservedField (infoOfInstr (.vqnt a))))
      ∧ (ty = .f16 ∨ ty = .bf16 ∨ ty = .f32 →
          (h / 2 ^ 24 ≠ 0 ∨ (a.hi = true ∧ h / 2 ^ 20 % 16 ≠ 0) → exec (.vqnt a) s = .next (s.raise .formatInvalid 0x600#64))
          ∧ (h / 2 ^ 24 = 0 → (a.hi = true → h / 2 ^ 20 % 16 = 0) → Room s0 →
              Enters (.vqnt a) s0 (entryOf s0.grain s.grain.pc (.fn (.qnt h a.hi)) ty a.d (.reg a.s) (.reg a.s)) s)))
  ∧ (∀ q ∈ specials, ∀ a s s0, s0 = s.issued (q.1 a) → Issues (q.1 a) a.gd (Touch.of []) s →
      (a.ty.isFloat = false → exec (q.1 a) s = .next (s.raise .reservedField (infoOfInstr (q.1 a))))
      ∧ (a.ty.isFloat = true → Room s0 →
          Enters (q.1 a) s0 (entryOf s0.grain s.grain.pc (.fn (.special q.2)) a.ty a.d (.reg a.s) (.reg a.s)) s))
  ∧ ∀ (q : VaccArgs → Instr) (op : BitVec 2 → BitVec 4 → BitVec 2 → SeqOp), (q = .vaccr ∧ op = .accr) ∨ (q = .vaccw ∧ op = .accw) →
      ∀ a s s0, s0 = s.issued (q a) → Issues (q a) a.gd (Touch.of [.tile a.tile]) s →
      (gangedOf s.grain.pw = true → a.quarter.getLsbD 0 = true → exec (q a) s = .next (s.raise .reservedField (infoOfInstr (q a))))
      ∧ (¬(gangedOf s.grain.pw = true ∧ a.quarter.getLsbD 0 = true) → ownsTile s a.tile = true → Room s0 →
          Enters (q a) s0 (entryOf s0.grain s.grain.pc (op a.tile a.row a.quarter) .f32 a.v (.reg a.v) (.reg a.v)) s)

/-- R179, R185 to R187: the memory forms act at issue, once the sequencer is empty: VLD and VGATH write their register with the bytes
read, VST and VSCAT put their bytes into the store buffer, VSCAT in ascending lane order, and VDQNT writes dequantised lanes. -/
def Obligations.VectorMemory : Prop :=
  (∀ a s s0 p step acc bs s1, s0 = s.issued (.vld a) → Issues (.vld a) a.gd (Touch.of (regRes a.a)) s → streamOf a.a = none →
    VectorIdle s0.grain → Points a.a a.off plainFmts s0 p step → checkAcc s0 p (readSpec plainFmts (s.grain.vbits / 8) step) = .ok acc →
    (readM acc true).run s0 = .ok (bs, s1) →
    ∃ t, exec (.vld a) s = .next t ∧ t.grain.vreg a.v = BitVec.ofNat 128 (leNat bs) ∧ vdirtyOf t.grain.pw = true
      ∧ ∀ r, r ≠ a.v → t.grain.vreg r = s1.grain.vreg r)
  ∧ (∀ a s s0 n bs s1, s0 = s.issued (.vld a) → Issues (.vld a) a.gd (Touch.of (regRes a.a)) s → streamOf a.a = some n →
      VectorIdle s0.grain → (s0.grain.streams[n]).bound = true → (s0.grain.streams[n]).output = false →
      (streamBytes s.grain.pc n (etBytes (s0.grain.streams[n]).fmt) (streamCount s0.grain n)).run s0 = .ok (bs, s1) →
      ∃ t, exec (.vld a) s = .next t ∧ t.grain.vreg a.v = BitVec.ofNat 128 (leNat bs) ∧ vdirtyOf t.grain.pw = true)
  ∧ (∀ a s s0 p step acc, s0 = s.issued (.vst a) → Issues (.vst a) a.gd (Touch.of (regRes a.a)) s → streamOf a.a = none →
      VectorIdle s0.grain → Points a.a a.off plainFmts s0 p step → checkAcc s0 p (writeSpec plainFmts (s.grain.vbits / 8) step) = .ok acc →
      Clear s0.grain acc →
      ∃ t, exec (.vst a) s = .next t ∧ .storePerformed s.cur ∈ t.agenda
        ∧ ∃ b ∈ t.curCore.buffer, b.addr = acc.addr ∧ b.bytes = leBytes (s.grain.vbits / 8) (s.grain.vval a.v) ∧ b.slot = s.cur.slot)
  ∧ (∀ a s s0 n s1, s0 = s.issued (.vst a) → Issues (.vst a) a.gd (Touch.of (regRes a.a)) s → streamOf a.a = some n →
      VectorIdle s0.grain → (s0.grain.streams[n]).bound = true → (s0.grain.streams[n]).output = true →
      (appendBytes s.grain.pc n (etBytes (s0.grain.streams[n]).fmt) (leBytes (s.grain.vbits / 8) (s.grain.vval a.v)) (streamCount s0.grain n)).run
        s0 = .ok ((), s1) →
      ∃ t, exec (.vst a) s = .next t ∧ t.grain.streams = s1.grain.streams
        ∧ (t.grain.streams[n]).pos = (s0.grain.streams[n]).pos + streamCount s0.grain n)
  ∧ (∀ a s s0 ty p step accs bs s1, s0 = s.issued (.vgath a) → ty = typeOf s.grain a.ty →
      Issues (.vgath a) a.gd (Touch.of (regRes a.a)) s → VectorIdle s0.grain → Points a.a a.off plainFmts s0 p step → step = etBytes ty →
      LaneAccs s0 ty p step (s.grain.vval a.vi) (readSpec plainFmts step step) accs → ReadsAll s.grain.pc accs s0 bs s1 →
      ∃ t, exec (.vgath a) s = .next t ∧ t.grain.vreg a.v = BitVec.ofNat 128 (leNat bs.flatten) ∧ vdirtyOf t.grain.pw = true)
  ∧ (∀ a s s0 ty p step accs, s0 = s.issued (.vscat a) → ty = typeOf s.grain a.ty →
      Issues (.vscat a) a.gd (Touch.of (regRes a.a)) s → VectorIdle s0.grain → Points a.a a.off plainFmts s0 p step → step = etBytes ty →
      LaneAccs s0 ty p step (s.grain.vval a.vi) (writeSpec plainFmts step step) accs → (∀ acc ∈ accs, Clear s0.grain acc) →
      ∃ t, exec (.vscat a) s = .next t
        ∧ t.curCore.buffer.map (fun b => (b.addr, b.bytes)) = s.curCore.buffer.map (fun b => (b.addr, b.bytes))
            ++ (accs.zip (lanesOf s.grain.vbits (etBits ty) (s.grain.vval a.v))).map fun x => (x.1.addr, leBytes (etBytes ty) x.2))
  ∧ ∀ a s s0 q step e n per p, s0 = s.issued (.vdqnt a) → Issues (.vdqnt a) a.gd (Touch.of (regRes a.a)) s →
      typeOf s.grain a.ty = .f32 → VectorIdle s0.grain → p = s.grain.reg a.a.toNat → qfmtOf (ptrFmt p) = some q → ptrStep p = some step →
      e = offsetVal a.off → n = s.grain.lanes .f32 → per = 8 * groupSize (ptrLog p) → e % n = 0 → ∀ acc bs s1 gs,
      checkAcc s0 (stepPtr p (e / per) step) { readSpec [ptrFmt p] step 32 with seqRule := true } = .ok acc →
      (readSettledM acc).run s0 = .ok (bs, s1) →
      decodeBlock q (ptrLog p) bs = some gs →
      ∀ r, r = collect 32 ((List.range n).map fun i =>
        let x := gs.getD (((e % per).toNat + i) / groupSize (ptrLog p)) ⟨0, 0, []⟩
        dequant x.scale x.zero (x.codes.getD (((e % per).toNat + i) % groupSize (ptrLog p)) none)) →
      ∃ t, exec (.vdqnt a) s = .next t ∧ t.grain.vreg a.v = BitVec.ofNat 128 r.1 ∧ vdirtyOf t.grain.pw = true

/-- R193 to R195, R198, R199: VSETT sets vtype; VSYNC goes on when the sequencer is empty; VLOOP takes its count and body length, and a
ganged grain whose free entries at the issue do not hold the body is refused (the model's reading of R195, log 71); VGANG takes the free
odd slot above an even one and sets p0, or leaves p0 at 0; VSPLIT gives the odd slot back. -/
def Obligations.VectorControl : Prop :=
  (∀ a s, Issues (.vsett a) a.gd (Touch.of []) s → EndsWith (.vsett a) s fun g => { g with pw := setVtype g.pw a.dst })
  ∧ (∀ pw t, vtypeOf (setVtype pw t) = t ∧ ∀ j, (j < 40 ∨ 44 ≤ j) → (setVtype pw t).getLsbD j = pw.getLsbD j)
  ∧ (∀ a s, Issues (.vsync a) a.gd (Touch.of []) s → (s.issued (.vsync a)).grain.seqBusy = false →
      exec (.vsync a) s = .next (s.issued (.vsync a)))
  ∧ (∀ a s c, Issues (.vloop a) a.gd (Touch.of (regRes a.g)) s → c = (s.grain.reg a.g.toNat).toNat →
      (4095 < c → exec (.vloop a) s = .next (s.raise .reservedField (infoOfInstr (.vloop a))))
      ∧ (c ≤ 4095 → s.grain.seqHeld + a.len.toNat + 1 ≤ 16 →
          EndsWith (.vloop a) s fun g =>
            { g with vloop := some { id := g.newLoop, left := a.len.toNat + 1, place := 0, count := c } })
      ∧ (c ≤ 4095 → 16 < s.grain.seqHeld + a.len.toNat + 1 → gangedOf s.grain.pw = true →
          exec (.vloop a) s = .next (s.raise .reservedField (infoOfInstr (.vloop a)))))
  ∧ (∀ a s odd, Issues (.vgang a) a.gd (Touch.of [.p0]) s → Quiet (s.issued (.vgang a)) → odd = s.slotAt ⟨s.cur.core, s.cur.slot + 1⟩ →
      (s.cur.slot.val % 2 = 1 ∨ gangedOf s.grain.pw = true ∨ odd.st ≠ .empty
          ∨ (bestEntry (s.issued (.vgang a)) s.cur.core).isSome = true →
        EndsWith (.vgang a) s fun g => { g with pw := setPred g.pw 0#5 false })
      ∧ (s.cur.slot.val % 2 = 0 → gangedOf s.grain.pw = false → odd.st = .empty → bestEntry (s.issued (.vgang a)) s.cur.core = none →
          ∃ t, exec (.vgang a) s = .next t ∧ gangedOf t.grain.pw = true ∧ predOf t.grain.pw 0#5 = true
            ∧ t.grain.vh = Vector.replicate 16 0#128 ∧ t.grain.v = s.grain.v ∧ (t.slotAt ⟨s.cur.core, s.cur.slot + 1⟩).st = .oddHalf))
  ∧ ∀ a s, Issues (.vsplit a) a.gd (Touch.of []) s → Quiet (s.issued (.vsplit a)) →
      (gangedOf s.grain.pw = false → (s.slotAt ⟨s.cur.core, s.cur.slot + 1⟩).st ≠ .oddHalf → exec (.vsplit a) s = .next (s.issued (.vsplit a)))
      ∧ (gangedOf s.grain.pw = true → s.cur.slot.val % 2 = 0 → ∃ t, exec (.vsplit a) s = .next t ∧ gangedOf t.grain.pw = false
          ∧ (t.slotAt ⟨s.cur.core, s.cur.slot + 1⟩).st ≠ .oddHalf ∧ t.grain.v = s.grain.v)
/-! ### Tiles, weights, the array and streams (R201-R219) -/

namespace Sys2Proof.Claims
/-- A grain may use its context's weight buffer (R384). -/
def Holds (s : State) : Prop := s.curCore.wholder = s.grain.ctx
/-- No sequencer entry of the grain names the tile (R178). -/
def TileIdle (g : Grain) (t : BitVec 2) : Prop := ∀ e ∈ g.seq, e.names t = false
/-- The slot holds a valid image of the grain's context that nothing is about to replace, and no reload failed for the grain (R210). -/
def ImageReady (s : State) (w : BitVec 3) : Prop :=
  (s.curCore.wslot w).failed.contains s.cur.slot = false ∧ (s.curCore.wslot w).st = .valid ∧ (s.curCore.wslot w).ctx = s.grain.ctx ∧ (s.curCore.wslot w).loads = []
/-- A pointer resolves into the issuing core's own scratchpad (R212). -/
def OwnScratch (s : State) (p : Word) : Prop := resolve s p / 2 ^ 38 = s.here ∧ resolve s p % 2 ^ 38 / 0x20000 = coreIndex s.cur.core
/-- No store of the grain to an area is still in the buffer (R214). -/
def StoresDone (s : State) (acc : Acc) : Prop :=
  ∀ b ∈ s.curCore.storesOf s.cur.slot, overlaps b.addr b.bytes.length acc.addr acc.size = false
/-- No earlier acquire of the grain, and no earlier access of its to the area, is outstanding (R143, R288). -/
def Settled (s : State) (acc : Acc) : Prop := s.grain.earlierFirst (s.grain.nextOp + 1) acc.addr acc.size = false
/-- The state in which an instruction that has issued takes its fault: the grain is as it was before it. -/
def Unissued (s s0 : State) : State := s0.setGrain s.grain
/-- No replay of a VLOOP still moves elements of the stream (R197). -/
def StreamFree (g : Grain) (n : Fin 4) : Prop := ∀ e ∈ g.seq, e.stream.any (fun k => k.toNat == n.val) = false
end Sys2Proof.Claims

/-- R27, R202 to R205: MACQ claims a free tile whose first waiter it is, every element +0, and is refused to a grain that owns one; MREL
frees the tile; MZERO sets its elements to +0; MLDC and MSTC move 1,024 bytes. R201: an instruction that names a tile the grain does not
own raises ACC_NOT_OWNED. -/
def Obligations.Tiles : Prop :=
  ((∀ a s s0 t, s0 = s.issued (.macq a) → Issues (.macq a) a.gd (Touch.longOf []) s → t = s.curCore.tiles[a.tile.toFin] →
    ((∃ k : Fin 4, (s.curCore.tiles[k]).owner = some s.cur.slot) → exec (.macq a) s = .next (s.raise .reservedField (infoOfInstr (.macq a))))
    ∧ ((∀ k : Fin 4, (s.curCore.tiles[k]).owner ≠ some s.cur.slot) →
        (t.owner = none → t.waiters.headD s.grain.key = s.grain.key → ∃ u, exec (.macq a) s = .next u ∧ u.grain.pc = s0.grain.pc
          ∧ ((u.curCore.tiles[a.tile.toFin]).owner = some s.cur.slot ∧ (∀ k, (u.curCore.tiles[a.tile.toFin]).elem k = 0#32))
          ∧ vdirtyOf u.grain.pw = true)
        ∧ (t.owner ≠ none → ∃ u, exec (.macq a) s = .next u ∧ u.grain.pc = s.grain.pc
            ∧ s.grain.key ∈ (u.curCore.tiles[a.tile.toFin]).waiters ∧ (u.curCore.tiles[a.tile.toFin]).owner = t.owner)))
  ∧ (∀ a s s0, s0 = s.issued (.mrel a) → Issues (.mrel a) a.gd (Touch.longOf [.tile a.tile]) s → (s.slotAt s.cur).st ≠ .empty →
      ownsTile s a.tile = true →
      TileIdle s.grain a.tile → ∃ u, exec (.mrel a) s = .next u ∧ ∀ k : Fin 4, (u.curCore.tiles[k]).owner ≠ some s.cur.slot)
  ∧ (∀ a s s0, s0 = s.issued (.mzero a) → Issues (.mzero a) a.gd (Touch.longOf [.tile a.tile]) s → ownsTile s a.tile = true →
      TileIdle s.grain a.tile → ∃ u, exec (.mzero a) s = .next u ∧ (∀ k, (u.curCore.tiles[a.tile.toFin]).elem k = 0#32)
        ∧ ∀ k : Fin 4, k ≠ a.tile.toFin → u.curCore.tiles[k] = s.curCore.tiles[k])
  ∧ (∀ a s s0 p step acc, s0 = s.issued (.mldc a) → Issues (.mldc a) a.gd (Touch.longOf (.tile a.tile :: regRes a.a)) s →
      ownsTile s a.tile = true → Points a.a a.off [10] s0 p step → checkAcc s0 p (readSpec [10] 1024 32) = .ok acc →
      TileIdle s.grain a.tile → Begins (.mldc a) s s0 (.mldc acc a.tile) [.tile a.tile] a.la)
  ∧ ∀ a s s0 p step acc, s0 = s.issued (.mstc a) → Issues (.mstc a) a.gd (Touch.longOf (.tile a.tile :: regRes a.a)) s →
      ownsTile s a.tile = true → Points a.a a.off [10] s0 p step → checkAcc s0 p (writeSpec [10] 1024 32) = .ok acc →
      TileIdle s.grain a.tile → Clear s.grain acc →
      ∃ u, exec (.mstc a) s = .next u ∧ .storePerformed s.cur ∈ u.agenda
        ∧ ∃ b ∈ u.curCore.buffer, b.addr = acc.addr ∧ b.bytes = (s.curCore.tiles[a.tile.toFin]).bytes ∧ b.slot = s.cur.slot)
  ∧ (∀ s (i : Instr) gd t (tile : BitVec 2),
    ((∃ a, i = .mrel a ∧ gd = a.gd ∧ t = Touch.longOf [.tile a.tile] ∧ tile = a.tile)
      ∨ (∃ a, i = .mzero a ∧ gd = a.gd ∧ t = Touch.longOf [.tile a.tile] ∧ tile = a.tile)
      ∨ (∃ a, i = .mldc a ∧ gd = a.gd ∧ t = Touch.longOf (.tile a.tile :: regRes a.a) ∧ tile = a.tile)
      ∨ (∃ a, i = .mstc a ∧ gd = a.gd ∧ t = Touch.longOf (.tile a.tile :: regRes a.a) ∧ tile = a.tile)
      ∨ (∃ a, i = .mma a ∧ gd = a.gd ∧ t = Touch.longOf (.tile a.tile :: regRes a.a) ∧ tile = a.tile)
      ∨ (∃ a, i = .mmai a ∧ gd = a.gd ∧ t = Touch.longOf (.tile a.tile :: regRes a.a) ∧ tile = a.tile)) →
    Issues i gd t s → ownsTile s tile = false → ∃ info, exec i s = .next (s.raise .accNotOwned info))

/-- R207 to R209, R384: WBLD of a holder reads the header at issue and is outstanding for the length that it gives; its result makes the
slot valid with its record; a length that is not 32 to 8,192 in steps of 32 raises FORMAT_INVALID; WBINV invalidates the loaded slots that
it names. -/
def Obligations.WeightSlots : Prop :=
  (∀ a s s0 p step head bs s1 len, s0 = s.issued (.wbld a) → Issues (.wbld a) a.gd (Touch.longOf (regRes a.a)) s → Holds s →
    Points a.a a.off plainFmts s0 p step → checkAcc s0 p (readSpec plainFmts 32 32) = .ok head → Settled s head →
    serveLoad s0 s.cur.core head.ctx head.named head.addr head.size false false = .value bs s1 → len = fieldOf bs 4 2 →
    (len < 32 ∨ 8192 < len ∨ len % 32 ≠ 0 → exec (.wbld a) s = .next ((Unissued s s0).raise .formatInvalid (imageInfo bs 2)))
    ∧ (32 ≤ len → len ≤ 8192 → len % 32 = 0 → ∀ acc, checkAcc s1 p (readSpec plainFmts len 32) = .ok acc →
        ∃ t, exec (.wbld a) s = .next t ∧ ∃ e ∈ t.grain.pend, e.kind = .wbld acc a.w ∧ e.pc = s.grain.pc
          ∧ (s.cur.slot, e.id) ∈ (t.curCore.wslot a.w).loads ∧ .longLatencyResult s.cur e.id ∈ t.agenda))
  ∧ (∀ l s p acc w bs s1, pendAt s l p.id = some p → p.kind = .wbld acc w → ((s.core l.core).wslot w).loads.head? = some (l.slot, p.id) →
      (s.core l.core).queuedOn w = false → ((s.core l.core).wslot w).reload = [] →
      (s.grainAt l).earlierFirst p.id acc.addr acc.size = false → serveLoad s l.core acc.ctx acc.named acc.addr acc.size false false = .value bs s1 →
      ∃ t x, exec (.longLatencyResult l p.id) s = .next t ∧ x = (t.core l.core).wslot w ∧ x.st = .valid ∧ x.image = bs ∧ x.ctx = acc.ctx
        ∧ x.source = acc.addr ∧ x.length = acc.size)
  ∧ ∀ a s s0, s0 = s.issued (.wbinv a) → Issues (.wbinv a) a.gd (Touch.longOf []) s → Holds s →
      (∀ w ∈ wbinvSlots a.w, s.curCore.queuedOn w = false ∧ (s.curCore.wslot w).taken = false) →
      ∃ t, exec (.wbinv a) s = .next t ∧ ∀ w, t.curCore.wslot w
        = if a.w = none ∨ a.w = some w then (s.curCore.wslot w).invalidate else s.curCore.wslot w

/-- R210 to R212, R214: MMA and MMAI of a grain that owns the tile, with a valid image that suits and A in the core's own scratchpad, or
for MMA in an input stream, queue at the array, and the grain leaves the rotation; an empty slot raises WBUF_INVALID. R211, R296: when the
head operation of an array completes, its tile holds what its arithmetic gives for its A operand and the slot's image, its flags are ORed
into the grain's, and the next operation may start. -/
def Obligations.ArrayOperations : Prop :=
  ((∀ a s s0 p step acc w, s0 = s.issued (.mma a) → Issues (.mma a) a.gd (Touch.longOf (.tile a.tile :: regRes a.a)) s →
    (s.slotAt s.cur).st = .ready → ownsTile s a.tile = true → Holds s → streamOf a.a = none → Points a.a [] [8, 9, 10] s0 p step →
    OwnScratch s0 p → checkAcc s0 p (readSpec [8, 9, 10] (16 * kCount a * step) 32) = .ok acc → ImageReady s a.w →
    weightImage (s.curCore.wslot a.w).image = .ok w → kCount a ≤ w.krows → TileIdle s.grain a.tile → StoresDone s acc →
    Settled s acc → ∃ t o, exec (.mma a) s = .next t ∧ o ∈ t.curCore.arrayQ ∧ o.slot = s.cur.slot ∧ o.tile = a.tile ∧ o.a = .memory acc ∧ o.fmt = ptrFmt p
      ∧ o.w = a.w ∧ o.k = kCount a ∧ o.integer = false ∧ (t.slotAt s.cur).st = .parked .array ∧ .mmaStart s.cur.core ∈ t.agenda)
  ∧ (∀ a s s0 n w, s0 = s.issued (.mma a) → Issues (.mma a) a.gd (Touch.longOf (.tile a.tile :: regRes a.a)) s →
      (s.slotAt s.cur).st = .ready → ownsTile s a.tile = true → Holds s → streamOf a.a = some n → ∀ st, st = s.grain.streams[n] →
      StreamFree s.grain n → st.bound = true → st.output = false → (st.fmt = .f16 ∨ st.fmt = .bf16 ∨ st.fmt = .f32) → st.pos + 16 * kCount a ≤ st.total →
      ImageReady s a.w → weightImage (s.curCore.wslot a.w).image = .ok w → kCount a ≤ w.krows → TileIdle s.grain a.tile →
      ∃ t o, exec (.mma a) s = .next t ∧ o ∈ t.curCore.arrayQ ∧ o.slot = s.cur.slot ∧ o.tile = a.tile ∧ o.a = .stream (BitVec.ofNat 2 n.val)
        ∧ o.k = kCount a ∧ (t.slotAt s.cur).st = .parked .array)
  ∧ (∀ a s s0 p step acc w, s0 = s.issued (.mmai a) → Issues (.mmai a) a.gd (Touch.longOf (.tile a.tile :: regRes a.a)) s →
      (s.slotAt s.cur).st = .ready → ownsTile s a.tile = true → Holds s → Points a.a [] [16, 17, 18, 19] s0 p step →
      OwnScratch s0 p → kCount a % groupSize (ptrLog p) = 0 →
      checkAcc s0 p (readSpec [16, 17, 18, 19]
        (16 * ((kCount a + 8 * groupSize (ptrLog p) - 1) / (8 * groupSize (ptrLog p))) * step) 32) = .ok acc → ImageReady s a.w →
      weightImage (s.curCore.wslot a.w).image = .ok w → (qfmtOf w.fmt).isSome = true → w.log = ptrLog p → kCount a ≤ w.krows →
      TileIdle s.grain a.tile → StoresDone s acc → Settled s acc →
      ∃ t o, exec (.mmai a) s = .next t ∧ o ∈ t.curCore.arrayQ ∧ o.slot = s.cur.slot ∧ o.tile = a.tile ∧ o.a = .memory acc
        ∧ o.fmt = ptrFmt p ∧ o.log = ptrLog p ∧ o.w = a.w ∧ o.k = kCount a ∧ o.integer = true ∧ (t.slotAt s.cur).st = .parked .array
        ∧ .mmaStart s.cur.core ∈ t.agenda)
  ∧ ∀ a s s0 p step acc, s0 = s.issued (.mma a) → Issues (.mma a) a.gd (Touch.longOf (.tile a.tile :: regRes a.a)) s →
      ownsTile s a.tile = true → Holds s → streamOf a.a = none → Points a.a [] [8, 9, 10] s0 p step → OwnScratch s0 p →
      checkAcc s0 p (readSpec [8, 9, 10] (16 * kCount a * step) 32) = .ok acc → (s.curCore.wslot a.w).st = .empty →
      (s.curCore.wslot a.w).loads = [] → ∃ info, exec (.mma a) s = .next ((Unissued s s0).raise .wbufInvalid info))
  ∧ (∀ core s o rest acc bs w data fl, (s.core core).arrayQ = o :: rest → o.started = true → o.a = .memory acc →
    readOwner s acc.ctx acc.addr acc.size = .value bs → weightImage ((s.core core).wslot o.w).image = .ok w →
    arrayResult ((s.core core).tiles[o.tile.toFin]) o w bs [] = some (data, fl) →
    ∃ t, exec (.mmaComplete core) s = .next t ∧ ((t.core core).tiles[o.tile.toFin]).data = data ∧ (t.core core).arrayQ = rest
      ∧ (t.grainAt ⟨core, o.slot⟩).pw = orFlags (s.grainAt ⟨core, o.slot⟩).pw fl ∧ .mmaStart core ∈ t.agenda)

/-- R216 to R219: SBIND of a record that passes its checks binds the stream at position 0 and sets SDIRTY; SUNBIND unbinds it once an
output stream is drained; SSTAT gives its status; SDRAIN parks the grain until every element appended to its output stream is written, and
raises STREAM_MISUSE for an input stream and for an unbound one. -/
def Obligations.StreamBinding : Prop :=
  (∀ a s s0 p step racc bs s1, s0 = s.issued (.sbind a) → Issues (.sbind a) a.gd (Touch.longOf (regRes a.a)) s →
    Points a.a a.off plainFmts s0 p step → checkAcc s0 p (readSpec plainFmts 32 32) = .ok racc →
    ((s.grain.streams[a.n.toFin]).bound = true → exec (.sbind a) s = .next (s.raise .streamMisuse (streamInfo a.n.toNat 1)))
    ∧ ((s.grain.streams[a.n.toFin]).bound = false → (readM racc false).run s0 = .ok (bs, s1) →
        ∀ base c0 c1 c2 dir, base = wordOf bs 0 → c0 = fieldOf bs 8 2 → c1 = fieldOf bs 10 2 → c2 = fieldOf bs 12 2 →
        dir = fieldOf bs 14 1 → dir ≤ 1 → fieldOf bs 15 1 = 0 → fieldOf bs 28 4 = 0 → c0 ≠ 0 → c1 ≠ 0 → c2 ≠ 0 →
        ∀ n fmt, ptrStep base = some n → fmtEType (ptrFmt base) = some fmt →
        ∀ st, st = { Stream.unbound with bound := true, output := dir == 1, fmt, ptr := base, c0, c1, c2,
                                         s0 := stride bs 16, s1 := stride bs 20, s2 := stride bs 24 } →
        ∀ spec, spec = (if dir = 1 then writeSpec plainFmts (etBytes fmt) (etBytes fmt) else readSpec plainFmts (etBytes fmt) (etBytes fmt)) →
        ∀ lo hi, checkAcc s1 (stepPtr base st.lowest (etBytes fmt)) spec = .ok lo →
        checkAcc s1 (stepPtr base st.highest (etBytes fmt)) spec = .ok hi →
        ∃ t u, exec (.sbind a) s = .next t ∧ u = t.grain.streams[a.n.toFin] ∧ u.bound = true ∧ (u.output = true ↔ dir = 1) ∧ u.fmt = fmt
          ∧ u.c0 = c0 ∧ u.c1 = c1 ∧ u.c2 = c2 ∧ u.pos = 0 ∧ u.fetched = [] ∧ u.appended = [] ∧ sdirtyOf t.grain.pw = true))
  ∧ (∀ a s, Issues (.sunbind a) a.gd (Touch.longOf []) s → StreamFree s.grain a.n.toFin →
      ((s.grain.streams[a.n.toFin]).output = true → (s.grain.streams[a.n.toFin]).appended = []) →
      ∃ t, exec (.sunbind a) s = .next t ∧ t.grain.streams[a.n.toFin] = Stream.unbound
        ∧ (∀ n : Fin 4, n ≠ a.n.toFin → t.grain.streams[n] = s.grain.streams[n])
        ∧ (sdirtyOf t.grain.pw = true ↔ ∃ n : Fin 4, (t.grain.streams[n]).bound = true))
  ∧ (∀ a s st, Issues (.sstat a) a.gd (Touch.longOf (regRes a.d)) s → st = s.grain.streams[a.n.toFin] →
      exec (.sstat a) s = .next (((s.issued (.sstat a)).setReg a.d.toNat st.stat).answered (regRes a.d) a.la)
      ∧ (st.bound = false → st.stat = 0#64)
      ∧ (st.bound = true → st.stat.toNat % 2 = 1 ∧ st.stat.toNat / 2 % 2 = (if st.output then 1 else 0)
          ∧ st.stat.toNat / 256 % 256 = min 255 (if st.output then st.appended.length else st.fetched.length)
          ∧ st.stat.toNat / 65536 = (st.total - st.pos) % 2 ^ 48))
  ∧ ∀ a s st, Issues (.sdrain a) a.gd (Touch.longOf []) s → StreamFree s.grain a.n.toFin → st = s.grain.streams[a.n.toFin] →
      (st.bound = true → st.output = true → st.appended = [] → exec (.sdrain a) s = .next (s.issued (.sdrain a)))
      ∧ (st.bound = true → st.output = true → st.appended ≠ [] → (s.slotAt s.cur).st = .ready →
          ∃ t, exec (.sdrain a) s = .next t ∧ (t.slotAt s.cur).st = .parked .stream ∧ t.grain = s.grain ∧ t.mem = s.mem
            ∧ .outputStreamLineWrite s.cur a.n.toFin ∈ t.agenda)
      ∧ (st.bound = false → exec (.sdrain a) s = .next (s.raise .streamMisuse (streamInfo a.n.toNat 1)))
      ∧ (st.bound = true → st.output = false → exec (.sdrain a) s = .next (s.raise .streamMisuse (streamInfo a.n.toNat 0)))

/-! ### Net launches (R220-R227) -/

/-- R220, R221, R315: NALLOC takes a node of the core's ring or the cluster's free list, stores it empty and unlinked, and gives its
pointer; with none it raises NODE_ARENA_EMPTY, through sg4 to sg7 FAR_STORE, and outside the arena FORMAT_INVALID; NFREE of a near node
that is live stamps it into the retire queue, of a far one sends a free, which the owner checks; a near pointer that names no node raises
NET_PORT_INVALID. R222: NLD is outstanding for its word; NST puts its word into the store buffer; NREF and NOWN give portrefs and owners
at once. R223 to R225: PXCHG and PLINK of a live port make the waits of a system release and are outstanding with their first exchange;
RWPUSH counts a created pair and is outstanding until the owner has it; ports that are not principal raise NET_PORT_INVALID. R223, R224,
R285: the exchange of a PXCHG at its owner returns the old value in d, and the operation is over; while the core's buffer holds a store to
the node it waits. -/
def Obligations.NodesAndExchanges : Prop :=
  ((∀ a s s0 l p step acc, s0 = s.issued (.nalloc a) → Issues (.nalloc a) a.gd (Touch.longOf (regRes a.d ++ regRes a.a)) s →
    l = s.launch s.grain.launch → l.net = true → Points a.a [] [32] s0 p step →
    (4 ≤ ptrSeg p → exec (.nalloc a) s = .next (s.raise .farStore (segInfo p)))
    ∧ (ptrSeg p < 4 → l.nodeAt (resolve s0 p) = none → exec (.nalloc a) s = .next (s.raise .formatInvalid (fmtInfo p 0)))
    ∧ (ptrSeg p < 4 → (l.nodeAt (resolve s0 p)).isSome = true →
    checkAcc s0 p { fmts := [32], size := 32, align := 32, r := true, w := true, x := false, store := true, seqRule := true, steer := false } = .ok acc →
    ((s.netCl s.here s.grain.launch).alloc s.cur.core = none → exec (.nalloc a) s = .next (s.raise .nodeArenaEmpty 0#64))
    ∧ ∀ i n, (s.netCl s.here s.grain.launch).alloc s.cur.core = some (i, n) →
        Clear s.grain { acc with addr := l.nodeAddr s.here i } →
        ∃ t, exec (.nalloc a) s = .next t ∧ t.netCl s.here s.grain.launch = n ∧ .storePerformed s.cur ∈ t.agenda
          ∧ (∃ b ∈ t.curCore.buffer, b.addr = l.nodeAddr s.here i ∧ b.slot = s.cur.slot
              ∧ b.bytes = leBytes 8 0 ++ (List.range 3).flatMap fun _ => leBytes 8 unlinkedWord.toNat)
          ∧ (a.d.toNat < 10 →
          (t.grain.reg a.d.toNat).extractLsb' 52 12 = p.extractLsb' 52 12
          ∧ (t.grain.reg a.d.toNat).extractLsb' 0 52
              = BitVec.ofInt 52 ((l.arenaBase + 32 * i : Nat) - ((s.grain.seg (ptrSeg p)).w0.toNat : Int)))))
  ∧ ∀ a s s0 l p good, s0 = s.issued (.nfree a) → Issues (.nfree a) a.gd (Touch.longOf (regRes a.a)) s →
      l = s.launch s.grain.launch → l.net = true → p = s.grain.reg a.a.toNat →
      good = (ptrFmt p == 32 && ptrLog p == 0 && ptrOff p % 32 == 0) →
      (4 ≤ ptrSeg p → ∀ addr, addr = effAddr s0 (clusterNode s.here) s.grain.launch s.grain.replica (resolve s0 p) false →
        (freeRightsM p false addr).run s0 = .ok ((), s0) →
        ∃ t, exec (.nfree a) s = .next t ∧ .remoteUpdateApply (addr / 2 ^ 38) ∈ t.agenda
          ∧ ∃ f ∈ (t.cluster (addr / 2 ^ 38)).farFrees, f.addr = addr ∧ f.good = good ∧ f.launch = s.grain.launch)
      ∧ (ptrSeg p < 4 → good = false ∨ l.nodeAt (resolve s0 p) = none →
          exec (.nfree a) s = .next (s.raise .netPortInvalid (portInfo (ptrOff p))))
      ∧ (ptrSeg p < 4 → good = true → ∀ i, l.nodeAt (resolve s0 p) = some i → (freeRightsM p true (resolve s0 p)).run s0 = .ok ((), s0) →
          (s.netCl s.here s.grain.launch).retire.length < 4096 → ∀ bs s1,
          (readM { ptr := p, addr := l.nodeAddr s.here i + 8, named := s.here, size := 8, ctx := s.grain.ctx } false).run s0 = .ok (bs, s1) →
          (nodeFreed (s.netCl s.here s.grain.launch) i (wordOf bs 0) = true → exec (.nfree a) s = .next (s.raise .netPortInvalid (portInfo (ptrOff p))))
          ∧ (nodeFreed (s.netCl s.here s.grain.launch) i (wordOf bs 0) = false →
              ∃ t, exec (.nfree a) s = .next t ∧ (t.netCl s.here s.grain.launch).retire = (s1.netCl s.here s.grain.launch).retire
                ++ [{ index := i, stamp := (s1.netCl s.here s.grain.launch).epoch, core := some s.cur.core }])))
  ∧ (∀ s l, l = s.launch s.grain.launch → l.net = true →
    (∀ a s0 p step acc, s0 = s.issued (.nld a) → Issues (.nld a) a.gd (Touch.longOf (regRes a.d ++ regRes a.a)) s →
      Points a.a [] [32] s0 p step → checkAcc s0 p (readSpec [32] 32 32) = .ok acc →
      Begins (.nld a) s s0 (.load { ptr := p, addr := acc.addr + 8 * nodeWord a.w, named := acc.named, size := 8, ctx := acc.ctx }
        .zero a.d .none true none) (regRes a.d) a.la)
    ∧ (∀ a s0 p step acc, s0 = s.issued (.nst a) → Issues (.nst a) a.gd (Touch.longOf (regRes a.d ++ regRes a.a)) s →
        Points a.a [] [32] s0 p step → checkAcc s0 p (writeSpec [32] 32 32) = .ok acc →
        Clear s.grain { ptr := p, addr := acc.addr + 8 * nodeWord a.w, named := acc.named, size := 8, ctx := acc.ctx } →
        ∃ t, exec (.nst a) s = .next t ∧ .storePerformed s.cur ∈ t.agenda
          ∧ ∃ b ∈ t.curCore.buffer, b.addr = acc.addr + 8 * nodeWord a.w ∧ b.bytes = leBytes 8 (s.grain.reg a.d.toNat).toNat ∧ b.slot = s.cur.slot)
    ∧ (∀ a s0 p step i, s0 = s.issued (.nref a) → Issues (.nref a) a.gd (Touch.longOf (regRes a.d ++ regRes a.a)) s →
        Points a.a [] [32] s0 p step → ptrOff p % 32 = 0 → resolve s0 p % 2 ^ 38 = l.arenaBase + 32 * i → i < l.nodeCount →
        exec (.nref a) s = .next ((s0.setReg a.d.toNat
          (BitVec.ofNat 64 (resolve s0 p / 2 ^ 38 * 2 ^ 22 + i * 4 + nodeWord a.w))).answered (regRes a.d) a.la))
    ∧ ∀ a s0, s0 = s.issued (.nown a) → Issues (.nown a) a.gd (Touch.longOf (regRes a.d ++ regRes a.a)) s →
        exec (.nown a) s = .next ((s0.setReg a.d.toNat ((s.grain.reg a.a.toNat).extractLsb' 22 26 |>.setWidth 64)).answered (regRes a.d) a.la))
  ∧ (∀ s l, l = s.launch s.grain.launch → l.net = true →
    (∀ a s0 q v, s0 = s.issued (.pxchg a) → Issues (.pxchg a) a.gd (Touch.longOf (regRes a.d ++ regRes a.a)) s →
      q = portref (s.grain.reg a.a.toNat) → v = s.grain.reg a.d.toNat →
      (∀ c info, portBad s0 l q v = some (c, info) → exec (.pxchg a) s = .next (s.raise c info))
      ∧ (portBad s0 l q v = none → Released s0 .system → ∃ t odd, exec (.pxchg a) s = .next t ∧
          ∃ e ∈ t.grain.pend, e.kind = .net .pxchg (some a.d) (BitVec.ofNat 64 q) v odd ∧ .longLatencyResult s.cur e.id ∈ t.agenda))
    ∧ (∀ a s0 q n, s0 = s.issued (.plink a) → Issues (.plink a) a.gd (Touch.longOf (regRes a.d ++ regRes a.a)) s →
        q = portref (s.grain.reg a.d.toNat) → n = portref (s.grain.reg a.a.toNat) →
        portBad s0 l q (slotVal 1 n) = none → Released s0 .system → ∃ t odd, exec (.plink a) s = .next t ∧
          ∃ e ∈ t.grain.pend, e.kind = .net .linkFirst none (BitVec.ofNat 64 q) (BitVec.ofNat 64 n) odd
            ∧ .longLatencyResult s.cur e.id ∈ t.agenda)
    ∧ ∀ a s0 x y, s0 = s.issued (.rwpush a) → Issues (.rwpush a) a.gd (Touch.longOf (regRes a.d ++ regRes a.a)) s →
        x = portref (s.grain.reg a.d.toNat) → y = portref (s.grain.reg a.a.toNat) →
        (portNum x ≠ 0 → exec (.rwpush a) s = .next (s.raise .netPortInvalid (portInfo x)))
        ∧ (portNum x = 0 → portNum y ≠ 0 → exec (.rwpush a) s = .next (s.raise .netPortInvalid (portInfo y)))
        ∧ (portNum x = 0 → portNum y = 0 → l.nodeCount ≤ portIndex x →
            exec (.rwpush a) s = .next (s.raise .netPortInvalid (portInfo x)))
        ∧ (portNum x = 0 → portNum y = 0 → portIndex x < l.nodeCount → l.nodeCount ≤ portIndex y →
            exec (.rwpush a) s = .next (s.raise .netPortInvalid (portInfo y)))
        ∧ (portNum x = 0 → portNum y = 0 → portIndex x < l.nodeCount → portIndex y < l.nodeCount → ∃ t, exec (.rwpush a) s = .next t
            ∧ (t.netCl s.here s.grain.launch).created = (s.netCl s.here s.grain.launch).created + 1#64
            ∧ ∃ e ∈ t.grain.pend, e.kind = .push (BitVec.ofNat 64 x) (BitVec.ofNat 64 y) (s.curCore.cycle + s.curCore.chanWatchdog.toNat)
              ∧ .longLatencyResult s.cur e.id ∈ t.agenda))
  ∧ ((∀ core s l q v node, node = l.nodeAddr (portCluster q) (portIndex q) → portBad s l q v = none →
    (bufferedStore (s.core core) l.ctx node 32).isSome = true → ∃ ask, exchange s core l q v = .wait ask)
  ∧ ∀ l s p d q n odd old s1, pendAt s l p.id = some p → p.kind = .net .pxchg (some d) q n odd →
    exchange s l.core (s.launch (s.grainAt l).launch) q.toNat n = .done old s1 → d.toNat < 10 →
    ∃ t, exec (.longLatencyResult l p.id) s = .next t ∧ (t.grainAt l).reg d.toNat = old ∧ t.mem = s1.mem
      ∧ (∀ e ∈ (t.grainAt l).pend, e.id ≠ p.id))

/-- R226, R227, R310: RWPOP takes a pair, reads both headers and goes to the handler of its rule with the portrefs and headers in g0 to
g3; a grain that holds a pair raises NET_PORT_INVALID; with no pair it waits; RWDONE waits while what a system release waits for is
undone, then writes the windows' lines back, counts the pair done and holds it no longer. -/
def Obligations.Pairs : Prop :=
  (∀ a s s0 l, s0 = s.issued (.rwpop a) → Issues (.rwpop a) a.gd (Touch.longOf [.g 0#4, .g 1#4, .g 2#4, .g 3#4]) s →
    l = s.launch s.grain.launch → l.net = true →
    (∀ x y, s.grain.pair = some (x, y) → exec (.rwpop a) s = .next (s.raise .netPortInvalid (portInfo x.toNat)))
    ∧ (s.grain.pair = none → l.popped.contains s.grain.ident = true →
        (s.grain.taken = none → searchPair s0 l s.grain.launch s.cur.core = none → l.finished = false →
          ∃ t, exec (.rwpop a) s = .next t ∧ t.grain.pc = s.grain.pc ∧ .stealRetryTimer s.cur ∈ t.agenda)
        ∧ ∀ x y s1 s2 s3 hx hy e,
            (s.grain.taken = some (x, y) ∧ s1 = s0) ∨ (s.grain.taken = none ∧ ∃ s', searchPair s0 l s.grain.launch s.cur.core = some ((x, y), s')
              ∧ s1 = s'.setGrain { s'.grain with taken := some (x, y) }) → (headerM l x).run s1 = .ok (hx, s2) →
            (headerM l y).run s2 = .ok (hy, s3) → e = ruleEntry s3 l s.here (agentOf hx) (agentOf hy) → agentOf hx < l.agents →
            agentOf hy < l.agents → e.testBit 31 = true → e / 2 ^ 28 % 4 = 0 →
            ∃ t, exec (.rwpop a) s = .next t ∧ t.grain.pair = some (x, y) ∧ t.grain.taken = none
              ∧ t.grain.pc = (l.entry &&& (0xFFF#64 <<< 52)) ||| BitVec.ofNat 64 (2 * (e % 2 ^ 28))
              ∧ (e.testBit 30 = false → t.grain.reg 0 = x ∧ t.grain.reg 1 = y ∧ t.grain.reg 2 = hx ∧ t.grain.reg 3 = hy)
              ∧ (e.testBit 30 = true → t.grain.reg 0 = y ∧ t.grain.reg 1 = x ∧ t.grain.reg 2 = hy ∧ t.grain.reg 3 = hx)
              ∧ ∀ n, 4 ≤ n → n < 10 → t.grain.reg n = s.grain.reg n))
  ∧ ∀ a s s0, s0 = s.issued (.rwdone a) → Issues (.rwdone a) a.gd (Touch.longOf []) s → (s.launch s.grain.launch).net = true →
      (s.grain.pair = none → exec (.rwdone a) s = .next (s.raise .netPortInvalid 0#64))
      ∧ (s.grain.pair ≠ none → (∀ p ∈ s.grain.pend, (∀ st d q n o, p.kind ≠ .net st d q n o) ∧ ∀ x y c, p.kind ≠ .push x y c) →
          (Unreleased s0 .system → exec (.rwdone a) s = .next (s.parkCur .release))
          ∧ (Released s0 .system → ∃ t, exec (.rwdone a) s = .next t ∧ t.grain.pair = none ∧ t.mem = (writeBack s0 s.here).mem
            ∧ (t.cluster s.here).overlay = [] ∧ (∀ x ∈ (t.cluster s.here).l2, isOutside (32 * x.addr) = true → x.dirty = false)
            ∧ (t.netCl s.here s.grain.launch).done = (s.netCl s.here s.grain.launch).done + 1#64))

/-! ### System instructions (R228-R236) -/

/-- R37, R229, R231, R232, R234, R236, R237: at grain level MRET, INVPG, INVPGR, PROTW, SPILL, FILL and HALT raise PRIVILEGE, and so do a
CRWR of any register but STAGGER_STEP and a CRRD of TRAP_CAUSE or TRAP_INFO; in monitor mode MCALL does. Nothing else happens. R37, R230:
CRRD gives each control register's value; CRWR of STAGGER_STEP writes the core's step, and in monitor mode CRWR writes the context, the
slice, the watchdog, the DET bit and the trap registers; a bit that is not listed raises RESERVED_FIELD. -/
def Obligations.PrivilegeAndControlRegisters : Prop :=
  ((∀ s, s.inMonitor = false →
    (∀ i : CtlArgs → Instr, i = .mret ∨ i = .halt → ∀ a, Issues (i a) a.gd (Touch.of []) s → exec (i a) s = .next (s.raise .privilege 0xFF#64))
    ∧ (∀ i : InvArgs → Instr, i = .invpg ∨ i = .invpgr → ∀ a, Issues (i a) a.gd (Touch.of (regRes a.a)) s →
        exec (i a) s = .next (s.raise .privilege 0xFF#64))
    ∧ (∀ i : CtlRegArgs → Instr, i = .spill ∨ i = .fill → ∀ a, Issues (i a) a.gd (Touch.of (regRes a.r)) s →
        exec (i a) s = .next (s.raise .privilege 0xFF#64))
    ∧ (∀ a, Issues (.protw a) a.gd (Touch.of (threeRegs a.f)) s → exec (.protw a) s = .next (s.raise .privilege 0xFF#64))
    ∧ (∀ a, (Instr.crwr a).wf = true → crIndex a.lo a.hi ≠ 2 → Issues (.crwr a) a.gd (Touch.of (regRes a.g)) s →
        exec (.crwr a) s = .next (s.raise .privilege (BitVec.ofNat 64 (crIndex a.lo a.hi))))
    ∧ ∀ a, crIndex a.lo a.hi = 7 ∨ crIndex a.lo a.hi = 8 → Issues (.crrd a) a.gd (Touch.of (regRes a.g)) s →
        exec (.crrd a) s = .next (s.raise .privilege (BitVec.ofNat 64 (crIndex a.lo a.hi))))
  ∧ ∀ a s, s.inMonitor = true → Issues (.mcall a) a.gd (Touch.of []) s → exec (.mcall a) s = .next (s.raise .privilege 0xFF#64))
  ∧ ((∀ a s n v, n = crIndex a.lo a.hi → Issues (.crrd a) a.gd (Touch.of (regRes a.g)) s →
    ((n = 0 ∧ v = s.grain.ctx.setWidth 64) ∨ (n = 1 ∧ v = BitVec.ofNat 64 (pageAddr s s.grain.launch s.cur.core)) ∨ (n = 2 ∧ v = s.curCore.staggerStep.setWidth 64) ∨ (n = 3 ∧ v = s.curCore.sliceCycles.setWidth 64)
      ∨ (n = 4 ∧ v = s.curCore.chanWatchdog.setWidth 64) ∨ (n = 5 ∧ v = if (s.launch s.grain.launch).detMode then 1#64 else 0#64)
      ∨ (n = 6 ∧ (s.launch s.grain.launch).reps.count ≤ 1 ∧ v = 0x11#64)
      ∨ (n = 7 ∧ s.inMonitor = true ∧ v = s.curCore.trapCause) ∨ (n = 8 ∧ s.inMonitor = true ∧ v = s.curCore.trapInfo)
      ∨ (n = 9 ∧ v = (s.launch s.grain.launch).reduceFlags.setWidth 64)) →
    EndsWith (.crrd a) s fun g => g.setReg a.g.toNat v)
  ∧ ∀ a s s0 n x, n = crIndex a.lo a.hi → s0 = s.issued (.crwr a) → x = s.grain.reg a.g.toNat →
      (Instr.crwr a).wf = true → Issues (.crwr a) a.gd (Touch.of (regRes a.g)) s → n = 2 ∨ s.inMonitor = true →
      (x &&& ~~~(crMask n) ≠ 0#64 → exec (.crwr a) s = .next (s.raise .reservedField (infoOfInstr (.crwr a))))
      ∧ (x &&& ~~~(crMask n) = 0#64 → ∃ t, exec (.crwr a) s = .next t ∧ t.mem = s.mem
          ∧ (n = 2 → t.curCore.staggerStep.setWidth 64 = x) ∧ (n = 3 → t.curCore.sliceCycles.setWidth 64 = x)
          ∧ (n = 4 → t.curCore.chanWatchdog.setWidth 64 = x) ∧ (n = 0 → t.grain.ctx.setWidth 64 = x)
          ∧ (n = 5 → (t.launch s.grain.launch).detMode = x.getLsbD 0) ∧ (n = 7 → t.curCore.trapCause = x) ∧ (n = 8 → t.curCore.trapInfo = x)))

/-- R31, R233: SEGSET and SEGLD write a descriptor that R31 admits, with its private bit set; with w in sg4 to sg7, a nonzero bit in a
zero field, or a home base plus limit above 2^38 they raise RESERVED_FIELD, and every segment register stays as it was. SEGGET gives the
three words. -/
def Obligations.Segments : Prop :=
  (∀ a s (d : Seg), Issues (.segset a) a.gd (Touch.of (threeRegs a.f)) s →
    d = ⟨s.grain.reg a.f.toNat, s.grain.reg (a.f.toNat + 1), s.grain.reg (a.f.toNat + 2)⟩ →
    (d.valid a.n.toNat = true → EndsWith (.segset a) s fun g => { g with sg := g.sg.set a.n.toFin d.setPriv })
    ∧ (d.valid a.n.toNat = false → exec (.segset a) s = .next (s.raise .reservedField (infoOfInstr (.segset a)))))
  ∧ (∀ (s : State) c info, (s.raise c info).grain.sg = s.grain.sg)
  ∧ (∀ (d : Seg) (n : BitVec 3), d.valid n.toNat = true ↔
      (4 ≤ n.toNat → d.w2.getLsbD 1 = false) ∧ d.w1.extractLsb' 52 12 = 0#12 ∧ (∀ j, 3 ≤ j → j ≠ 8 → d.w2.getLsbD j = false)
        ∧ (n.toNat < 4 → d.w0.extractLsb' 38 26 = 0#26 ∧ d.w0.toNat + (d.w1.extractLsb' 0 52).toNat ≤ 2 ^ 38))
  ∧ (∀ a s (d : Seg), Issues (.segget a) a.gd (Touch.of (threeRegs a.f)) s → d = s.grain.seg a.n.toNat →
      ∃ t, exec (.segget a) s = .next t ∧ t.grain.reg a.f.toNat = d.w0 ∧ t.grain.reg (a.f.toNat + 1) = d.w1
        ∧ t.grain.reg (a.f.toNat + 2) = d.w2 ∧ t.grain.sg = s.grain.sg)
  ∧ ∀ a s s0 p step acc bs s1 (d : Seg), s0 = s.issued (.segld a) → Issues (.segld a) a.gd (Touch.of (regRes a.a)) s →
      Points a.a [] plainFmts s0 p step → checkAcc s0 p (readSpec plainFmts 24 8) = .ok acc → (readM acc false).run s0 = .ok (bs, s1) →
      d = ⟨wordOf bs 0, wordOf bs 8, wordOf bs 16⟩ →
      (d.valid a.n.toNat = true → ∃ t, exec (.segld a) s = .next t ∧ t.grain.seg a.n.toNat = d.setPriv)
      ∧ (d.valid a.n.toNat = false → exec (.segld a) s = .next (s.raise .reservedField (infoOfInstr (.segld a))))

namespace Sys2Proof.Claims
/-- In `t` no TLB of a cluster or its die maps any of a page of a context, no L1 or instruction cache of its cores holds a line of the page, and
its L2 holds no line that a mapping of `s` put behind it (R231). -/
def PageGone (s t : State) (gid : Nat) (ctx : BitVec 12) (va size : Nat) : Prop :=
  (∀ e ∈ (t.cluster gid).tlb ++ (t.die (clusterDie gid)).tlb, e.ctx = ctx → e.cl = gid → overlaps e.base e.size va size = false)
  ∧ (∀ k < 16, (∀ y ∈ (t.core (gid * 32 + k)).l1, y.remote = none → y.ctx = ctx → overlaps y.addr 32 (gid * 2 ^ 38 + va) size = false)
      ∧ ∀ y ∈ (t.core (gid * 32 + k)).icache, y.ctx = ctx → overlaps (32 * y.addr) 32 (gid * 2 ^ 38 + va) size = false)
  ∧ ∀ e ∈ (s.cluster gid).tlb ++ (s.die (clusterDie gid)).tlb, e.ctx = ctx → e.cl = gid → overlaps e.base e.size va size = true →
      ∀ x ∈ (t.cluster gid).l2, e.behind va size x.addr = false
end Sys2Proof.Claims

/-- R229, R394: MCALL of a service that is offered saves the return PC and the segments, enters monitor mode at the prefect's entry with
the prefect's segments, and leaves g0 to g9; MRET restores both at grain level after the service, whose effects the model gives at it (its
choice, log 14); for the version it is in g0. R231, R232, R234 to R236 in monitor mode: INVPG and INVPGR invalidate their page, so that no
TLB of the cluster or its die maps it and no L1, instruction cache or L2 of the cluster holds a line of it, and complete once the rest is
done; PROTW writes its entry of the core's or the cluster's table; SPILL of an empty slot does nothing and of an idle grain empties its
slot into a slate; FILL puts a slate's grain back (what a slate holds is data beside its bytes, the model's choice, log 23); HALT takes
its slot from the pool; RDSIG gives the signature in every mode. -/
def Obligations.MonitorOperations : Prop :=
  ((∀ a s s0 svc s1, s0 = s.issued (.mcall a) → Issues (.mcall a) a.gd (Touch.of []) s → s.inMonitor = false → Quiet s0 →
    (svcM (.mcall a) a.svc.toNat).run s0 = .ok (svc, s1) →
    ∃ t, exec (.mcall a) s = .next t ∧ t.inMonitor = true ∧ t.grain.pc = Config.monitorEntry a.svc.toNat ∧ t.grain.sg = monitorSegs
      ∧ t.grain.g = s.grain.g ∧ (t.slotAt s.cur).msave = some { pc := s0.grain.pc, sg := s.grain.sg, call := s.grain.pc, svc })
  ∧ (∀ i n s, n = 0x00 ∨ n = 0x01 → ∃ svc, (svcM i n).run s = .ok (svc, s))
  ∧ (∀ a s, Issues (.mret a) a.gd (Touch.of []) s → s.inMonitor = true → ∀ m, (s.slotAt s.cur).msave = some m →
      (∀ s1, (runSvc m).run (s.issued (.mret a)) = .ok (true, s1) →
        ∃ t, exec (.mret a) s = .next t ∧ t.inMonitor = false ∧ t.grain.pc = m.pc ∧ t.grain.sg = m.sg ∧ t.grain.g = s1.grain.g)
      ∧ (m.svc = .version → ∃ t, exec (.mret a) s = .next t ∧ t.grain.reg 0 = (Config.prefectVersion &&& 0xFFFFFFFF#64) ∧ t.grain.pc = m.pc)))
  ∧ ((∀ i : InvArgs → Instr, i = .invpg ∨ i = .invpgr → ∀ a s x, Issues (i a) a.gd (Touch.of (regRes a.a)) s → s.inMonitor = true →
    x = (s.grain.reg a.a.toNat).toNat → x < 2 ^ 38 →
    (x % pageBytes a.size ≠ 0 → exec (i a) s = .next (s.raise .misaligned (s.grain.reg a.a.toNat)))
    ∧ (x % pageBytes a.size = 0 → 0x1000000000 ≤ x →
        ((s.slotAt s.cur).invDone = true → ∃ t, exec (i a) s = .next t ∧ t.grain.pc = (s.issued (i a)).grain.pc)
        ∧ ((s.slotAt s.cur).invDone = false → (s.cluster s.here).invWaits.any (fun o => o.who == .grain s.cur) = false →
            ∃ t, exec (i a) s = .next t ∧ .invpgCompletion (.grain s.cur) ∈ t.agenda ∧ t.grain.pc = s.grain.pc
              ∧ PageGone s t s.here s.grain.ctx x (pageBytes a.size))))
  ∧ (∀ a s w, Issues (.protw a) a.gd (Touch.of (threeRegs a.f)) s → s.inMonitor = true → w = s.grain.reg (a.f.toNat + 2) →
      (w &&& ~~~(0x3FFF7#64) ≠ 0#64 → exec (.protw a) s = .next (s.raise .reservedField (infoOfInstr (.protw a))))
      ∧ (w &&& ~~~(0x3FFF7#64) = 0#64 → ∀ p : Prot,
          p = { valid := w.getLsbD 17, base := s.grain.reg a.f.toNat,
                limit := ((s.grain.reg (a.f.toNat + 1)).extractLsb' 0 52).toNat, rights := w.extractLsb' 0 3, ctx := w.extractLsb' 4 12 } →
          (w.getLsbD 16 = false → admittedUnder (s.issued (.protw a)) s.curCore.prot[a.e.toFin] (some s.cur.core) = false →
            ∃ t, exec (.protw a) s = .next t ∧ t.curCore.prot = s.curCore.prot.set a.e.toFin p)
          ∧ (w.getLsbD 16 = true → admittedUnder (s.issued (.protw a)) (s.cluster s.here).prot[a.e.toFin] none = false →
              ∃ t, exec (.protw a) s = .next t ∧ (t.cluster s.here).prot = (s.cluster s.here).prot.set a.e.toFin p)))
  ∧ (∀ a s x slot, Issues (.spill a) a.gd (Touch.of (regRes a.r)) s → s.inMonitor = true → x = s.grain.reg a.r.toNat →
      x &&& ~~~(0x3FFFFFF81F#64) = 0#64 → x.getLsbD 4 = false → slot = (x.extractLsb' 0 4).toFin → slot ≠ s.cur.slot →
      (((s.issued (.spill a)).slotAt ⟨s.cur.core, slot⟩).st = .empty → exec (.spill a) s = .next (s.issued (.spill a)))
      ∧ (((s.issued (.spill a)).slotAt ⟨s.cur.core, slot⟩).occupied = true → evictable (s.issued (.spill a)) ⟨s.cur.core, slot⟩ = true →
          (s.issued (.spill a)).engineIdle s.cur.core = true → ((s.issued (.spill a)).grainAt ⟨s.cur.core, slot⟩).appendedPending = false →
          ∀ image s1, (writeSaveM (s.here * 2 ^ 38 + (x.toNat / 2048 * 2048) % 2 ^ 38) ((s.issued (.spill a)).grainAt ⟨s.cur.core, slot⟩).ctx 0
              (slateOfSlot (s.issued (.spill a)) ⟨s.cur.core, slot⟩)).run (s.issued (.spill a)) = .ok (image, s1) →
          ∃ t, exec (.spill a) s = .next t ∧ t.slotAt ⟨s.cur.core, slot⟩ = Slot.blank
            ∧ (PMap.get? (saveKey s.here (s.here * 2 ^ 38 + (x.toNat / 2048 * 2048) % 2 ^ 38)) (t.cluster s.here).slates).isSome = true))
  ∧ (∀ a s x slot key y, Issues (.fill a) a.gd (Touch.of (regRes a.r)) s → s.inMonitor = true → x = s.grain.reg a.r.toNat →
      x &&& ~~~(0x3FFFFFF81F#64) = 0#64 → x.getLsbD 4 = false → slot = (x.extractLsb' 0 4).toFin → slot ≠ s.cur.slot →
      ((s.issued (.fill a)).slotAt ⟨s.cur.core, slot⟩).st = .empty → (s.issued (.fill a)).engineIdle s.cur.core = true →
      key = saveKey s.here (s.here * 2 ^ 38 + (x.toNat / 2048 * 2048) % 2 ^ 38) →
      PMap.get? key (s.cluster s.here).slates = some y → y.weights = [] → tileFree s s.cur.core y = true →
      readOwner (s.issued (.fill a)) 0#12 (s.here * 2 ^ 38 + (x.toNat / 2048 * 2048) % 2 ^ 38) y.image.length = .value y.image →
      exec (.fill a) s = .next (restoreGrain (s.issued (.fill a)) ⟨s.cur.core, slot⟩ key y))
  ∧ (∀ a s, Issues (.halt a) a.gd (Touch.of []) s → s.inMonitor = true → Quiet (s.issued (.halt a)) →
      ∃ t, exec (.halt a) s = .next t ∧ (t.slotAt s.cur).st = .halted ∧ t.curCore.status = .closing)
  ∧ ∀ a s, Issues (.rdsig a) a.gd (Touch.of (regRes a.r)) s → EndsWith (.rdsig a) s fun g => g.setReg a.r.toNat s.grain.sig)
/-! ### Events of cores and grains -/

/-- R250: the barrel issue cycle advances the core's cycle counter and serves one slot, the first that may issue after the one served
last; no slot issues twice within 8 clk. R252, R253, R368, R378, R383: a slice that has expired while a grain of its class waits marks its
slot; a pre-emption spills a grain of a lower class than one that waits; a finished spill writes a slate of the pool, puts the grain in it
and its entry at the tail of the run queue; a finished fill puts its entry into the slot, ready; a walk enters its mapping in both TLBs,
or records the page as a fault. -/
def Obligations.BarrelAndSpills : Prop :=
  ((∀ k s, ∃ t, exec (.barrelIssueCycle k) s = .next t ∧ (t.core k).cycle = (s.core k).cycle + 1 ∧ t.mem = s.mem
    ∧ ∀ i, nextSlot s k = some i → t.cur = ⟨k, i⟩ ∧ (t.core k).served = i ∧ (t.slotAt ⟨k, i⟩).lastIssue = some ((s.core k).cycle + 1))
  ∧ (∀ k s i, nextSlot s k = some i → issuable s k i = true
      ∧ ∀ j : Fin 16, (j.val + 15 - (s.core k).served.val) % 16 < (i.val + 15 - (s.core k).served.val) % 16 → issuable s k j = false)
  ∧ ∀ k s i t, nextSlot s k = some i → ((s.core k).slots[i]).lastIssue = some t → t + 8 ≤ (s.core k).cycle + 1)
  ∧ ((∀ l s, (s.slotAt l).occupied = true → (s.slotAt l).expired = false →
    (s.slotAt l).sliceEnd ≤ (s.core l.core).cycle → queuedFor s l = true →
    exec (.sliceExpiry l) s
      = .next (engineNext (s.setSlot l { s.slotAt l with expired := true }) l.core))
  ∧ (∀ k s i, s.engineIdle k = true → preemptVictim s k = some i →
      (∃ e ∈ (s.core k).runQ, e.cls.toNat < (s.grainAt ⟨k, i⟩).cls.toNat ∧ evictable s ⟨k, i⟩ = true)
      ∧ ∃ t, exec (.priorityPreempt k) s = .next t ∧ (t.core k).spilling = some i ∧ (t.slotAt ⟨k, i⟩).st = .parked .slot
        ∧ .spillComplete ⟨k, i⟩ ∈ t.agenda)
  ∧ (∀ l s, (s.core l.core).spilling = some l.slot → (s.grainAt l).appendedPending = false →
      ∀ key u, key = poolKey s l.core → u = spillOut s l key →
      ((s.core l.core).runQ.length < 64 →
        exec (.spillComplete l) s = .next (engineNext (joinQueue u l.core
          [{ kind := .spilled key, cls := (s.grainAt l).cls, launch := (s.grainAt l).launch }]) l.core))
      ∧ (s.Inv → (u.core l.core).runQ = (s.core l.core).runQ ∧ u.slotAt l = Slot.blank
          ∧ (∃ x, PMap.get? key (u.cluster (coreCluster l.core)).slates = some x ∧ x.grain.pc = (s.grainAt l).pc
              ∧ x.grain.g = (s.grainAt l).g ∧ u.mem.bytes (poolPlace key) x.image.length = x.image)
          ∧ ∀ k, k < poolPlace key ∨ poolPlace key + 2048 ≤ k → u.mem.read k = s.mem.read k))
  ∧ (∀ l s e, (s.core l.core).filling = some (l.slot, e) → (s.core l.core).sliceCycles ≠ 0#32 →
      ((∃ rank, e.kind = .unstarted rank) ∨ (∃ g, e.kind = .arrived g)
        ∨ ∃ id x, e.kind = .spilled id ∧ PMap.get? id (s.cluster (coreCluster l.core)).slates = some x ∧ poolIntact s id x = true) →
      ∃ t, exec (.fillComplete l) s = .next t ∧ (t.slotAt l).st = .ready
        ∧ (∀ rank, e.kind = .unstarted rank →
            t.grainAt l = startGrain s e.launch ((s.launch e.launch).replicaOf l.core) rank)
        ∧ (∀ g, e.kind = .arrived g → t.grainAt l = g)
        ∧ ∀ id x, e.kind = .spilled id → PMap.get? id (s.cluster (coreCluster l.core)).slates = some x → t.grainAt l = x.grain)
  ∧ ∀ cl ctx (va : BitVec 38) s, translated va.toNat = true → ctx ≠ 0#12 → ctxLive s cl ctx = true →
      tlbLookup s ctx cl va.toNat = none → pageRecorded s ctx cl va.toNat = false →
      (∀ e n, walk s ctx cl va.toNat = .ok (e, n) → ∃ fs, exec (.tlbWalkComplete cl ctx va) s
          = .next (wakeWalkers (tlbFill (s.setCluster cl { s.cluster cl with faults := fs }) e))
        ∧ ∀ x ∈ (s.cluster cl).faults, x ∉ fs → x.idle = true ∧ x.ctx = ctx ∧ x.page = va.toNat / 4096)
      ∧ ∀ reason, walk s ctx cl va.toNat = .error reason → reason < 2 → pageEntries s ctx cl va.toNat = [] →
          exec (.tlbWalkComplete cl ctx va) s = .next (wakeWalkers (recordFault s cl ctx va.toNat 0 reason [])))

/-- R153, R155, R158, R273: a watch is compared at its owner port, which wakes it, takes it into its table of 256 or refuses it; a refused
one polls and tries again; a wake fires its watch; a barrier's release reaches a core of the group that completed first, which counts its
number in the group times its STAGGER_STEP and then resumes (R38). R161 to R163, R202, R225: an arriving flit, the oldest of its sender on
its way, joins its queue of 16, or waits while that is full; a SEND, an MACQ or a push that has waited for CHAN_WATCHDOG cycles ends in
CHANNEL_STALL or WATCHDOG, and none does before. -/
def Obligations.WatchesAndFlits : Prop :=
  ((∀ l r s g, grainOf s l = some g → (g.watches[r]).armed = true → (g.watches[r]).fired = false →
    (∀ p ∈ g.pend, p.kind ≠ .watch r) → s.reachable (g.watches[r]).addr = true →
    ((g.watches[r]).thr.toNat ≤ (seqValue s (g.watches[r]).addr).toNat →
      exec (.remoteWatchInsert l r) s = .next (s.due [.remoteWatchWake l r (seqValue s (g.watches[r]).addr)]))
    ∧ ((seqValue s (g.watches[r]).addr).toNat < (g.watches[r]).thr.toNat → ∀ rest,
        rest = (s.cluster ((g.watches[r]).addr / 2 ^ 38)).watchTab.filter (fun e => !(e.waiter == l && e.reg == r)) →
        (rest.length < 256 → ∃ t, exec (.remoteWatchInsert l r) s = .next t
          ∧ ({ addr := (g.watches[r]).addr, thr := (g.watches[r]).thr, waiter := l, reg := r, ctx := g.ctx, launch := g.launch }
              ∈ (t.cluster ((g.watches[r]).addr / 2 ^ 38)).watchTab))
        ∧ (256 ≤ rest.length → ∃ t g', exec (.remoteWatchInsert l r) s = .next t ∧ grainOf t l = some g'
            ∧ (g'.watches[r]).polling = true)))
  ∧ (∀ l r v s g, grainOf s l = some g → (g.watches[r]).armed = true →
      ((g.watches[r]).thr.toNat ≤ v.toNat →
        ∃ t g', exec (.remoteWatchWake l r v) s = .next t ∧ grainOf t l = some g' ∧ (g'.watches[r]).fired = true ∧ g'.g = g.g)
      ∧ (v.toNat < (g.watches[r]).thr.toNat → exec (.remoteWatchWake l r v) s = .next s))
  ∧ (∀ l r s g, grainOf s l = some g → (g.watches[r]).polling = true → exec (.watchPollTimer l r) s = .next (insertWatch s l r))
  ∧ ∀ h sc k s (b : BarGroup) (ready : BarGroup → Prop),
      (∀ x, ready x ↔ x ∈ (s.launch h).barriers ∧ x.sc = sc ∧ groupComplete (s.launch h) (x.unit % 4) x.sc (x.unit / 4) x.arrived = true
        ∧ k ∈ groupCores (s.launch h) (x.unit % 4) x.sc (x.unit / 4) ∧ k ∉ x.releasedTo) →
      ready b → (∀ x, ready x → b.epoch ≤ x.epoch) → (∀ x, ready x → x.epoch = b.epoch → x = b) →
      (PMap.get? k b.resumeAt = none → ∃ t i, exec (.barrierStaggerResume h sc k) s = .next t
        ∧ (groupCores (s.launch h) (b.unit % 4) b.sc (b.unit / 4))[i]? = some k
        ∧ { b with resumeAt := PMap.set k ((s.core k).cycle + i * (s.core k).staggerStep.toNat) b.resumeAt } ∈ (t.launch h).barriers
        ∧ .barrierStaggerResume h sc k ∈ t.agenda)
      ∧ ∀ n, PMap.get? k b.resumeAt = some n →
        ((s.core k).cycle < n → exec (.barrierStaggerResume h sc k) s = .next (s.due [.barrierStaggerResume h sc k]))
        ∧ (n ≤ (s.core k).cycle → ∃ t, exec (.barrierStaggerResume h sc k) s = .next t
          ∧ { b with releasedTo := b.releasedTo ++ [k] } ∈ (t.launch h).barriers
          ∧ ∀ x ∈ (s.launch h).barriers, ¬ ready x → x ∈ (t.launch h).barriers))
  ∧ ((∀ k (ch : BitVec 3) s, ((s.core k).chans[ch.toFin]).inFlight ≠ [] → ((s.core k).chans[ch.toFin]).waiting = [] →
    ∃ x ∈ ((s.core k).chans[ch.toFin]).inFlight, ((s.core k).chans[ch.toFin]).inFlight.find? (fun y => y.1.key == x.1.key) = some x ∧ ∃ t, exec (.channelFlitArrival k ch) s = .next t
      ∧ (((s.core k).chans[ch.toFin]).flits.length < 16 →
          ((t.core k).chans[ch.toFin]).flits = ((s.core k).chans[ch.toFin]).flits ++ [x.1]
          ∧ ((t.core k).chans[ch.toFin]).waiting = [])
      ∧ (16 ≤ ((s.core k).chans[ch.toFin]).flits.length →
          ((t.core k).chans[ch.toFin]).flits = ((s.core k).chans[ch.toFin]).flits ∧ ((t.core k).chans[ch.toFin]).waiting = [x]))
  ∧ (∀ l op s p core (ch : BitVec 3) n, pendAt s l op = some p → p.kind = .send core ch n → sendHeld s l op core ch = true →
      (n ≤ (s.core l.core).cycle →
        exec (.channelWatchdogExpiry l op) s
          = .next (s.faultAt l p.pc .channelStall (BitVec.ofNat 64 (ch.toNat + 8 * packed ⟨core, 0⟩))))
      ∧ ((s.core l.core).cycle < n → exec (.channelWatchdogExpiry l op) s = .next s))
  ∧ (∀ l s n, (s.grainAt l).tileWait = some n → (s.slotAt l).st = .parked .tile →
      (n + (s.core l.core).chanWatchdog.toNat ≤ (s.core l.core).cycle →
        exec (.macqWatchdogExpiry l) s = .next (s.raiseAt l .watchdog 0#64 false))
      ∧ ((s.core l.core).cycle < n + (s.core l.core).chanWatchdog.toNat → exec (.macqWatchdogExpiry l) s = .next s))
  ∧ ∀ l op s p n, pendAt s l op = some p → pushUntil p.kind = some n →
      (n ≤ (s.core l.core).cycle →
        exec (.bagPushWatchdogExpiry l op) s = .next (s.faultAt l p.pc .watchdog 1#64))
      ∧ ((s.core l.core).cycle < n → exec (.bagPushWatchdogExpiry l op) s = .next s))

/-- R146, R147: MIGR of a quiet grain whose stores are performed sends the grain to the core of its address with its PC, general registers
and predicate word; on its own core it has no further effect; a grain whose VDIRTY is 1 is refused, and one that might go to a lost
cluster raises PEER_LOST. R149: SPAWN, when what the grain did before is performed, sends a new grain to the core of its address, with its
PC from d, g0 the pointer, g1 the launch page of the target, g2 the creator's, and its class the launch's; a d whose bit 0 is set raises
MISALIGNED. R147, R149, R251, R254: a grain that arrives at a running core with an empty slot, and with room beside the grains that
granted launches are to start there, stands there, ready, a created one with its launch's page in g1; with 64 grains queued and no empty
slot the arrival is refused and tried again; a lost target is reported. -/
def Obligations.MovingWork : Prop :=
  (∀ a s, Issues (.migr a) a.gd (Touch.of (regRes a.a)) s → Quiet (s.issued (.migr a)) → s.storesPending s.cur = false →
    ∀ p step acc, Points a.a a.off allFmts (s.issued (.migr a)) p step → checkAcc (s.issued (.migr a)) p nameSpec = .ok acc →
      (vdirtyOf s.grain.pw = true → exec (.migr a) s = .next (s.raise .migrateDenied 0#64))
      ∧ (migrateDenied (s.issued (.migr a)) (targetCore acc.addr) = none → s.alive (acc.addr / 2 ^ 38) = false →
          exec (.migr a) s = .next (s.raise .peerLost (BitVec.ofNat 64 acc.addr)))
      ∧ (migrateDenied (s.issued (.migr a)) (targetCore acc.addr) = none → s.alive (acc.addr / 2 ^ 38) = true →
          (targetCore acc.addr = s.cur.core → exec (.migr a) s = .next (s.issued (.migr a)))
          ∧ (targetCore acc.addr ≠ s.cur.core →
              ∃ t q, exec (.migr a) s = .next t ∧ q ∈ (t.cluster s.here).packets ∧ q.target = targetCore acc.addr
                ∧ q.grain.pc = (s.issued (.migr a)).grain.pc ∧ q.grain.g = s.grain.g ∧ q.grain.pw = s.grain.pw
                ∧ .migrationArrival s.cur ∈ t.agenda)))
  ∧ (∀ a s, Issues (.spawn a) a.gd (Touch.longOf (regRes a.d ++ regRes a.a ++ [.g 2#4])) s →
    ∀ p step, Points a.a a.off allFmts (s.issued (.spawn a)) p step → ∀ e, e = s.grain.reg a.d.toNat →
      (e.getLsbD 0 = true → exec (.spawn a) s = .next (s.raise .misaligned (segInfo e)))
      ∧ (e.getLsbD 0 = false → ∀ acc, checkAcc (s.issued (.spawn a)) p nameSpec = .ok acc →
          outsideReplica (s.issued (.spawn a)) acc.addr = false → Performed s →
          ∃ t q, exec (.spawn a) s = .next t ∧ q ∈ (t.cluster s.here).packets ∧ q.target = targetCore acc.addr ∧ q.source = none
            ∧ q.grain.pc = 0x0800000000000000#64 ||| (e &&& 0x007FFFFFFFFFFFFF#64) ∧ q.grain.reg 0 = p
            ∧ q.grain.reg 1 = BitVec.ofNat 64 (pageAddr (s.issued (.spawn a)) s.grain.launch (targetCore acc.addr)) ∧ q.grain.reg 2 = s.grain.reg 2
            ∧ q.grain.cls = (s.launch s.grain.launch).cls ∧ (t.launch s.grain.launch).live = (s.launch s.grain.launch).live + 1
            ∧ .spawnArrival (targetCore acc.addr) ∈ t.agenda))
  ∧ ((∀ l s p, (s.cluster (coreCluster l.core)).packets.find? (fun p => p.source == some l) = some p →
    (targetAlive s p.target = false → exec (.migrationArrival l) s = .next (packetLost s (coreCluster l.core) p))
    ∧ (targetAlive s p.target = true → (s.core p.target).status = .running →
        (∀ i, (List.finRange 16).find? (fun i : Fin 16 => (s.core p.target).slots[i].st == .empty) = some i →
          (PMap.get? p.grain.launch (s.core p.target).partitions).isSome = true → p.target ≠ l.core →
          arrivalRoom s p.target = true → (s.core p.target).sliceCycles ≠ 0#32 → ∃ t, exec (.migrationArrival l) s = .next t ∧ t.grainAt ⟨p.target, i⟩ = p.grain ∧ (t.slotAt ⟨p.target, i⟩).st = .ready)
        ∧ ((∀ i : Fin 16, (s.core p.target).slots[i].st ≠ .empty) → 64 ≤ (s.core p.target).runQ.length →
          exec (.migrationArrival l) s = .next (s.due [.arrivalRetry p.target]))))
  ∧ ∀ k s (i : Instr) (b : Bool), (i, b) ∈ [(.spawnArrival k, true), (.arrivalRetry k, false)] →
      ∀ gid p, packetFor s k b = some (gid, p) → p.source = none →
      (targetAlive s p.target = false → exec i s = .next (packetLost s.ticked gid p))
      ∧ (targetAlive s p.target = true → (s.core p.target).status = .running →
          (∀ i', (List.finRange 16).find? (fun i : Fin 16 => (s.core p.target).slots[i].st == .empty) = some i' →
            (PMap.get? p.grain.launch (s.core p.target).partitions).isSome = true → arrivalRoom s p.target = true →
            ∃ t, exec i s = .next t
              ∧ t.grainAt ⟨p.target, i'⟩ = p.grain.setReg 1 (BitVec.ofNat 64 (pageAddr s p.grain.launch p.target)) ∧ (t.slotAt ⟨p.target, i'⟩).st = .ready)
          ∧ ((∀ i : Fin 16, (s.core p.target).slots[i].st ≠ .empty) → 64 ≤ (s.core p.target).runQ.length →
            exec i s = .next (s.ticked.due [.arrivalRetry p.target]))))

/-! ### Events of memory, engines and units -/

/-- R138, R139: a store whose address passes the checks of R33 enters the core's store buffer with the low bytes of its data, and is due
to be performed; STI has moved its pointer on; no byte of memory and no other register changes. A check that fails raises its cause. R140:
STREL makes a release at its scope and then its store: where nothing is waited for, the store enters the buffer. R139, R279, R287: the
oldest store of a slot, with no older store of its context to its bytes in the buffer, is performed: its bytes stand at the places of its
address, every other byte reads as before at its cluster, and it leaves the buffer; below the HBM window an address is its own place. -/
def Obligations.Stores : Prop :=
  (∀ q ∈ stores, ∀ a s x s1, Issues (q.1 a) a.gd (Touch.of (regRes a.s ++ regRes a.a)) s → Reads s.grain.pc a.s (s.issued (q.1 a)) x s1 →
    ∀ p step, Points a.a a.off loadFmts s1 p step → ∀ size, size = q.2.1.getD step →
      (∀ acc, checkAcc s1 p (writeSpec loadFmts size size) = .ok acc → Clear s.grain acc →
        ∃ t, exec (q.1 a) s = .next t ∧ t.mem = s.mem
          ∧ (∃ b ∈ t.curCore.buffer, b.addr = acc.addr ∧ b.bytes = leBytes size x.toNat ∧ b.slot = s.cur.slot ∧ b.pc = s.grain.pc
              ∧ b.alloc = q.2.2.2)
          ∧ .storePerformed s.cur ∈ t.agenda
          ∧ (∀ n, n < 10 → (q.2.2.1 = false ∨ n ≠ a.a.toNat) → t.grain.reg n = s.grain.reg n)
          ∧ (q.2.2.1 = true → a.a.toNat < 10 → t.grain.reg a.a.toNat = stepPtr (s.grain.reg a.a.toNat) 1 step))
      ∧ ∀ c info, checkAcc s1 p (writeSpec loadFmts size size) = .error (c, info) → exec (q.1 a) s = .next (s.raise c info))
  ∧ (∀ a s x s1, Issues (.strel a) a.gd (Touch.of (regRes a.s ++ regRes a.a)) s → Reads s.grain.pc a.s (s.issued (.strel a)) x s1 →
    ∀ p step acc, Points a.a a.off loadFmts s1 p step → checkAcc s1 p (writeSpec loadFmts step step) = .ok acc →
      Released s1 a.sc → Alone s1 → Clear s1.grain acc →
      exec (.strel a) s = .next (((s1.released a.sc).signed acc.addr 0 (leBytes step x.toNat)).buffered acc (leBytes step x.toNat) true
        s.grain.pc))
  ∧ ((∀ l s b rest ks, s.Inv → (s.core l.core).storesOf l.slot = b :: rest → engineHolds s b.ctx b.addr b.bytes.length = false →
    s.reachable b.addr = true → (∀ x ∈ (s.core l.core).buffer, x.id < b.id → x.ctx = b.ctx → overlaps x.addr x.bytes.length b.addr b.bytes.length = false) →
    placesOf s b.ctx b.addr b.bytes.length = .ok ks → ks.Nodup → (∀ k ∈ ks, isOutside k = false) →
    ∃ t, exec (.storePerformed l) s = .next t ∧ ks.map t.mem.read = b.bytes
      ∧ (∀ k, k ∉ ks → ownerByte t (b.addr / 2 ^ 38) k = ownerByte s (b.addr / 2 ^ 38) k)
      ∧ ∀ x ∈ (t.core l.core).buffer, x.id ≠ b.id)
  ∧ ∀ s ctx addr n, addr % 2 ^ 38 + n ≤ 0x1000000000 → placesOf s ctx addr n = .ok ((List.range n).map fun i => addr + i))

/-- R142, R148, R221, R255, R330, R407, R408: the bursar performs the first operation of its slot, which stays first while it has to wait;
a partner of a replicated launch computes its result from the old value it is sent, wherever it stands; the channel core takes in a held
update, applies the one at the head of its queue or passes it to the bursar, one from outside a replica once, and retires the far free at
the head of its own. -/
def Obligations.OwnerEvents : Prop :=
  (∀ d i s o rest l p r dst u gone, (s.die d).bursar[i] = o :: rest → o.loc = some l → pendAt s l o.id = some p →
    p.kind = .atomic r dst true none → performAtomic s l p r dst true (.bursarAtomic d i) = (u, gone) →
    (gone = false → exec (.bursarAtomic d i) s = .next u)
    ∧ (gone = true → ∃ t, exec (.bursarAtomic d i) s = .next t ∧ t.mem = u.mem ∧ t.cores = u.cores
        ∧ (t.die d).bursar[i] = ((u.die d).bursar[i]).drop 1))
  ∧ (∀ s l p r d x s1 again, r.tag = none → bursarApply s r = .done x s1 → performAtomic s l p r d true again = (answerAtomic s1 l p r d x, true))
  ∧ (∀ s l p r d s1 again, r.tag = none → bursarApply s r = .wait s1 → performAtomic s l p r d true again = (s1.dueOnce again, false))
  ∧ (∀ who op old s l g p r d at_ new ok fl, (s.launch who.launch).st = .running → who.replica ∈ (s.launch who.launch).reps.live →
      s.grainPlaces.find? (fun x => ((grainOf s x).map Grain.key) == some who) = some l → grainOf s l = some g →
      g.pend.find? (fun p => p.kind.tag == some op) = some p → p.kind = .atomic r d at_ none →
      r.apply (old.toNat % 2 ^ (8 * r.acc.size)) = (new, ok, fl) →
      exec (.externalAtomicResult who op old) s = .next (atomicDone s l p r d ⟨old, ok, fl⟩))
  ∧ (∀ cl s s0 u rest, s0 = admitUpdate s cl → (s0.cluster cl).updates = u :: rest → (s0.cluster cl).farFrees = [] →
      ((u.ext = false ∨ storedExt s0 cl u.req.launch u.ident 0 = none) →
        bufferedStore (s0.core u.from_.core) u.req.acc.ctx u.req.acc.addr u.req.acc.size = none → viaBursar s0 u.req = none →
        ∀ r s1, applyAtomic s0 u.req = .done r s1 →
        ∃ t, exec (.remoteUpdateApply cl) s = .next t ∧ t.mem = s1.mem ∧ (t.cluster cl).updates = rest
          ∧ (t.launch u.req.launch).reduceFlags = (s1.launch u.req.launch).reduceFlags ||| r.flags)
      ∧ (bufferedStore (s0.core u.from_.core) u.req.acc.ctx u.req.acc.addr u.req.acc.size = none → ∀ i, viaBursar s0 u.req = some i →
        (∀ o ∈ (s0.die (clusterDie cl)).bursar[i], o.upd ≠ some u) → ∃ t, exec (.remoteUpdateApply cl) s = .next t ∧ t.mem = s.mem
          ∧ (t.die (clusterDie cl)).bursar[i] = (s0.die (clusterDie cl)).bursar[i] ++ [{ req := u.req, loc := none, id := 0, upd := some u }]
          ∧ .bursarAtomic (clusterDie cl) i ∈ t.agenda ∧ (t.cluster cl).updates = u :: rest)
      ∧ (u.ext = true → (storedExt s0 cl u.req.launch u.ident 0).isSome = true →
        bufferedStore (s0.core u.from_.core) u.req.acc.ctx u.req.acc.addr u.req.acc.size = none → viaBursar s0 u.req = none →
        ∃ t, exec (.remoteUpdateApply cl) s = .next t ∧ t.mem = s.mem ∧ (t.cluster cl).updates = rest))
  ∧ ∀ cl s s0 f rest i a bs s1, s0 = admitUpdate s cl → (s0.cluster cl).updates = [] → (s0.cluster cl).farFrees = f :: rest →
      s0.alive cl = true → f.good = true → (s.launch f.launch).nodeAt f.addr = some i → a = (s.launch f.launch).nodeAddr cl i + 8 →
      (s.netCl cl f.launch).retire.length < 4096 → engineHolds s0 (s.launch f.launch).ctx a 8 = false →
      serveOwner s0 (s.launch f.launch).ctx a 8 = .value bs s1 → nodeFreed (s.netCl cl f.launch) i (wordOf bs 0) = false →
      ∃ t, exec (.remoteUpdateApply cl) s = .next t ∧ (t.cluster cl).farFrees = rest
        ∧ (t.netCl cl f.launch).retire = (s.netCl cl f.launch).retire
            ++ [{ index := i, stamp := (s.netCl cl f.launch).epoch, core := none }]

/-- R166 to R170: XPULL, after a release, and XFILL read their block, make their checks and put a command into the engine's queue; XSTAT
asks for the status of a block. R167 to R169, R171, R269, R276: the engine starts the next command, once a pull's combining window has
ended, while fewer than four run; a running command reads its next granule and writes it, or with none left releases and advances its
sequence word; a lost source fails it; a burst window that gathered one line fills that line, one that gathered more all eight lines of
its region. -/
def Obligations.CopyCommands : Prop :=
  ((∀ q : BlockArgs → Instr, ∀ pull, (q = .xpull ∧ pull = true) ∨ (q = .xfill ∧ pull = false) →
    ∀ a s, Issues (q a) a.gd (Touch.longOf (regRes a.a)) s → (pull = true → Released (s.issued (q a)) .system) →
      ∀ s0 p step bacc bs s1 s2 b, s0 = (if pull then writeBack (s.issued (q a)) s.here else s.issued (q a)) →
      Points a.a a.off plainFmts s0 p step → checkAcc s0 p blockSpec = .ok bacc → (readM bacc false).run s0 = .ok (bs, s1) → Alone s1 →
      s2 = (if pull then s1.setGrain { s1.grain with sig := 0#64 } else s1) → b = blockOf bs →
      ∀ dacc sacc qacc, checkAcc s2 b.dst (extentSpec (if b.len = 0 then 0 else (b.rows - 1) * ((b.len + 31) / 32 * 32) + b.len) true) = .ok dacc →
      (pull = true → checkAcc s2 b.src (extentSpec (if b.len = 0 then 0 else (b.rows - 1) * 32 * b.stride + b.len) false) = .ok sacc) →
      checkAcc s2 b.seq seqWrite = .ok qacc → translated qacc.addr = false → b.flags = 0 →
      (pull = true → b.stride ≠ 0 ∨ b.rows ≤ 1) → (pull = false → b.stride = 0) →
      s2.storesPending s.cur = false → Clear s2.grain { dacc with size := b.rows * ((b.len + 31) / 32 * 32) } →
      ∃ t x, exec (q a) s = .next t ∧ x ∈ (t.cluster s.here).cmds ∧ x.pull = pull ∧ x.block = bacc.addr ∧ x.dst = dacc.addr
        ∧ (pull = true → x.src = resolve s2 b.src) ∧ (pull = false → x.value = b.src) ∧ x.len = b.len ∧ x.rows = b.rows ∧ x.seq = qacc.addr
        ∧ .copyCommandStart s.here ∈ t.agenda ∧ ∃ e ∈ t.grain.pend, e.kind = .command x.id)
  ∧ ∀ a s, Issues (.xstat a) a.gd (Touch.longOf (regRes a.d ++ regRes a.a)) s → ∀ p step acc,
      Points a.a a.off plainFmts (s.issued (.xstat a)) p step → checkAcc (s.issued (.xstat a)) p (readSpec plainFmts 32 32) = .ok acc →
      Begins (.xstat a) s (s.issued (.xstat a)) (.xstat a.d acc.addr) (regRes a.d) a.la)
  ∧ ((∀ cl s s1 x, s1 = admitCmds s cl 64 → (s1.cluster cl).nextStart = some x → x.merged = none →
    (combining s1 x = true → exec (.copyCommandStart cl) s = .next (s1.dueOnce (.copyCommandStart cl)))
    ∧ (combining s1 x = false → (s1.cluster cl).runningCmds < 4 ∨ x.granules = 0 →
      ∃ t, exec (.copyCommandStart cl) s = .next t ∧ (∃ y ∈ (t.cluster cl).cmds, y.id = x.id ∧ y.st = .running)
        ∧ .copyCommandComplete cl x.id ∈ t.agenda)
    ∧ (combining s1 x = false → 4 ≤ (s1.cluster cl).runningCmds → x.granules ≠ 0 → exec (.copyCommandStart cl) s = .next s1))
  ∧ (∀ cl id s x key again, (s.cluster cl).cmds.find? (fun y => y.id == id) = some x → key = x.group → again = .copyCommandComplete cl key →
      ((∀ y ∈ (s.cluster cl).groupCmds key, y.left = 0) →
        exec (.copyCommandComplete cl id) s = .next (((s.cluster cl).groupCmds key).foldl (fun s y => endCmd s cl y) s))
      ∧ ((s.cluster cl).groupCmds key = [x] → x.left ≠ 0 → x.left ≤ x.granules →
        (x.buf = [] → ∀ i, i = x.granules - x.left →
          (∀ bs s1 s2 y s3, granuleBytes s x i = .value bs s1 → y = { x with buf := [some bs] } →
            s2 = (onCmd s1 cl x.id fun z => { z with buf := z.buf ++ [some bs] }).dueOnce again →
            ownedEarlier s2 y cl (x.dstOf i / 32) = false → writeGranule s2 cl y i (some bs) = .ok s3 →
            exec (.copyCommandComplete cl id) s
              = .next ((wakeWaiting (onCmd s3 cl x.id fun z => { z with left := z.left - 1, buf := [] }) .engineLine).dueOnce again))
          ∧ (∀ a, granuleBytes s x i = .fault .peerLost a →
            exec (.copyCommandComplete cl id) s
              = .next ((failCmd s cl x .peerLost (BitVec.ofNat 64 a) 3).dueOnce (.copyCommandStart cl))))
        ∧ (x.granules ≤ x.readTo → ∀ b rest i, x.buf = b :: rest → i = x.granules - x.left →
          ownedEarlier s x cl (x.dstOf i / 32) = false → ∀ s1, writeGranule s cl x i b = .ok s1 →
          exec (.copyCommandComplete cl id) s
            = .next ((wakeWaiting (onCmd s1 cl x.id fun z => { z with left := z.left - 1, buf := rest }) .engineLine).dueOnce again))))
  ∧ ∀ cl r s b s1, (s.cluster cl).bursts.find? (fun b => b.region == r) = some b →
      s1 = s.setCluster cl { s.cluster cl with bursts := (s.cluster cl).bursts.filter fun x => x.region != r } →
      (∀ i, b.lines = [i] → exec (.burstWindowClose cl r) s = .next (l2Fill s1 cl (r * 8 + i)))
      ∧ (2 ≤ b.lines.length → exec (.burstWindowClose cl r) s = .next ((List.range 8).foldl (fun s i => l2Fill s cl (r * 8 + i)) s1)))

/-- R210, R274, R275, R296, R298: the head of the array's queue starts in a clk its duty allows; an invalidated weight slot is valid again
with the image its source holds; an input unit fetches at least the next element of its pattern; an output unit writes the first line it
holds, in pattern order. -/
def Obligations.UnitEvents : Prop :=
  (∀ k s o rest, (s.core k).arrayQ = o :: rest → o.started = false → ((s.core k).wslot o.w).st = .valid →
    (arrayStep s k = true →
      exec (.mmaStart k) s = .next ((s.setCore k { s.core k with arrayQ := { o with started := true } :: rest }).due [.mmaComplete k]))
    ∧ (arrayStep s k = false → exec (.mmaStart k) s = .next (s.dueOnce (.mmaStart k))))
  ∧ (∀ k (w : Fin 8) s i rest x y bs s1, y = (s.core k).wslots[w] → y.st = .invalidated → y.reload = i :: rest →
      x = { y with source := y.sourceNow s ⟨k, i⟩ } → sourceAdmitted s k x = true →
      serveLoad s k x.ctx (x.source / 2 ^ 38) x.source x.length false false = .value bs s1 →
      ∃ t, exec (.weightSlotReload k w) s = .next t
        ∧ (t.core k).wslots[w] = { x with st := .valid, image := bs })
  ∧ (∀ l (n : Fin 4) s st bs s1, st = (s.grainAt l).streams[n] → (s.slotAt l).occupied = true → st.bound = true → st.output = false →
      st.walked < st.total → st.fetched.length < st.room → engineHolds s (s.grainAt l).ctx (st.elemAt s l st.walked) (etBytes st.fmt) = false →
      (∀ b ∈ (s.core l.core).storesOf l.slot, overlaps b.addr b.bytes.length (st.elemAt s l st.walked) (etBytes st.fmt) = false) →
      serveOwner s (s.grainAt l).ctx (st.elemAt s l st.walked) (etBytes st.fmt) = .value bs s1 →
      ∃ t xs, exec (.inputStreamFetch l n) s = .next t
        ∧ ((t.grainAt l).streams[n]).fetched
          = st.fetched ++ .value (extendTo (if etSigned st.fmt then .sign else .zero) (etBytes st.fmt) (leNat bs)) :: xs
        ∧ ((t.grainAt l).streams[n]).walked = st.walked + 1 + xs.length)
  ∧ ∀ l (n : Fin 4) s st s1, st = (s.grainAt l).streams[n] → (s.slotAt l).occupied = true → st.output = true → st.appended ≠ [] →
      engineHolds s (s.grainAt l).ctx (st.elemAddr (st.pos - st.appended.length) / 32 * 32) 32 = false →
      s.reachable (st.elemAddr (st.pos - st.appended.length)) = true →
      writeElems s (s.grainAt l).ctx st (st.pos - st.appended.length) (st.appended.take st.firstLine) = .ok s1 →
      ∃ t, exec (.outputStreamLineWrite l n) s = .next t ∧ t.mem = s1.mem
        ∧ ((t.grainAt l).streams[n]).appended = st.appended.drop st.firstLine

/-- R125, R327, R331: a RAND value becomes ready, at most one in 16 clk; a forwarded value is held for the count it was taken at, and a
comparison flit until the grain decides: equal classes and signatures proceed, one of three that differs is the minority, and any other
outcome is a mismatch. -/
def Obligations.ReplicaTraffic : Prop :=
  (∀ k v s, (∀ n, (s.core k).randAt = some n → n + 16 ≤ (s.core k).cycle) → (s.core k).randReady = none →
    ∃ t, exec (.randValueReady k v) s = .next t ∧ (t.core k).randReady = some v)
  ∧ (∀ k v s n, (s.core k).randAt = some n → (s.core k).cycle < n + 16 →
      exec (.randValueReady k v) s = .next (s.dueOnce (.randValueReady k v)))
  ∧ (∀ who l g n v s, s.grainPlaces.find? (fun x => ((grainOf s x).map Grain.key) == some who) = some l → grainOf s l = some g →
      exec (.forwardedValueArrival who n v) s = .next ((putGrain s l
        { g with forwarded := if g.ndCount ≤ n then PMap.set n v g.forwarded else g.forwarded }).wakeFrom .forwarded l))
  ∧ (∀ who l g f s, s.grainPlaces.find? (fun x => ((grainOf s x).map Grain.key) == some who) = some l → grainOf s l = some g →
      ∃ fs, exec (.replicaCompareFlit who f) s = .next ((putGrain s l { g with cmpFlits := fs }).wakeFrom .forwarded l)
        ∧ (∀ x ∈ g.cmpFlits, x ∈ fs) ∧ ∃ x ∈ fs, x.replica = f.replica ∧ x.ordinal = f.ordinal)
  ∧ ∀ a b c : Nat × Nat × Word, decide3 [a, b] = (if a.2 = b.2 then .proceed else .mismatch)
      ∧ (a.2 = b.2 → b.2 = c.2 → decide3 [a, b, c] = .proceed) ∧ (a.2 = b.2 → b.2 ≠ c.2 → decide3 [a, b, c] = .minority c.1)
      ∧ (a.2 = c.2 → a.2 ≠ b.2 → decide3 [a, b, c] = .minority b.1) ∧ (b.2 = c.2 → a.2 ≠ b.2 → decide3 [a, b, c] = .minority a.1)
      ∧ (a.2 ≠ b.2 → b.2 ≠ c.2 → a.2 ≠ c.2 → decide3 [a, b, c] = .mismatch)

/-! ### Events of net launches -/

/-- R308, R310, R314, R315, R317, R318: a pair record on its way reaches its cluster; a parked RWPOP looks again; a sweep ends the net
when two in a row found it quiet with equal counts, and an unquiet one starts over; a cluster adopts an epoch, and frees no node before
its time. -/
def Obligations.NetEvents : Prop :=
  (∀ cl s, ((∃ x ∈ pushesTo s cl, pushReady s x.1 x.2 = true) → ∃ x ∈ pushesTo s cl, pushReady s x.1 x.2 = true
      ∧ ∃ t, exec (.pairRecordArrival cl) s = .next t
        ∧ (t = serveResult s.ticked x.1 x.2 ∨ t = (serveResult s.ticked x.1 x.2).dueOnce (.pairRecordArrival cl)))
      ∧ ((∀ x ∈ pushesTo s cl, pushReady s x.1 x.2 = false) → exec (.pairRecordArrival cl) s = .next s))
  ∧ (∀ l s, (s.slotAt l).st = .parked .pair → ∃ t, exec (.stealRetryTimer l) s = .next t ∧ (t.slotAt l).st = .ready
      ∧ t.grainAt l = s.grainAt l)
  ∧ (∀ h s, (s.launch h).net = true → (s.launch h).st = .running → (s.launch h).finished = false →
      (sweepQuiet s (s.launch h) h = true →
        ((s.launch h).sweeps = [sweepCounts s (s.launch h) h] → ∃ t, exec (.netSweep h) s = .next t ∧ (t.launch h).finished = true
          ∧ (t.launch h).pairsDone = BitVec.ofNat 64 (sumBy Prod.snd (sweepCounts s (s.launch h) h)))
        ∧ ((s.launch h).sweeps ≠ [sweepCounts s (s.launch h) h] → ∃ t, exec (.netSweep h) s = .next t
          ∧ (t.launch h).finished = false ∧ (t.launch h).sweeps = [sweepCounts s (s.launch h) h]))
      ∧ (sweepQuiet s (s.launch h) h = false → ∃ t, exec (.netSweep h) s = .next t
          ∧ (t.launch h).finished = false ∧ (t.launch h).sweeps = []))
  ∧ (∀ s l h, sweepQuiet s l h = true → (∀ gid ∈ l.clusters, (s.netCl gid h).bagsEmpty = true) ∧ pairHeld s h = false
      ∧ ∀ k, k < l.total → k ∈ l.popped ∨ k * 4 ∈ l.exited)
  ∧ ∀ cl h e s, (s.launch h).net = true → (s.netCl cl h).epoch ≤ e → e ≤ (s.launch h).epoch →
      (∀ x ∈ (s.netCl cl h).retire.head?, e < x.stamp + 2) →
      ∃ t, exec (.epochAdopt cl h e) s = .next t ∧ (t.netCl cl h).epoch = e ∧ (t.netCl cl h).retire = (s.netCl cl h).retire ∧ t.mem = s.mem
/-! ### Events of queues and launches -/

/-- R361 to R363: a tail in range posts records and any other sets the error bit; enabling clears the queue's counts, and a record that is
still being read then counts as read; disabling stops it; a configuration write of any width but 8 bytes is discarded, and a ring base is
taken only while the queue is disabled. -/
def Obligations.QueueWrites : Prop :=
  (∀ n q v s x, (s.pkg n).up = true → x = s.queueAt n q →
    ((x.head.toNat ≤ v.toNat ∧ v.toNat ≤ x.head.toNat + x.size ∧ x.tail.toNat ≤ v.toNat) →
      ∃ t, exec (.queueTailWrite n q v) s = .next t ∧ t.queueAt n q = { x with tail := v } ∧ t.mem = s.mem)
    ∧ (¬(x.head.toNat ≤ v.toNat ∧ v.toNat ≤ x.head.toNat + x.size ∧ x.tail.toNat ≤ v.toNat) →
      exec (.queueTailWrite n q v) s = .next (s.setQueue n q { x with tailError := true })))
  ∧ (∀ n q s x, (s.pkg n).up = true → x = s.queueAt n q → x.enabled = false → x.bound = true → (s.ctxOf n x.ctx).valid = true →
      x.ctx ≠ 0#12 → 4 ≤ x.ringLog2.toNat → x.ringLog2.toNat ≤ 16 →
      (readingOf s x = none → exec (.queueEnable n q) s
        = .next (s.setQueue n q { x with enabled := true, tail := 0#64, head := 0#64, done := 0#64, tailError := false }))
      ∧ ∀ h, readingOf s x = some h → ∃ t, exec (.queueEnable n q) s = .next t
        ∧ t.queueAt n q = { x with enabled := true, tail := 0#64, head := 0#64, done := 0#64, tailError := false }
        ∧ (t.launch h).st = .reading ∧ (t.launch h).record = (s.launch h).record ∧ .launchPlace h ∈ t.agenda)
  ∧ (∀ n q s, (s.pkg n).up = true → exec (.queueDisable n q) s = .next (s.setQueue n q { s.queueAt n q with enabled := false }))
  ∧ ∀ n w s, (w.width ≠ 8 → exec (.configurationWrite n w) s = .next s)
      ∧ (w.width = 8 → w.bar2 = false → (s.pkg n).up = true → ∀ q : BitVec 16,
          (w.off = 32 * q.toNat → exec (.configurationWrite n w) s = exec (.queueTailWrite n q w.v) s)
          ∧ (w.off = 0x200000 + 64 * q.toNat →
              ((s.queueAt n q).enabled = false →
                exec (.configurationWrite n w) s = .next (s.setQueue n q { s.queueAt n q with ringBase := w.v }))
              ∧ ((s.queueAt n q).enabled = true → exec (.configurationWrite n w) s = .next s)))

/-- R364, R366, R369, R370, R373: the read of a posted record begins a launch of its own, and ends with each 8-byte word as it stood at
one of the two moments (the model's reading of R364, log 83), which moves head on; the launch is refused for the reason its parts give,
with several the first in the order of log 42, or waits with the hash of its code; a reserved launch starts with every grain of it
counted; a graph's node is dispatched once its predecessors completed, and given outcome 4 when one did not. -/
def Obligations.LaunchEvents : Prop :=
  (∀ n q s x, x = s.queueAt n q → (s.pkg n).up = true → x.enabled = true → x.idle = true → x.head.toNat < x.tail.toNat →
    ckHeld s n x.ctx = false →
    ∃ t, exec (.launchRecordRead n q) s = .next t ∧ t.queueAt n q = { x with running := some s.nextLaunch }
      ∧ (t.launch s.nextLaunch).st = .fetching ∧ (t.launch s.nextLaunch).seqNo = x.head.toNat
      ∧ (t.launch s.nextLaunch).record = s.hostRead n (x.ringBase.toNat + 512 * (x.head.toNat % x.size)) 512
      ∧ .launchRecordRead n q ∈ t.agenda)
  ∧ (∀ n q s x h, x = s.queueAt n q → (s.pkg n).up = true → x.running = some h → (s.launch h).st = .fetching →
      ∃ t, exec (.launchRecordRead n q) s = .next t ∧ t.queueAt n q = { x with head := x.head + 1#64 }
        ∧ (s.hostBad n (x.ringBase.toNat + 512 * (x.head.toNat % x.size)) 512 = true →
            (t.launch h).outcome = 2 ∧ (t.launch h).status = 4#64 ∧ .completionWrite h ∈ t.agenda)
        ∧ (s.hostBad n (x.ringBase.toNat + 512 * (x.head.toNat % x.size)) 512 = false →
            (t.launch h).st = .reading ∧ (t.launch h).seqNo = (s.launch h).seqNo ∧ .launchPlace h ∈ t.agenda
            ∧ ∀ j, j < 64 → (s.launch h).record.length = 512 →
                ((t.launch h).record.drop (8 * j)).take 8 = ((s.launch h).record.drop (8 * j)).take 8
                ∨ ((t.launch h).record.drop (8 * j)).take 8
                  = s.hostRead n (x.ringBase.toNat + 512 * (x.head.toNat % x.size) + 8 * j) 8))
  ∧ (∀ h s l d s', s' = headTouch s h l.code 1024 → l = s.launch h → l.st = .reading → (l.graphNode.isSome = true ∨ fieldOf l.record 2 2 / 16 % 2 = 0) →
      fieldOf l.record 2 2 / 8 % 2 = 0 → readHead s h l.code 1024 (.launchPlace h) = .value d →
      (∀ r, refusalOf s' { describe l l.record d with origins := [] } l.record d = some r → ∃ t, exec (.launchPlace h) s = .next t
        ∧ (t.launch h).st = .ended ∧ (t.launch h).outcome = 2 ∧ (t.launch h).status = BitVec.ofNat 64 r
        ∧ .completionWrite h ∈ t.agenda)
      ∧ (refusalOf s' { describe l l.record d with origins := [] } l.record d = none → ∀ obj,
          readHead s' h l.code (describe l l.record d).objectLen (.launchPlace h) = .value obj →
          (describe l l.record d).code = l.code → ∃ t, exec (.launchPlace h) s = .next t ∧ (t.launch h).st = .waiting
            ∧ (t.launch h).hCode = sha384 obj ∧ (t.launch h).cls = (describe l l.record d).cls))
  ∧ (∀ h s l args, l = s.launch h → l.st = .granted → l.net = false →
      readHead s h (pointerAt l 0 l.args).1 (min 4096 (pointerAt l 0 l.args).2) (.launchPlace h) = .value args →
      ∃ t, exec (.launchPlace h) s = .next t ∧ (t.launch h).st = .running ∧ (t.launch h).live = l.total * l.reps.count
        ∧ (t.launch h).hArgs = sha384 args)
  ∧ (∀ n c s, (s.pkg n).up = true → classPlaceable s n c = true →
      ((∀ b : BitVec 2, b.toNat < c.toNat → classPlaceable s n b = false) →
        exec (.schedulerRound n c) s = .next (dueRounds ((contextsOf s n c).foldl (serveContext n c) s) n))
      ∧ (∀ b : BitVec 2, b.toNat < c.toNat → classPlaceable s n b = true → exec (.schedulerRound n c) s = .next s))
  ∧ ∀ n (q : BitVec 16) j s g, graphOf s n q.toNat = some g → g.ready j = true → (s.queueAt n q).graph = some g.seqNo →
      ((∀ k ∈ g.preds j, (g.nodes.getD k .waiting).outcome = some 0) → ∃ t, exec (.graphNodeDispatch n q j) s = .next t
        ∧ (t.launch s.nextLaunch).st = .reading ∧ (t.launch s.nextLaunch).graphNode = some j ∧ .launchPlace s.nextLaunch ∈ t.agenda)
      ∧ (∀ k ∈ g.preds j, (g.nodes.getD k .waiting).outcome ≠ some 0 → ∃ t, exec (.graphNodeDispatch n q j) s = .next t
        ∧ (t.launch s.nextLaunch).st = .ended ∧ (t.launch s.nextLaunch).outcome = 4 ∧ .completionWrite s.nextLaunch ∈ t.agenda)

/-- R258 to R260, R371, R372, R396, R397: the first fault report ends its launch and keeps its cause, of those of one clk that of the
lowest rank, and later ones are counted; a stop leaves the core nothing of the launch to run; a launch without grains, updates and
commands is complete; its record is written after those of its context that were ready before it, the chain advances and done counts it;
an abort ends what the queue runs. -/
def Obligations.LaunchEnds : Prop :=
  (∀ n s, (s.pkg n).reports ≠ [] → ∃ r ∈ (s.pkg n).reports,
    (∀ x ∈ (s.pkg n).reports, x.launch = r.launch → x.cycle = r.cycle → r.rank.toNat ≤ x.rank.toNat) ∧ ∃ t, exec (.faultReport n) s = .next t
    ∧ ((s.launch r.launch).st = .running → (t.launch r.launch).outcome = 1 ∧ (t.launch r.launch).report = some r
        ∧ ((t.launch r.launch).st = .stopping ∨ (t.launch r.launch).st = .ended))
    ∧ ((s.launch r.launch).st = .stopping ∨ (s.launch r.launch).st = .ended → (t.launch r.launch).report = (s.launch r.launch).report
        ∧ (t.launch r.launch).more = min 127 ((s.launch r.launch).more + 1)))
  ∧ (∀ h k s, (s.launch h).st = .stopping → k ∈ (s.launch h).stops → ∃ t, exec (.launchStopAtCore h k) s = .next t
      ∧ (∀ i, (t.slotAt ⟨k, i⟩).occupied = true → (t.grainAt ⟨k, i⟩).launch ≠ h)
      ∧ ∀ e ∈ (t.core k).runQ, e.launch ≠ h)
  ∧ (∀ h s, (s.launch h).st = .running → (s.launch h).live = 0 → (s.launch h).cores ≠ [] →
      ((s.launch h).net = true → (s.launch h).finished = true) →
      (∀ e ∈ s.clusters, (∀ u ∈ e.2.allUpdates, u.req.launch ≠ h) ∧ (∀ p ∈ e.2.packets, p.grain.launch ≠ h)
        ∧ (∀ c ∈ e.2.cmds, c.launch = h → c.st = .done) ∧ ∀ f ∈ e.2.farFrees, f.launch ≠ h) →
      ∃ t, exec (.launchComplete h) s = .next t ∧ (t.launch h).st = .ended ∧ (t.launch h).outcome = (s.launch h).outcome
        ∧ .completionWrite h ∈ t.agenda)
  ∧ (∀ h s l, l = s.launch h → l.st = .ended → (s.pkg l.node).failed = false → l.graphNode = none → (l.outcome = 2 ∨ l.outcome = 4) →
      recordFirst s l = true → ∃ t, exec (.completionWrite h) s = .next t ∧ (t.launch h).st = .done
        ∧ (t.queueAt l.node (BitVec.ofNat 16 l.queue)).done = BitVec.ofNat 64 (l.seqNo + 1)
        ∧ (t.queueAt l.node (BitVec.ofNat 16 l.queue)).running = none
        ∧ (t.ctxOf l.node l.ctx).chain = chainNext (s.ctxOf l.node l.ctx).chain l (sha384 []) (sha384 []) (sha384 [])
        ∧ (s.Inv → ∀ x, x = s.queueAt l.node (BitVec.ofNat 16 l.queue) →
            t.hostRead l.node (x.compBase.toNat + 512 * (l.seqNo % x.size)) 8 = leBytes 8 l.seqNo))
  ∧ (∀ h s l e, l = s.launch h → e ∈ s.launches → e.2.st = .ended → e.2.node = l.node → e.2.ctx = l.ctx → e.2.ready < l.ready →
      exec (.completionWrite h) s = .next s)
  ∧ ∀ n q s h, (s.pkg n).up = true → (s.queueAt n q).graph = none → (s.queueAt n q).running = some h →
      ((s.launch h).st = .fetching ∨ (s.launch h).st = .reading ∨ (s.launch h).st = .waiting ∨ (s.launch h).st = .granted →
        ∃ t, exec (.queueAbort n q) s = .next t ∧ (t.launch h).st = .ended ∧ (t.launch h).outcome = 3 ∧ .completionWrite h ∈ t.agenda)
      ∧ ((s.launch h).st = .running → ∃ t, exec (.queueAbort n q) s = .next t ∧ (t.launch h).outcome = 3
          ∧ ((t.launch h).st = .stopping ∨ (t.launch h).st = .ended))

/-! ### Events of contexts -/

/-- R231, R375, R376, R380, R432: a context's commands. Create makes it live with its first chain value, or in error; destroy ends its
launches, and the migration under way with no completion of its own (R381, log 87), and then frees it; invalidate and migrate start at the
cluster the command names; before boot ends each completes with reason 8. R379 to R381: the first pass copies every sub-page, the final
pass those written meanwhile, writes the leaf and ends the migration with reason 0; a destination that does not answer ends it with reason
5, a poisoned granule with reason 6 and a lost cluster with reason 7; a write to fault_head is taken; a resolve wakes or fails the page's
requests, or records the page again. -/
def Obligations.ContextCommands : Prop :=
  ((∀ i : Nat → BitVec 12 → Instr, ∀ cmd : BitVec 3,
    (i, cmd) ∈ [(.contextCreate, 1#3), (.contextDestroy, 2#3), (.contextInvalidate, 3#3), (.contextMigrate, 4#3)] →
    ∀ n c s, commandTaken s n c cmd = true → (s.pkg n).boot ≠ 7 → exec (i n c) s = .next (commandDone s n c cmd (s.ctxOf n c).st 8))
  ∧ (∀ n c s x, x = s.ctxOf n c → commandTaken s n c 1#3 = true → (s.pkg n).boot = 7 → (x.st = .free ∨ x.st = .error) →
      (x.inRange = true → ∃ t, exec (.contextCreate n c) s = .next t ∧ (t.ctxOf n c).st = .live ∧ (t.ctxOf n c).reason = 0
        ∧ (t.ctxOf n c).chain = sha384 x.blockBytes)
      ∧ (x.inRange = false → ∃ t, exec (.contextCreate n c) s = .next t ∧ (t.ctxOf n c).st = .error ∧ (t.ctxOf n c).reason = 1))
  ∧ (∀ n c s, commandTaken s n c 2#3 = true → (s.pkg n).boot = 7 → (s.ctxOf n c).st = .live ∨ (s.ctxOf n c).moving = true →
      ∃ t, exec (.contextDestroy n c) s = .next t ∧ (t.ctxOf n c).st = .busy ∧ (t.ctxOf n c).lastCmd = 2#3 ∧ (t.ctxOf n c).migrating = none
        ∧ (∀ gid, (s.ctxOf n c).migrating = some gid → (t.cluster gid).move = none) ∧ .contextDestroy n c ∈ t.agenda)
  ∧ (∀ n c s, (s.ctxOf n c).st = .busy → (s.ctxOf n c).lastCmd = 2#3 →
      (ctxBusy s n c = true → exec (.contextDestroy n c) s = .next s)
      ∧ (ctxBusy s n c = false → ∃ t, exec (.contextDestroy n c) s = .next t ∧ (t.ctxOf n c).st = .free ∧ (t.ctxOf n c).dataKey = none))
  ∧ (∀ n c s x, x = s.ctxOf n c → commandTaken s n c 3#3 = true → (s.pkg n).boot = 7 → x.st = .live →
      (∀ gid va size, opTarget n x = some (gid, va, size) → va % size = 0 → translated va = true →
        exec (.contextInvalidate n c) s = .next (startInv (s.setCtx n c { x with st := .busy, lastCmd := 3#3 }) gid
          { who := .command n c, ctx := c, va, size, reassign := x.opAddr.getLsbD 50, leases := false, since := 0 }))
      ∧ (opTarget n x = none → exec (.contextInvalidate n c) s = .next (commandDone s n c 3#3 .live 2)
          ∧ exec (.contextMigrate n c) s = .next (commandDone s n c 4#3 .live 3))
      ∧ ∀ gid va size e key, opTarget n x = some (gid, va, size) → size ≤ 2 ^ 21 → x.opArg.toNat % 2 = 1 →
          leafOk x.opArg.toNat (log2Size size) = true → va % size = 0 → translated va = true → walk s c gid va = .ok (e, key) →
          e.size = size → s.alive gid = true → (s.cluster gid).move = none →
          ∃ t, exec (.contextMigrate n c) s = .next t ∧ (t.ctxOf n c).st = .busy ∧ (t.ctxOf n c).migrating = some gid
            ∧ (t.cluster gid).move = some { ctx := c, va, size, leafKey := key, newLeaf := x.opArg, oldSpace := e.space, oldPhys := e.phys,
                                            dirty := [], final := false }
            ∧ .migrationFirstPassDone n c ∈ t.agenda)
  ∧ ∀ w s gid o, invOf s w = some (gid, o) →
      ((o.reassign = false ∨ (o.leases = true ∧ o.since + 65536 ≤ (s.core (gid * 32)).cycle)) →
        exec (.invpgCompletion w) s = .next (invDone s gid o))
      ∧ (o.reassign = true → o.leases = true → (s.core (gid * 32)).cycle < o.since + 65536 →
          exec (.invpgCompletion w) s = .next (s.dueOnce (.invpgCompletion w))))
  ∧ ((∀ n c s gid m, moveOf s n c = some (gid, m) →
    (m.final = false → s.alive gid = true → (∃ i, i < m.size / 4096 ∧ subAnswers s gid m i = false) →
      exec (.migrationFirstPassDone n c) s = .next (endMove s.ticked n c 5))
    ∧ (m.final = true → s.alive gid = true → (∃ i ∈ m.dirty, subAnswers s gid m i = false) →
      exec (.migrationFinalPassDone n c) s = .next (endMove s.ticked n c 5))
    ∧ (m.final = false → s.alive gid = true → (∀ i, i < m.size / 4096 → subAnswers s gid m i = true) →
      ((∀ i, i < m.size / 4096 → subPoisoned s gid m i = false) → ∀ s1, s1 = (List.range (m.size / 4096)).foldl (copySub gid m) s →
        exec (.migrationFirstPassDone n c) s
          = .next ((s1.setCluster gid { s1.cluster gid with move := some { m with final := true } }).due [.migrationFinalPassDone n c]))
      ∧ ∀ i, i < m.size / 4096 → subPoisoned s gid m i = true → exec (.migrationFirstPassDone n c) s = .next (endMove s n c 6))
    ∧ (m.final = true → s.alive gid = true → (∀ i ∈ m.dirty, subAnswers s gid m i = true) → (∀ i ∈ m.dirty, subPoisoned s gid m i = false) →
        exec (.migrationFinalPassDone n c) s = .next (endMove (invalidatePage (writePlaces (m.dirty.foldl (copySub gid m) s) gid
          ((List.range 8).map fun i => (m.leafKey + i, (leBytes 8 m.newLeaf.toNat).getD i 0#8))) gid c m.va m.size) n c 0))
    ∧ (s.alive gid = false → (m.final = false → exec (.migrationFirstPassDone n c) s = .next (endMove s n c 7))
        ∧ (m.final = true → exec (.migrationFinalPassDone n c) s = .next (endMove s n c 7))))
  ∧ (∀ n c v s, (s.pkg n).up = true → c ≠ 0#12 → ∃ t, exec (.faultHeadWrite n c v) s = .next t ∧ (t.ctxOf n c).faultHead = v)
  ∧ ∀ n c (k : BitVec 16) s gid e, (s.pkg n).up = true → c ≠ 0#12 → k.toNat / 32 < 384 → gid = clusterOfIndex n (k.toNat / 32) →
      (s.cluster gid).faults.find? (fun e => e.idx == k.toNat % 32 && e.ctx == c && e.recorded) = some e →
      exec (.faultResolve n c k true) s = .next (closeFault s gid e true)
      ∧ (∀ x a, walk s c gid e.addr = .ok (x, a) → exec (.faultResolve n c k false) s = .next (closeFault (tlbFill s x) gid e false))
      ∧ ∀ r, walk s c gid e.addr = .error r → (r < 2 → exec (.faultResolve n c k false) s = .next (recordAgain s gid e r))
        ∧ (2 ≤ r → exec (.faultResolve n c k false) s = .next (closeFault s gid e false)))

/-- R426, R429: a take with a stale epoch ends with reason 1, and one in order stops the context's launches; the pull starts when none
runs and completes with the manifest, the new epoch and reason 0; a restore brings segments and manifest back and ends with reason 0, with
reason 5 where a piece is lost or fails its check, and with reason 4 where a failed die or package has no spare; it waits for the fill of
the repaired unit to begin. -/
def Obligations.Checkpoints : Prop :=
  (∀ n c s x, x = ckOf s n c → (s.pkg n).up = true → x.st = .idle → (s.ctxOf n c).valid = true → c ≠ 0#12 →
    (x.epoch.toNat ≤ x.lastEpoch.toNat → ∃ t, exec (.checkpointTake n c) s = .next t ∧ (ckOf t n c).st = .idle ∧ (ckOf t n c).reason = 1)
    ∧ (x.lastEpoch.toNat < x.epoch.toNat → ∀ list, ckList (setCk s n c { x with lastCmd := 1#2 }) n c (.checkpointTake n c) = .ok list →
        (s.ctxOf n c).ckKey.isSome = true →
        ∃ t, exec (.checkpointTake n c) s = .next t ∧ (ckOf t n c).st = .stopping ∧ .checkpointPullStart n c ∈ t.agenda))
  ∧ (∀ n c s, (ckOf s n c).st = .stopping → ctxRuns s n c = false → ∃ t us, exec (.checkpointPullStart n c) s = .next t
      ∧ (ckOf t n c).st = .pulling ∧ .checkpointComplete n c us ∈ t.agenda)
  ∧ (∀ n c us s s0 list s1 s2, (ckOf s n c).st = .pulling → s0 = setCk s n c { ckOf s n c with stopUs := us } →
      ckList s0 n c (.checkpointComplete n c us) = .ok list →
      pullSegments n c (ckSegs list) (.checkpointComplete n c us) (ckSegs list).zipIdx s0 = .ok s1 →
      pullManifests s1 n c list (.checkpointComplete n c us) = .ok s2 →
      ∃ t, exec (.checkpointComplete n c us) s = .next t ∧ (ckOf t n c).st = .idle ∧ (ckOf t n c).reason = 0
        ∧ (ckOf t n c).lastEpoch = (ckOf s n c).epoch ∧ t.mem = s2.mem)
  ∧ ∀ n c s s0 list, (s.pkg n).up = true → c ≠ 0#12 → (s.ctxOf n c).valid = true → (ckOf s n c).st = .idle → ctxRuns s n c = false →
      s0 = setCk s n c { ckOf s n c with st := .restoring, lastCmd := 2#2 } →
      (noSpareLeft s0 n c = true → exec (.checkpointRestore n c) s = .next (restoreEnd s0 n c 4))
      ∧ (noSpareLeft s0 n c = false → fillWaits s0 n c = true → exec (.checkpointRestore n c) s = .next s0)
      ∧ (noSpareLeft s0 n c = false → fillWaits s0 n c = false → ckList s0 n c (.checkpointRestore n c) = .ok list →
      ∃ t, exec (.checkpointRestore n c) s = .next t ∧ match restoreSegments n c (ckSegs list) (ckSegs list).zipIdx s0 with
        | .fail s1 => t = restoreEnd s1 n c 5
        | .wait s1 => t = s1
        | .ok s1 => match ckPiece s1 n c (ckSegs list) (((ckSegs list).head?.map CkSeg.die).getD 0) 0 512
            (openManifest (ckOf s1 n c) ((s1.ctxOf n c).ckKey.getD 0#256) c) with
          | .wait s2 => t = s2
          | .bad => t = restoreEnd s1 n c 5
          | .ok _ => (ckOf t n c).st = .idle ∧ (ckOf t n c).reason = 0 ∧ t.mem = s1.mem)
/-! ### Events of failures, repairs, the fabric and the head -/

/-- The spares of a die that serve, or that a failed cluster of it awaits (R421). -/
def sparesTaken (s : State) (d : Nat) : Nat :=
  (s.die d).sparesUsed + ((unitClusters (.die d)).filter fun g => (s.cluster g).status == .failed).length

/-- R416, R418, R420, R421: a unit found failed is fenced; with no spare left its failure is the larger unit's; a core that hears of a
loss knows the unit from then on. R236, R420 to R423, R431: site 17 takes a failed core's number with a scratchpad of zeros; a spare takes
a failed cluster's number; every package learns of an alias; a quarantined cluster that passes its test returns to service; one repaired
unit fills at a time; a closed core without grains is reset and returns. -/
def Obligations.FailuresAndRepairs : Prop :=
  ((∀ k s, (s.core k).status ≠ .failed → (s.cluster (coreCluster k)).status ≠ .failed →
    ((s.cluster (coreCluster k)).site17 = none → (s.cluster (coreCluster k)).failedCores = [] →
        ∃ t, exec (.coreFailureDetected k) s = .next t ∧ (t.core k).status = .failed)
    ∧ (((s.cluster (coreCluster k)).site17.isSome = true ∨ (s.cluster (coreCluster k)).failedCores ≠ []) →
        exec (.coreFailureDetected k) s = exec (.clusterFailureDetected (coreCluster k)) s))
  ∧ (∀ g s, (s.cluster g).status ≠ .failed → g % 128 < 96 →
      (sparesTaken s (clusterDie g) < 4 → ∃ t, exec (.clusterFailureDetected g) s = .next t ∧ (t.cluster g).status = .failed)
      ∧ (4 ≤ sparesTaken s (clusterDie g) → exec (.clusterFailureDetected g) s = exec (.dieFailureDetected (clusterDie g)) s))
  ∧ (∀ d s g, g ∈ unitClusters (.die d) → (s.cluster g).status ≠ .failed →
      ∃ t, exec (.dieFailureDetected d) s = .next t ∧ ∀ x ∈ unitClusters (.die d), (t.cluster x).status = .failed)
  ∧ (∀ n s, (s.pkg n).failed = false → n ∈ s.present → ∃ t, exec (.packageFailureDetected n) s = .next t ∧ (t.pkg n).failed = true)
  ∧ ∀ k u s, (s.core k).status ≠ .failed → ∃ t, exec (.lossDeclaration k u) s = .next t ∧ u ∈ (t.core k).lost)
  ∧ ((∀ k s, k < 2 ^ 31 → s.Inv → (s.core k).status = .failed → (s.cluster (coreCluster k)).status = .enabled →
    (s.cluster (coreCluster k)).site17 = none →
    ∃ t, exec (.coreRepair k) s = .next t ∧ (t.core k).status = .running ∧ (t.cluster (coreCluster k)).site17 = some (coreIndex k)
      ∧ ∀ i, i < 98304 → t.mem.read (coreCluster k * 2 ^ 38 + coreIndex k * 0x20000 + i) = 0#8)
  ∧ (∀ g s, (s.cluster g).status = .failed → (s.die (clusterDie g)).sparesUsed < 4 → (s.pkg (clusterNode g)).failed = false →
      ∃ t, exec (.clusterRepair g) s = .next t ∧ (t.cluster g).status = .enabled
        ∧ (t.die (clusterDie g)).sparesUsed = (s.die (clusterDie g)).sparesUsed + 1
        ∧ ∀ i, i < 17 → (t.core (g * 32 + i)).status = .running)
  ∧ (∀ f n s, n ∈ s.present → (s.pkg n).failed = false →
      (∀ m ∈ s.present, (s.pkg m).aliases.length < 256 ∨ (PMap.get? f (s.pkg m).aliases).isSome = true) →
      ∃ t, exec (.nodeAliasInstall f n) s = .next t ∧ ∀ m ∈ s.present, PMap.get? f (t.pkg m).aliases = some n)
  ∧ (∀ g s, (s.cluster g).status = .quarantined → (s.cluster g).quarantines.length ≤ 1 →
      (∃ t, exec (.quarantineSelfTest g true) s = .next t ∧ (t.cluster g).status = .enabled
        ∧ (t.pkg (clusterNode g)).log.returned = (s.pkg (clusterNode g)).log.returned + 1)
      ∧ (g % 128 < 96 → sparesTaken s (clusterDie g) < 4 →
          ∃ t, exec (.quarantineSelfTest g false) s = .next t ∧ (t.cluster g).status = .failed))
  ∧ (∀ d s f, (s.pkg (d / 4)).fills.find? (fun f => f.onDie d && f.repaired && !f.running && fillMayRun s (d / 4) f) = some f →
      (f.ctxs ≠ [] → ∃ t, exec (.spareFill d) s = .next t ∧ ∃ g ∈ (t.pkg (d / 4)).fills, g.unit = f.unit ∧ g.running = true)
      ∧ (f.ctxs = [] → ∃ t, exec (.spareFill d) s = .next t ∧ ∀ g ∈ (t.pkg (d / 4)).fills, g.unit ≠ f.unit))
  ∧ ∀ k s, (s.core k).status = .closing →
      ((∀ i : Fin 16, ((s.core k).slots[i]).st = .empty ∨ ((s.core k).slots[i]).st = .halted) → (s.core k).runQ = [] →
        (s.core k).filling = none → (s.core k).buffer = [] →
        ∃ t, exec (.coreResetAfterHalt k) s = .next t ∧ (t.core k).status = .running
          ∧ (PMap.get? k (t.pkg (clusterNode (coreCluster k))).log.coreErrors).getD 0
              = (PMap.get? k (s.pkg (clusterNode (coreCluster k))).log.coreErrors).getD 0 + 1
          ∧ ∀ i : Fin 16, ((t.core k).slots[i]).st = .empty)
      ∧ (((∃ i : Fin 16, ((s.core k).slots[i]).st ≠ .empty ∧ ((s.core k).slots[i]).st ≠ .halted) ∨ (s.core k).runQ ≠ []
            ∨ (s.core k).filling.isSome = true ∨ (s.core k).buffer ≠ []) →
          exec (.coreResetAfterHalt k) s = .next (s.dueOnce (.coreResetAfterHalt k))))

/-- R391, R410, R412 to R416: no two flits leave a router by one output and none that arrives is left; a lone flit goes its productive
way, one clk older; a port serves its next tier; a link that trains down keeps 12 lanes; 16 authentication failures in a row take it down;
a request without an answer is resent three times and then lost; windows are halved down to 8 and grow by one over 4 µs without a notice;
fall-back is adopted. R393: a key is installed in an empty slot, or waits for one; an activation makes a ready slot the active one and
lets the old one drain the requests sealed under it; a drained slot is erased once its last posted flit is acknowledged
(notes/assumptions/26.md). -/
def Obligations.FabricAndLinkKeys : Prop :=
  ((∀ g fs, ((routeArrivals g (arriving fs)).out.map Prod.fst).Nodup ∧ (routeArrivals g (arriving fs)).left = [])
  ∧ (∀ g s f d, (s.cluster g).flits = [f] → f.inPort = some d →
      (productive g f.target = none → ∃ t, exec (.routerCycle g) s = .next t ∧ (t.cluster g).flits = [])
      ∧ ∀ e, productive g f.target = some e → ∃ t, exec (.routerCycle g) s = .next t
          ∧ { f with age := min 4095 (f.age + 1), inPort := some (opposite e) } ∈ (t.cluster (neighbour g e)).flits)
  ∧ (∀ n (i : Fin 6) s, ((s.pkg n).ports[i]).up = true → ∃ t, exec (.tierStarvationGrant n i) s = .next t
      ∧ (∀ x, ((s.pkg n).ports[i]).nextTier (tierCredits s) = some x → (t.pkg n).ports[i] = ((s.pkg n).ports[i]).grant x)
      ∧ (((s.pkg n).ports[i]).nextTier (tierCredits s) = none → ∀ x : Fin 3, ((t.pkg n).ports[i]).queued[x] = ((s.pkg n).ports[i]).queued[x]
          ∧ ((t.pkg n).ports[i]).waited[x] = if ((s.pkg n).ports[i]).queued[x] = 0 then 0 else ((s.pkg n).ports[i]).waited[x] + 1)
      ∧ (∀ x, ((s.pkg n).ports[i]).nextTier (tierCredits s) = some x → tierCredits s x = true ∧ 0 < ((s.pkg n).ports[i]).queued[x]))
  ∧ (∀ n (i : Fin 6) s, ((s.pkg n).ports[i]).lanes = 24 → ∃ t, exec (.linkTrainDown n i) s = .next t ∧ ((t.pkg n).ports[i]).lanes = 12
      ∧ (t.pkg n).log.trainDowns.getD i.val 0 = (s.pkg n).log.trainDowns.getD i.val 0 + 1)
  ∧ (∀ n (i : Fin 6) s, ∃ t, exec (.linkAuthFailure n i) s = .next t
      ∧ ((t.pkg n).ports[i]).resends = ((s.pkg n).ports[i]).resends + 1
      ∧ (((t.pkg n).ports[i]).authFails = 1 ∨ ((t.pkg n).ports[i]).authFails = ((s.pkg n).ports[i]).authFails + 1)
      ∧ (((t.pkg n).ports[i]).authFails = 16 → ((t.pkg n).ports[i]).up = false))
  ∧ (∀ l op s p a i, pendAt s l op = some p → p.kind.owner = some a → requestPort s (clusterNode (coreCluster l.core)) a = some i →
      (unanswered s (clusterNode (coreCluster l.core)) a i = false → exec (.requestResendTimeout l op) s = .next s)
      ∧ (unanswered s (clusterNode (coreCluster l.core)) a i = true → (PMap.get? op (s.grainAt l).resent).getD 0 < 3 → ∃ t, exec (.requestResendTimeout l op) s = .next t
        ∧ PMap.get? op (t.grainAt l).resent = some ((PMap.get? op (s.grainAt l).resent).getD 0 + 1))
      ∧ (unanswered s (clusterNode (coreCluster l.core)) a i = true → 3 ≤ (PMap.get? op (s.grainAt l).resent).getD 0 →
          exec (.requestResendTimeout l op) s = .next ((dropSend s l p).faultAt l p.pc .peerLost (BitVec.ofNat 64 a))))
  ∧ (∀ n m (i : Fin 3) s, (∃ t, exec (.congestionNotice n m i) s = .next t
        ∧ congWindow (t.pkg n) m i.val = max 8 (congWindow (s.pkg n) m i.val / 2))
      ∧ (((s.pkg n).windows.find? fun w => w.target == m && w.tier == i.val).all (·.quiet) = true →
          ∃ t, exec (.windowGrowthTimer n m i) s = .next t ∧ congWindow (t.pkg n) m i.val = congWindow (s.pkg n) m i.val + 1)
      ∧ (((s.pkg n).windows.find? fun w => w.target == m && w.tier == i.val).all (·.quiet) = false →
          ∃ t, exec (.windowGrowthTimer n m i) s = .next t ∧ congWindow (t.pkg n) m i.val = congWindow (s.pkg n) m i.val
            ∧ ((t.pkg n).windows.find? fun w => w.target == m && w.tier == i.val).all (·.quiet) = true))
  ∧ ∀ n s, ∃ t, exec (.fabricFallback n) s = .next t ∧ (t.pkg n).fallback = true)
  ∧ ((∀ n (i : Fin 6) (c : BitVec 12) key s k, k = keyIndex i c →
    (∀ j : Fin 4, slotIn (s.pkg n) k .empty = some j → ∃ t, exec (.keyInstall n i c key) s = .next t
      ∧ ((keySlots (t.pkg n) k)[j]).st = .ready ∧ ((keySlots (t.pkg n) k)[j]).key = some key)
    ∧ (slotIn (s.pkg n) k .empty = none → ∃ t, exec (.keyInstall n i c key) s = .next t
      ∧ (t.pkg n).pendingKeys = (s.pkg n).pendingKeys ++ [(k, key)]))
  ∧ (∀ n (i : Fin 6) (c : BitVec 12) (j : Fin 4) s k, k = keyIndex i c → ((keySlots (s.pkg n) k)[j]).st = .ready →
      ∃ t, exec (.keyActivate n i c j) s = .next t ∧ ((keySlots (t.pkg n) k)[j]).st = .active
        ∧ ∀ m, slotIn (s.pkg n) k .active = some m → ((keySlots (t.pkg n) k)[m]).st = .draining)
  ∧ ∀ n (i : Fin 6) (c : BitVec 12) (j : Fin 4) s k, k = keyIndex i c → ((keySlots (s.pkg n) k)[j]).st = .draining →
      (∀ r ∈ ((keySlots (s.pkg n) k)[j]).requests, stillOut s r = false) → (∀ e ∈ (s.pkg n).pendingKeys, e.1 ≠ k) →
      (postedAcked s = true → ∃ t, exec (.keySlotRetire n i c j) s = .next t ∧ (keySlots (t.pkg n) k)[j] = KeySlot.empty)
      ∧ (postedAcked s = false → exec (.keySlotRetire n i c j) s = .next s.ticked))

/-- R434, R435: the duty falls by one above the limit and rises by one below 95 % of it; after 1,000 ticks above it at duty 1 issue is
halved; a module's limit is 2,400 W; a droop alarm stalls the package's arrays for 64 clk; a hot die has duty 1; a trip fences the
package; a limit from 600 W to 2,400 W is taken by a package in service and no other. R432, R433, R436, R437: power-good boots a package
whose flash holds an accepted copy of every region and releases its cores; without one of the head firmware it stays in recovery mode; an
update never overwrites the accepted copy; a loss of power is an unclean stop; the log appends its counters under rising numbers and
answers the record of a number whose CRC is right. -/
def Obligations.PowerBootAndLog : Prop :=
  ((∀ n w s, ∃ t, exec (.powerControlTick n w) s = .next t
    ∧ (plimOf s n < w → (t.pkg n).duty = max 1 ((s.pkg n).duty - 1))
    ∧ (w ≤ plimOf s n → 100 * w < 95 * plimOf s n → (t.pkg n).duty = min 8 ((s.pkg n).duty + 1))
    ∧ (w ≤ plimOf s n → 95 * plimOf s n ≤ 100 * w → (t.pkg n).duty = (s.pkg n).duty)
    ∧ (w ≤ plimOf s n → (t.pkg n).halfIssue = false))
  ∧ (∀ n s, 1000 ≤ (s.pkg n).overFor → ∃ t, exec (.issueThrottle n) s = .next t ∧ (t.pkg n).halfIssue = true)
  ∧ (∀ n s k, clusterNode (coreCluster k) = n → (PMap.get? k s.cores).isSome = true → ∃ t, exec (.droopAlarm n) s = .next t
      ∧ (t.core k).droop = (s.core k).cycle + 64 ∧ (t.pkg n).log.droops = (s.pkg n).log.droops + 1)
  ∧ (∀ d s k, clusterDie (coreCluster k) = d → ∃ t, exec (.thermalThrottle d) s = .next t ∧ (t.die d).hot = true ∧ arrayDuty t k = 1)
  ∧ (∀ d s, (s.pkg (d / 4)).failed = false → (s.pkg (d / 4)).boot ≠ 0 → ∃ t, exec (.thermalTrip d) s = .next t
      ∧ (t.pkg (d / 4)).failed = true)
  ∧ ∀ n w s, ((s.pkg n).up = true → (600 ≤ w ∧ w ≤ 2400) → ∃ t, exec (.setPowerLimit n w) s = .next t ∧ (t.pkg n).plim = w)
      ∧ ((s.pkg n).up = false ∨ w < 600 ∨ 2400 < w → exec (.setPowerLimit n w) s = .next s))
  ∧ ((∀ n img s, n ∈ s.present → (s.pkg n).boot = 0 →
    ((∀ r, (acceptedCopy (s.pkg n) r).isSome = true) → ∃ t, exec (.powerGoodBoot n img) s = .next t ∧ (t.pkg n).boot = 7
      ∧ (t.pkg n).recovery = false ∧ (t.pkg n).aliasKey.isSome = true ∧ (t.pkg n).log.powerOns = (s.pkg n).log.powerOns + 1
      ∧ ∀ g ∈ unitClusters (.package n), ∀ i, i < 17 → (t.cluster g).status ≠ .failed → i ∉ (t.cluster g).failedCores →
          (t.core (g * 32 + i)).status = .running)
    ∧ (acceptedCopy (s.pkg n) .headFw = none → ∃ t, exec (.powerGoodBoot n img) s = .next t ∧ (t.pkg n).boot = 1
      ∧ (t.pkg n).recovery = true ∧ ∀ g ∈ unitClusters (.package n), ∀ i, i < 17 → (t.core (g * 32 + i)).status = .inReset))
  ∧ (∀ n r img s x, (s.pkg n).boot ≠ 0 → acceptedCopy (s.pkg n) r = some x → ∃ t, exec (.firmwareUpdate n r img) s = .next t
      ∧ ((flashOf (t.pkg n) r).a = some x ∨ (flashOf (t.pkg n) r).b = some x)
      ∧ (r ≠ .deviceCert → (flashOf (t.pkg n) r).a = some img ∨ (flashOf (t.pkg n) r).b = some img))
  ∧ (∀ n s, (s.pkg n).boot ≠ 0 → ∃ t, exec (.powerLoss n) s = .next t ∧ (t.pkg n).boot = 0 ∧ (t.pkg n).log.cleanStop = false)
  ∧ (∀ n s, (s.pkg n).boot = 7 → ∃ t, exec (.lifeLogRecord n) s = .next t ∧ (t.pkg n).log.next = (s.pkg n).log.next + 1
      ∧ ∃ c, (t.pkg n).log.records.getLast? = some { seq := (s.pkg n).log.next, counters := c, crcOk := true })
  ∧ ∀ n (q : Word) s, (s.pkg n).boot = 7 →
      (∀ r, ((s.pkg n).log.records.filter (·.crcOk)).find? (fun r => r.seq == q.toNat) = some r →
        ∃ t, exec (.getLifeLogRecord n q) s = .next t ∧ (t.pkg n).log.lastRead = some r)
      ∧ (((s.pkg n).log.records.filter (·.crcOk)).find? (fun r => r.seq == q.toNat) = none → q.toNat < (s.pkg n).log.next →
        ∃ t, exec (.getLifeLogRecord n q) s = .next t ∧ (t.pkg n).log.lastRead = ((s.pkg n).log.records.filter (·.crcOk)).head?))

/-- R401, R402: the responder answers the requests of a connection in order, and one out of order as unexpected. R401: a session is opened
for an owner that has none, eight at most; it is finished by a MAC that verifies and ended otherwise; a tenant installs keys of its own
context only, the fabric manager link keys only, and either the IDE keys of the host link; TDISP moves between its states for their owner. -/
def Obligations.SessionsAndAttestation : Prop :=
  ((∀ n s, (s.pkg n).answers = true → exec (.getVersion n) s
    = .next (s.setPkg n { s.pkg n with spdm := .version, sessions := [], reply := .version 0x13 }))
  ∧ (∀ n s, (s.pkg n).answers = true → (s.pkg n).spdm = .version →
      exec (.getCapabilities n) s = .next (s.setPkg n { s.pkg n with spdm := .capabilities, reply := .capabilities [.cert, .chal, .measSig, .keyEx, .encrypt, .mac] }))
  ∧ (∀ n offer s, (s.pkg n).answers = true → (s.pkg n).spdm = .capabilities →
      ((offer.sha384 && offer.p384 && offer.secp384r1 && offer.aes256gcm) = true → exec (.negotiateAlgorithms n offer) s
        = .next (s.setPkg n { s.pkg n with spdm := .negotiated, reply := .algorithms offer }))
      ∧ ((offer.sha384 && offer.p384 && offer.secp384r1 && offer.aes256gcm) = false → exec (.negotiateAlgorithms n offer) s
        = .next (s.setPkg n { s.pkg n with reply := .refused })))
  ∧ (∀ n s, (s.pkg n).answers = true → (s.pkg n).spdm = .negotiated →
      exec (.getDigests n) s = .next (s.setPkg n { s.pkg n with reply := .digests (chainDigest (s.pkg n)) })
      ∧ (∀ off len, exec (.getCertificate n 0 off len) s = .next (s.setPkg n { s.pkg n with reply := .certificate (((certChain (s.pkg n)).drop off).take len) }))
      ∧ (∀ c, exec (.challenge n c) s = .next (s.setPkg n
          { s.pkg n with reply := .challengeAuth (aliasSign (s.pkg n) (chainDigest (s.pkg n) ++ beBytes 32 c.toNat)) }))
      ∧ ∀ i c vs, measured (s.pkg n) i = some vs → exec (.getMeasurements n i c) s = .next (s.setPkg n
          { s.pkg n with reply := .measurements vs (aliasSign (s.pkg n) (vs.flatten ++ beBytes 32 c.toNat)) }))
  ∧ ∀ n s, (s.pkg n).answers = true → (s.pkg n).spdm ≠ .negotiated → ∀ i : Instr,
      (i = .getDigests n ∨ (∃ x o l, i = .getCertificate n x o l) ∨ (∃ c, i = .challenge n c) ∨ ∃ x c, i = .getMeasurements n x c) →
      exec i s = .next (s.setPkg n { s.pkg n with reply := .unexpected }))
  ∧ ((∀ n who pub s, (s.pkg n).answers = true → (s.pkg n).spdm = .negotiated → (s.pkg n).sessions.length < 8 →
    (∀ x ∈ (s.pkg n).sessions, x.owner ≠ who) →
    ∃ t, exec (.keyExchange n who pub) s = .next t
      ∧ (t.pkg n).sessions = (s.pkg n).sessions ++ [{ id := freeSession (s.pkg n), owner := who, finished := false }]
      ∧ ∃ x, (t.pkg n).reply = .keyExchange (freeSession (s.pkg n)) x)
  ∧ (∀ n i s x, (s.pkg n).answers = true → x ∈ (s.pkg n).sessions → x.id = i →
      (x.finished = false →
        (∃ t, exec (.finish n i true) s = .next t ∧ { x with finished := true } ∈ (t.pkg n).sessions)
        ∧ ∃ t, exec (.finish n i false) s = .next t ∧ ∀ y ∈ (t.pkg n).sessions, y.id ≠ i)
      ∧ (x.finished = true → ∃ t, exec (.endSession n i) s = .next t ∧ ∀ y ∈ (t.pkg n).sessions, y.id ≠ i))
  ∧ (∀ n i s x m, (s.pkg n).answers = true → (s.pkg n).sessions.find? (fun x => x.id == i && x.finished) = some x →
      (mayInstall x.owner m = true → exec (.securedKeyInstallMessage n i m) s
        = .next (installMsg (s.setPkg n { s.pkg n with reply := .accepted }) n m))
      ∧ (∀ cxl out key, mayInstall x.owner (.ide cxl out key) = true)
      ∧ (mayInstall x.owner m = false → exec (.securedKeyInstallMessage n i m) s
        = .next (s.setPkg n { s.pkg n with reply := .refused })))
  ∧ (∀ c d, c ≠ d → ∀ i k key, mayInstall (.tenant c) (.link i d k) = false ∧ mayInstall (.tenant c) (.data d key) = false
      ∧ mayInstall (.tenant c) (.checkpoint d key) = false)
  ∧ ∀ n c s r x, x = s.ctxOf n c → (s.pkg n).up = true →
      (x.tdisp = .run → x.tdispOwner = r →
          exec (.tdispStateRequest n c .config r) s = .next (s.setCtx n c { x with tdisp := .config, tdispOwner := 0 }))
      ∧ (x.tdisp = .config → exec (.tdispStateRequest n c .locked r) s = .next (s.setCtx n c { x with tdisp := .locked, tdispOwner := r }))
      ∧ (x.tdisp = .locked → (x.tdispOwner = r →
            exec (.tdispStateRequest n c .run r) s = .next (s.setCtx n c { x with tdisp := .run })
            ∧ exec (.tdispStateRequest n c .config r) s = .next (s.setCtx n c { x with tdisp := .config, tdispOwner := 0 }))
          ∧ (x.tdispOwner ≠ r → exec (.tdispStateRequest n c .run r) s = .next s)))
/-! ### Encoding and decoding (R72-R90) -/

namespace Sys2Proof.Claims
/-- Words that the spec prints with the instruction they encode (spec/03, the worked examples; R171, R199). -/
def printedWords : List (List Half × Instr) :=
  [([0x0351#16], .add ⟨none, .bare, 3, 5⟩),
   ([0xF817#16, 0x0351#16], .add ⟨none, .three 7, 3, 5⟩),
   ([0xFFED#16, 0x1240#16], .addi ⟨none, 2, ⟨[0x3ED#10], 4⟩⟩),
   ([0xFC07#16, 0xFC10#16, 0x132A#16], .bfx ⟨none, 3, 2, 7, 16⟩),
   ([0x82FA#16], .br ⟨5, true, ⟨[], 58⟩⟩),
   ([0xF060#16, 0xFC04#16, 0x4356#16], .ld ⟨some ⟨3, false⟩, false, 3, 5, 6, [4#10]⟩),
   ([0xFFFF#16, 0xFDA8#16, 0x4251#16], .ld ⟨none, false, 2, 5, 1, [0x3FF#10, 0x1A8#10]⟩),
   ([0xFC02#16, 0x5460#16], .st ⟨none, false, 4, 6, [2#10]⟩),
   ([0xFA70#16, 0xA460#16], .acas ⟨none, true, 4, 6, 0, [], ⟨true, true⟩⟩),
   ([0xFB40#16, 0xB070#16], .xpull ⟨none, 7, 0, []⟩),
   ([0xF402#16, 0xFA93#16, 0x6113#16], .vmul ⟨none, some ⟨0, 0, 1, false⟩, some .f32, 1, 1, some 3, false⟩),
   ([0xFA88#16, 0x7742#16], .vgath ⟨none, some .f32, 7, 4, 8, []⟩),
   ([0xF802#16, 0xFC20#16, 0xC150#16], .mma ⟨none, true, 1, 5, 2, [32#10]⟩),
   ([0xFA00#16, 0xFC01#16, 0xD320#16], .nref ⟨none, 3, 2, 0, [1#10]⟩),
   ([0xE293#16], .crrd ⟨none, 2, 9, none⟩)]
/-- Words that the spec prints with the fault they raise (R79, the worked example). -/
def refusedWords : List (List Half × DecodeErr) :=
  [([0xF060#16, 0xF060#16, 0x0351#16], .illegalPrefix), ([0xF800#16, 0xF060#16, 0x0351#16], .illegalPrefix),
   ([0xFC01#16, 0x0351#16], .illegalPrefix), ([0xF880#16, 0x0351#16], .illegalOpcode), ([0xF061#16, 0x0351#16], .reservedField),
   ([0x90F9#16], .reservedField)]
end Sys2Proof.Claims

/-- The words that the spec prints with an instruction decode to it, and those it prints with a fault are refused by that name (R79). -/
def Obligations.PrintedWords : Prop :=
  (∀ p ∈ printedWords, decodeWords p.1 = .instr p.2 p.1.length)
  ∧ ∀ p ∈ refusedWords, ∃ base n, decodeWords p.1 = .bad p.2 base n

/-- R72, R75: decode and encode agree. The words of a well-formed instruction decode to it and to their number, whatever follows them; a
chain of more than four prefixes is refused; and whatever words decode to an instruction begin with exactly the words of that instruction,
which is well-formed. So every bit of an encoding is read, and no two instructions share their words. -/
def Obligations.DecodeEncode : Prop :=
  (∀ (i : Instr) (rest : List Half), i.wf = true → (encodeParts i).isSome = true →
    ((encode i).length ≤ 5 → decodeWords (encode i ++ rest) = .instr i (encode i).length)
    ∧ (5 < (encode i).length → ∃ base n, decodeWords (encode i ++ rest) = .bad .illegalPrefix base n))
  ∧ ∀ (ws : List Half) (i : Instr) (n : Nat), decodeWords ws = .instr i n →
      i.wf = true ∧ encode i = ws.take n ∧ n ≤ 5 ∧ n ≤ ws.length

/-! ### A step (R73, R79, R250) -/

/-- A step in which core `k` lets a slot issue runs exec of the instruction that the words at the slot's PC decode to, on the state that
the issue cycle and the fetch leave: one clk on, the slot served and its turn, and the instruction's lines in the core's instruction cache
(R3), which no access sees. R250: an instruction that parks its grain takes no issue clk: the core's counter and the slot's last issue
stand where they stood. R73, R79: the words are fetched from the PC on until the decoder has its instruction; a chain it refuses raises
the cause of the first check that fails. -/
def Obligations.StepRunsDecoded : Prop :=
  (∀ s k n, s.chosen = some (.issue k) → nextSlot s.ticked k = some n → (s.ticked.grainAt ⟨k, n⟩).skip = 0 →
    ∀ t, t = barrelClk s.ticked k → (t.cur = ⟨k, n⟩ ∧ t.grain = s.grainAt ⟨k, n⟩ ∧ t.mem = s.mem ∧ (t.core k).cycle = (s.core k).cycle + 1)
      ∧ (turnStop t = none → t.inMonitor = false → ∀ i, fetch t = .ok i →
        ((keepCode t (wordCount i)).cur = t.cur ∧ (keepCode t (wordCount i)).mem = t.mem ∧ (keepCode t (wordCount i)).agenda = t.agenda
          ∧ ∀ l, (keepCode t (wordCount i)).slotAt l = t.slotAt l)
        ∧ (∀ u, exec i (keepCode t (wordCount i)) = .next u → waiting t.grain.pc ((u.core k).slots[n]) = false → step s = .next u)
        ∧ ∀ u, exec i (keepCode t (wordCount i)) = .next u → waiting t.grain.pc ((u.core k).slots[n]) = true →
            ∃ v, step s = .next v ∧ v.mem = u.mem ∧ v.agenda = u.agenda ∧ v.grainAt ⟨k, n⟩ = u.grainAt ⟨k, n⟩
              ∧ (v.core k).cycle = (s.core k).cycle ∧ (v.slotAt ⟨k, n⟩).lastIssue = (s.slotAt ⟨k, n⟩).lastIssue
              ∧ (v.slotAt ⟨k, n⟩).st = (u.slotAt ⟨k, n⟩).st)
      ∧ (∀ w es, turnStop t = some (.park w es) → t.inMonitor = false →
          ∃ v, step s = .next v ∧ v.mem = s.mem ∧ (v.core k).cycle = (s.core k).cycle ∧ v.grainAt ⟨k, n⟩ = s.grainAt ⟨k, n⟩
            ∧ (v.slotAt ⟨k, n⟩).st = if w = .channel then .gated else .parked w))
  ∧ ∀ t ws i, (∀ (j : Nat) (h : j < ws.length), fetchWord t t.grain.pc (pcAdd t.grain.pc (2 * j)) = .ok ws[j]) →
      (decodeWords ws = .instr i ws.length → fetch t = .ok i)
      ∧ ∀ e base n, decodeWords ws = .bad e base n → ws.length = n + 1 →
          fetch t = .error (.trap (decodeCause e) (decodeInfo base n))

/-- No step stops: every state has a next one, whatever event is due and whatever instruction is at a PC (notes/assumptions/3.md). -/
def Obligations.StepNeverStops : Prop :=
  (∀ s, Runs (step s)) ∧ (∀ e s, Runs (runEvent e s)) ∧ ∀ i s, Runs (exec i s)

/-! ### Invariants -/

/-- The state before power-good meets the invariant. -/
def Obligations.ResetInv : Prop :=
  State.reset.Inv

/-- Every step, every instruction and every event keeps memory in its canonical form: addresses rising, and no byte listed with the value
an unlisted one reads as (notes/assumptions/1.md). So equal memories are equal data. -/
def Obligations.InvKept : Prop :=
  (∀ s t, s.Inv → step s = .next t → t.Inv) ∧ (∀ i s t, s.Inv → exec i s = .next t → t.Inv)
  ∧ ∀ e s t, s.Inv → runEvent e s = .next t → t.Inv

/-- R432, R37: before power-good every core is in reset and runs nothing: no slot holds a grain, no timer runs and nothing is due; and
SLICE_CYCLES is 2^18 and CHAN_WATCHDOG 2^20 on each. The step of such a machine only lets time pass. -/
def Obligations.ResetState : Prop :=
  (∀ k, (State.reset.core k).status = .inReset ∧ (State.reset.core k).sliceCycles = 0x40000#32
    ∧ (State.reset.core k).chanWatchdog = 0x100000#32 ∧ ∀ n, (State.reset.slotAt ⟨k, n⟩).occupied = false)
  ∧ State.reset.actions = [] ∧ ∃ t, step State.reset = .next t ∧ t.cores = [] ∧ t.mem = [] ∧ t.agenda = []

/-! ### Taking a fault (R237, R259) -/

/-- R37, R23, R237, R259: a precise fault writes TRAP_CAUSE (cause code, slot and the valid bit) and TRAP_INFO of the core, leaves the
grain at its instruction with every register as it was but for the Ganged bit, which is cleared, takes its slot out of the rotation, and
sends its report to the head complex. Nothing of the instruction takes effect: memory, every other slot and every other core stay. -/
def Obligations.TakingAFault : Prop :=
  ∀ (s t : State) (c : Cause) (info : Word), finish s (.error (.trap c info)) = .next t → ∀ node, node = clusterNode s.here →
    (t.curCore.trapCause = BitVec.ofNat 64 (c.code + 256 * s.cur.slot.val + 4096) ∧ t.curCore.trapInfo = info)
    ∧ t.grain = { s.grain with pw := setBit s.grain.pw 46 false }
    ∧ ((s.slotAt s.cur).occupied = true → (t.slotAt s.cur).st = .parked .fault)
    ∧ (∃ r, (t.pkg node).reports = (s.pkg node).reports ++ [r] ∧ r.launch = s.grain.launch ∧ r.cause = c ∧ r.info = info
        ∧ r.where_ = 16 * s.cur.core + s.cur.slot.val ∧ r.rank = s.grain.rank ∧ r.imprecise = false)
    ∧ t.agenda = s.agenda ++ [.faultReport node] ∧ t.mem = s.mem
    ∧ (∀ l : Loc, l ≠ s.cur → t.slotAt l = s.slotAt l) ∧ ∀ k, k ≠ s.cur.core → t.core k = s.core k

/-! ### When an instruction issues (R39, R40, R77) -/

/-- A grain without open windows, without sequencer entries and outside a VLOOP body issues any instruction that is not guarded; it needs
a free place among four for a long-latency one. R77: a guard that is false lets the instruction pass without effect. R39: an instruction
that touches the pending destination of an open window raises LOOKAHEAD_VIOLATION, and one past a window whose result is outstanding
parks. R40: a fifth long-latency instruction parks. -/
def Obligations.IssueRules : Prop :=
  ∀ s, s.pageFaulted s.cur = false → s.arrayBusy s.cur = false → s.grain.vloop = none →
    (∀ i t, s.grain.windows = [] → s.grain.seq = [] → (t.long = true → s.grain.pend.length < 4) → Issues i none t s)
    ∧ (∀ p ∈ binaryFn, ∀ a (gd : Guard), a.gd = some gd → s.grain.blocked = false → s.grain.seq = [] → predOf s.grain.pw gd.idx = gd.neg →
        exec (p.1 a) s = .next (s.issued (p.1 a)))
    ∧ (∀ p ∈ binaryFn, ∀ a, s.grain.blocked = true → exec (p.1 a) s = .next (s.parkCur s.grain.blockWait))
    ∧ (∀ p ∈ binaryFn, ∀ a, s.grain.blocked = false → s.grain.seq = [] → guardHolds s.grain a.gd = true →
        (∃ w ∈ s.grain.windows, w.pos < w.k ∧ ∃ r ∈ w.dst, r ∈ aluRegs a) →
        ∃ info, exec (p.1 a) s = .next (s.raise .lookaheadViolation info))
    ∧ ∀ q ∈ loads, ∀ a, s.grain.blocked = false → s.grain.seq = [] → guardHolds s.grain a.gd = true →
        (∀ w ∈ s.grain.windows, w.k ≤ w.pos) → 4 ≤ s.grain.pend.length → exec (q.1 a) s = .next (s.parkCur .fifth)

/-! ### Frames -/

namespace Sys2Proof.Claims
/-- The instructions that work on registers alone and cannot fault on their values, each with its guard, what it touches, its register
fields and its destination. -/
inductive RegisterForm : Instr → Option Guard → Touch → List Reg → Reg → Prop
  | binary (p) (h : p ∈ binaryFn) (a : AluArgs) (t : Reg) (ht : a.form = .three t ∨ (t = a.s ∧ ∀ u, a.form ≠ .three u)) :
      RegisterForm (p.1 a) a.gd (Touch.of (aluRegs a)) [a.d, a.s, t] a.d
  | unary (p) (h : p ∈ unaryRel) (a : UnaryArgs) : RegisterForm (p.1 a) a.gd (Touch.of (regRes a.d ++ regRes a.s)) [a.d, a.s] a.d
  | extend (p) (h : p ∈ extendFn) (a : ExtArgs) : RegisterForm (p.1 a) a.gd (Touch.of (regRes a.d ++ regRes a.s)) [a.d, a.s] a.d
  | immediate (p) (h : p ∈ immediateFn) (a : ImmArgs) : RegisterForm (p.1 a) a.gd (Touch.of (regRes a.d)) [a.d] a.d
  | pointer (p) (h : p ∈ pointerFields) (a : ImmArgs) : RegisterForm (p.1 a) a.gd (Touch.of (regRes a.d)) [a.d] a.d
  | bfx (a) : RegisterForm (.bfx a) a.gd (Touch.of (regRes a.d ++ regRes a.s)) [a.d, a.s] a.d
  | bfi (a) : RegisterForm (.bfi a) a.gd (Touch.of (regRes a.d ++ regRes a.s)) [a.d, a.s] a.d
  | pclr (a) : RegisterForm (.pclr a) a.gd (Touch.of (regRes a.d)) [a.d] a.d
  | li (a) : RegisterForm (.li a) a.gd (Touch.of (regRes a.d)) [a.d] a.d
/-- `t` differs from `s` in the grain whose turn it is, there in its PC, general registers, predicate word, windows and VLOOP counts
alone, and in the events that are due: no other slot, core, cluster, die, package or launch and no byte of memory has changed. -/
def OnlyGrain (s t : State) : Prop :=
  t = { s.setGrain t.grain with agenda := t.agenda }
  ∧ t.grain = { s.grain with
      pc := t.grain.pc, g := t.grain.g, pw := t.grain.pw, windows := t.grain.windows, vloop := t.grain.vloop }
end Sys2Proof.Claims

/-- The frame of register arithmetic: where no field names a stream, an instruction that issues completes, changes no general register but
its destination, which zr discards, and neither the predicate word nor anything outside its grain. The frame of the compares (R112): where
no field names a stream, a compare changes no general register, no bit of the predicate word but its predicate, and nothing outside its
grain. -/
def Obligations.RegisterFrames : Prop :=
  (∀ i gd touch fields d, RegisterForm i gd touch fields d → ∀ s, Issues i gd touch s → (∀ r ∈ fields, streamOf r = none) →
    ∃ t, exec i s = .next t ∧ OnlyGrain s t ∧ t.grain.pw = s.grain.pw ∧ t.grain.pc = pcAdd s.grain.pc (2 * wordCount i)
      ∧ ∀ n, n < 10 → n ≠ d.toNat → t.grain.reg n = s.grain.reg n)
  ∧ ((∀ p ∈ compareFn, ∀ a s, Issues (p.1 a) a.gd (Touch.predsOf (regRes a.d ++ regRes a.s ++ predRes (a.pd.getD 0#5))) s →
    streamOf a.d = none → streamOf a.s = none → ∃ t, exec (p.1 a) s = .next t ∧ OnlyGrain s t ∧ t.grain.g = s.grain.g
      ∧ ∀ j, j < 64 → j ≠ (a.pd.getD 0#5).toNat → t.grain.pw.getLsbD j = s.grain.pw.getLsbD j)
  ∧ ∀ p ∈ compareImmFn, ∀ a s, Issues (p.1 a) a.gd (Touch.predsOf (regRes a.d ++ predRes (a.pd.getD 0#5))) s →
      streamOf a.d = none → ∃ t, exec (p.1 a) s = .next t ∧ OnlyGrain s t ∧ t.grain.g = s.grain.g
        ∧ ∀ j, j < 64 → j ≠ (a.pd.getD 0#5).toNat → t.grain.pw.getLsbD j = s.grain.pw.getLsbD j)

/-- The frame of the loads (R128, R135): whatever a load's issue ends in, an access whose checks pass changes no byte of memory and, but
for the pointer that LDI steps, no general register, no flag and no predicate; its destination is written by its result alone. The frame
of the stores (R138): the same, and no byte of memory until the store is performed. -/
def Obligations.AccessFrames : Prop :=
  (∀ q ∈ loads, ∀ a s t, Issues (q.1 a) a.gd (Touch.longOf (regRes a.d ++ regRes a.a)) s → exec (q.1 a) s = .next t →
    t.mem = s.mem ∧ (∀ n, n < 10 → (q.2.2 = false ∨ n ≠ a.a.toNat) → t.grain.reg n = s.grain.reg n)
      ∧ t.grain.v = s.grain.v ∧ t.grain.sg = s.grain.sg ∧ (∀ j, j ≠ 46 → t.grain.pw.getLsbD j = s.grain.pw.getLsbD j)
      ∧ ∀ l : Loc, l ≠ s.cur → t.slotAt l = s.slotAt l)
  ∧ ∀ q ∈ stores, ∀ a s t, Issues (q.1 a) a.gd (Touch.of (regRes a.s ++ regRes a.a)) s → streamOf a.s = none →
      exec (q.1 a) s = .next t →
      t.mem = s.mem ∧ (∀ n, n < 10 → (q.2.2.1 = false ∨ n ≠ a.a.toNat) → t.grain.reg n = s.grain.reg n)
        ∧ t.grain.v = s.grain.v ∧ t.grain.sg = s.grain.sg ∧ (∀ j, j ≠ 46 → t.grain.pw.getLsbD j = s.grain.pw.getLsbD j)
        ∧ ∀ l : Loc, l ≠ s.cur → t.slotAt l = s.slotAt l
end

