-- ==== Sys2Proof/Laws/Memory.lean ====
section
/-! SUPPORT. Laws of sparse maps and of memory: reading after writing, and that every memory operation keeps the canonical form. -/

namespace Sys2Proof.Machine

/-! ### Sparse maps -/

@[simp] theorem PMap.get?_set_self {α : Type} (k : Nat) (v : α) (m : PMap α) : PMap.get? k (PMap.set k v m) = some v := by
  induction m with
  | nil => simp [PMap.set, PMap.get?]
  | cons e r ih =>
    obtain ⟨k', v'⟩ := e
    by_cases h : k' = k
    · simp [PMap.set, PMap.get?, h]
    · by_cases h2 : k < k'
      · simp [PMap.set, PMap.get?, h, h2]
      · simp [PMap.set, PMap.get?, h, h2, ih]

theorem PMap.get?_set_ne {α : Type} {j k : Nat} (h : j ≠ k) (v : α) (m : PMap α) :
    PMap.get? j (PMap.set k v m) = PMap.get? j m := by
  induction m with
  | nil => simp [PMap.set, PMap.get?, Ne.symm h]
  | cons e r ih =>
    obtain ⟨k', v'⟩ := e
    by_cases h1 : k' = k
    · subst h1
      simp [PMap.set, PMap.get?, Ne.symm h]
    · by_cases h2 : k < k'
      · simp [PMap.set, PMap.get?, h1, h2, Ne.symm h]
      · by_cases h3 : k' = j
        · subst h3
          simp [PMap.set, PMap.get?, h1, h2]
        · simp [PMap.set, PMap.get?, h1, h2, h3, ih]

/-- Only the last value set under a key counts. -/
theorem PMap.set_set {α : Type} (k : Nat) (v w : α) (m : PMap α) : PMap.set k w (PMap.set k v m) = PMap.set k w m := by
  induction m with
  | nil => simp [PMap.set]
  | cons e r ih =>
    obtain ⟨k', v'⟩ := e
    by_cases h : k' = k
    · simp [PMap.set, h]
    · by_cases h2 : k < k'
      · simp [PMap.set, h, h2]
      · simp [PMap.set, h, h2, ih]

theorem PMap.get?_set {α : Type} (j k : Nat) (v : α) (m : PMap α) :
    PMap.get? j (PMap.set k v m) = if j = k then some v else PMap.get? j m := by
  by_cases h : j = k
  · subst h; simp
  · simp [h, PMap.get?_set_ne h]

/-! ### The canonical form of memory -/

theorem Memory.wfFrom_mono {lo lo' : Nat} {m : Memory} (h : Memory.wfFrom lo m = true) (hl : lo' ≤ lo) :
    Memory.wfFrom lo' m = true := by
  cases m with
  | nil => rfl
  | cons e r =>
    simp only [Memory.wfFrom, Bool.and_eq_true, decide_eq_true_eq] at h ⊢
    exact ⟨⟨by omega, h.1.2⟩, h.2⟩

/-- Below the first address nothing is listed. -/
theorem Memory.get?_none_of_lt {lo : Nat} {m : Memory} (h : Memory.wfFrom lo m = true) {a : Nat} (ha : a < lo) :
    PMap.get? a m = none := by
  induction m generalizing lo with
  | nil => rfl
  | cons e r ih =>
    simp only [Memory.wfFrom, Bool.and_eq_true, decide_eq_true_eq] at h
    have hne : e.1 ≠ a := by omega
    obtain ⟨k, b⟩ := e
    simp only [PMap.get?, hne, if_false]
    exact ih h.2 (by simp only at h; omega)

/-- A write keeps the canonical form. -/
theorem Memory.wfFrom_write {lo : Nat} {m : Memory} (h : Memory.wfFrom lo m = true) {a : Nat} (ha : lo ≤ a) (b : Byte) :
    Memory.wfFrom lo (m.write a b) = true := by
  induction m generalizing lo with
  | nil =>
    unfold Memory.write
    split
    · rfl
    · simp [Memory.wfFrom, *]
  | cons e r ih =>
    obtain ⟨k, c⟩ := e
    simp only [Memory.wfFrom, Bool.and_eq_true, decide_eq_true_eq, bne_iff_ne, ne_eq] at h
    unfold Memory.write
    split
    · subst_vars
      split
      · exact Memory.wfFrom_mono h.2 (by omega)
      · simp [Memory.wfFrom, h.2, *]
    · split
      · split
        · simp [Memory.wfFrom, h.1.1, h.1.2, h.2]
        · simp only [Memory.wfFrom, Bool.and_eq_true, decide_eq_true_eq, bne_iff_ne, ne_eq]
          exact ⟨⟨ha, by assumption⟩, ⟨by omega, h.1.2⟩, h.2⟩
      · simp only [Memory.wfFrom, Bool.and_eq_true, decide_eq_true_eq, bne_iff_ne, ne_eq]
        exact ⟨⟨h.1.1, h.1.2⟩, ih h.2 (by omega)⟩

theorem Memory.wf_write {m : Memory} (h : m.wf = true) (a : Nat) (b : Byte) : (m.write a b).wf = true :=
  Memory.wfFrom_write h (Nat.zero_le a) b

theorem Memory.wf_writeBytes {m : Memory} (h : m.wf = true) (a : Nat) (bs : List Byte) : (m.writeBytes a bs).wf = true := by
  induction bs generalizing m a with
  | nil => exact h
  | cons b bs ih => exact ih (Memory.wf_write h a b) (a + 1)

theorem Memory.wfFrom_filter {lo : Nat} {m : Memory} (h : Memory.wfFrom lo m = true) (p : Host.Cell → Bool) :
    Memory.wfFrom lo (m.filter p) = true := by
  induction m generalizing lo with
  | nil => rfl
  | cons e r ih =>
    simp only [Memory.wfFrom, Bool.and_eq_true, decide_eq_true_eq, bne_iff_ne, ne_eq] at h
    rw [List.filter_cons]
    split
    · simp only [Memory.wfFrom, Bool.and_eq_true, decide_eq_true_eq, bne_iff_ne, ne_eq]
      exact ⟨h.1, ih h.2⟩
    · exact Memory.wfFrom_mono (ih h.2) (by omega)

/-- Forgetting a part of memory keeps the canonical form. -/
theorem Memory.wf_filter {m : Memory} (h : m.wf = true) (p : Host.Cell → Bool) : Memory.wf (m.filter p) = true :=
  Memory.wfFrom_filter h p

/-! ### Reading after writing -/

theorem Memory.read_write_from {lo : Nat} {m : Memory} (h : Memory.wfFrom lo m = true) {a : Nat} (ha : lo ≤ a) (b : Byte) (x : Nat) :
    (m.write a b).read x = if x = a then b else m.read x := by
  induction m generalizing lo with
  | nil =>
    unfold Memory.write Memory.read
    by_cases hb : b = Memory.unlisted
    · by_cases hx : x = a <;> simp [hb, hx, PMap.get?]
    · by_cases hx : x = a
      · simp [hb, hx, PMap.get?]
      · simp [hb, hx, PMap.get?, Ne.symm hx]
  | cons e r ih =>
    obtain ⟨k, c⟩ := e
    simp only [Memory.wfFrom, Bool.and_eq_true, decide_eq_true_eq, bne_iff_ne, ne_eq] at h
    have hr := ih h.2
    unfold Memory.write
    by_cases hk : k = a
    · subst hk
      by_cases hb : b = Memory.unlisted
      · simp only [if_true, hb]
        by_cases hx : x = k
        · subst hx
          simp [Memory.read, Memory.get?_none_of_lt h.2 (Nat.lt_succ_self x)]
        · simp [Memory.read, PMap.get?, hx, Ne.symm hx]
      · simp only [if_true, hb, if_false]
        by_cases hx : x = k
        · simp [Memory.read, PMap.get?, hx]
        · simp [Memory.read, PMap.get?, hx, Ne.symm hx]
    · simp only [hk, if_false]
      by_cases ha2 : a < k
      · simp only [ha2, if_true]
        by_cases hb : b = Memory.unlisted
        · simp only [hb, if_true]
          by_cases hx : x = a
          · subst hx
            have : PMap.get? x r = none := Memory.get?_none_of_lt h.2 (by omega)
            simp [Memory.read, PMap.get?, hk, this]
          · simp [hx]
        · simp only [hb, if_false]
          by_cases hx : x = a
          · simp [Memory.read, PMap.get?, hx]
          · simp [Memory.read, PMap.get?, hx, Ne.symm hx]
      · simp only [ha2, if_false]
        by_cases hx : k = x
        · subst hx
          have : ¬ k = a := hk
          simp [Memory.read, PMap.get?, this]
        · have := hr (by omega)
          simp only [Memory.read, PMap.get?, hx, if_false] at this ⊢
          exact this

/-- A read after a write (R16). -/
theorem Memory.read_write {m : Memory} (h : m.wf = true) (a : Nat) (b : Byte) (x : Nat) :
    (m.write a b).read x = if x = a then b else m.read x := Memory.read_write_from h (Nat.zero_le a) b x

/-- A write of bytes leaves every byte outside them alone. -/
theorem Memory.read_writeBytes_outside {m : Memory} (h : m.wf = true) (a : Nat) (bs : List Byte) (x : Nat)
    (hx : x < a ∨ a + bs.length ≤ x) : (m.writeBytes a bs).read x = m.read x := by
  induction bs generalizing m a with
  | nil => rfl
  | cons b bs ih =>
    simp only [List.length_cons] at hx
    rw [Memory.writeBytes, ih (Memory.wf_write h a b) (a + 1) (by omega), Memory.read_write h, if_neg (by omega)]

/-- A write of bytes puts them where it says. -/
theorem Memory.read_writeBytes_inside {m : Memory} (h : m.wf = true) (a : Nat) (bs : List Byte) (i : Nat) (hi : i < bs.length) :
    (m.writeBytes a bs).read (a + i) = bs[i] := by
  induction bs generalizing m a i with
  | nil => simp at hi
  | cons b bs ih =>
    rw [Memory.writeBytes]
    cases i with
    | zero =>
      rw [Memory.read_writeBytes_outside (Memory.wf_write h a b) (a + 1) bs (a + 0) (by omega), Memory.read_write h]
      simp
    | succ i =>
      have := ih (Memory.wf_write h a b) (a + 1) i (by simpa using hi)
      rw [show a + (i + 1) = a + 1 + i by omega, this]
      simp

end Sys2Proof.Machine
end

