-- ==== Sys2Proof/Laws/State.lean ====
section
/-! SUPPORT. One lemma per field of State and update: what an update leaves alone, and what it leaves in the field it writes. -/

namespace Sys2Proof.Machine

/-! ### State.setCore -/

@[simp] theorem State.setCore_mem (s : State) (k : Nat) (x : Core) : (s.setCore k x).mem = s.mem := rfl
@[simp] theorem State.setCore_poison (s : State) (k : Nat) (x : Core) : (s.setCore k x).poison = s.poison := rfl
@[simp] theorem State.setCore_clusters (s : State) (k : Nat) (x : Core) : (s.setCore k x).clusters = s.clusters := rfl
@[simp] theorem State.setCore_dies (s : State) (k : Nat) (x : Core) : (s.setCore k x).dies = s.dies := rfl
@[simp] theorem State.setCore_pkgs (s : State) (k : Nat) (x : Core) : (s.setCore k x).pkgs = s.pkgs := rfl
@[simp] theorem State.setCore_launches (s : State) (k : Nat) (x : Core) : (s.setCore k x).launches = s.launches := rfl
@[simp] theorem State.setCore_present (s : State) (k : Nat) (x : Core) : (s.setCore k x).present = s.present := rfl
@[simp] theorem State.setCore_nextLaunch (s : State) (k : Nat) (x : Core) : (s.setCore k x).nextLaunch = s.nextLaunch := rfl
@[simp] theorem State.setCore_nextSteer (s : State) (k : Nat) (x : Core) : (s.setCore k x).nextSteer = s.nextSteer := rfl
@[simp] theorem State.setCore_tick (s : State) (k : Nat) (x : Core) : (s.setCore k x).tick = s.tick := rfl
@[simp] theorem State.setCore_cur (s : State) (k : Nat) (x : Core) : (s.setCore k x).cur = s.cur := rfl
@[simp] theorem State.setCore_agenda (s : State) (k : Nat) (x : Core) : (s.setCore k x).agenda = s.agenda := rfl

/-! ### State.setCluster -/

@[simp] theorem State.setCluster_mem (s : State) (k : Nat) (x : Cluster) : (s.setCluster k x).mem = s.mem := rfl
@[simp] theorem State.setCluster_poison (s : State) (k : Nat) (x : Cluster) : (s.setCluster k x).poison = s.poison := rfl
@[simp] theorem State.setCluster_cores (s : State) (k : Nat) (x : Cluster) : (s.setCluster k x).cores = s.cores := rfl
@[simp] theorem State.setCluster_dies (s : State) (k : Nat) (x : Cluster) : (s.setCluster k x).dies = s.dies := rfl
@[simp] theorem State.setCluster_pkgs (s : State) (k : Nat) (x : Cluster) : (s.setCluster k x).pkgs = s.pkgs := rfl
@[simp] theorem State.setCluster_launches (s : State) (k : Nat) (x : Cluster) : (s.setCluster k x).launches = s.launches := rfl
@[simp] theorem State.setCluster_present (s : State) (k : Nat) (x : Cluster) : (s.setCluster k x).present = s.present := rfl
@[simp] theorem State.setCluster_nextLaunch (s : State) (k : Nat) (x : Cluster) : (s.setCluster k x).nextLaunch = s.nextLaunch := rfl
@[simp] theorem State.setCluster_nextSteer (s : State) (k : Nat) (x : Cluster) : (s.setCluster k x).nextSteer = s.nextSteer := rfl
@[simp] theorem State.setCluster_tick (s : State) (k : Nat) (x : Cluster) : (s.setCluster k x).tick = s.tick := rfl
@[simp] theorem State.setCluster_cur (s : State) (k : Nat) (x : Cluster) : (s.setCluster k x).cur = s.cur := rfl
@[simp] theorem State.setCluster_agenda (s : State) (k : Nat) (x : Cluster) : (s.setCluster k x).agenda = s.agenda := rfl

/-! ### State.setDie -/

@[simp] theorem State.setDie_mem (s : State) (k : Nat) (x : Die) : (s.setDie k x).mem = s.mem := rfl
@[simp] theorem State.setDie_poison (s : State) (k : Nat) (x : Die) : (s.setDie k x).poison = s.poison := rfl
@[simp] theorem State.setDie_cores (s : State) (k : Nat) (x : Die) : (s.setDie k x).cores = s.cores := rfl
@[simp] theorem State.setDie_clusters (s : State) (k : Nat) (x : Die) : (s.setDie k x).clusters = s.clusters := rfl
@[simp] theorem State.setDie_pkgs (s : State) (k : Nat) (x : Die) : (s.setDie k x).pkgs = s.pkgs := rfl
@[simp] theorem State.setDie_launches (s : State) (k : Nat) (x : Die) : (s.setDie k x).launches = s.launches := rfl
@[simp] theorem State.setDie_present (s : State) (k : Nat) (x : Die) : (s.setDie k x).present = s.present := rfl
@[simp] theorem State.setDie_nextLaunch (s : State) (k : Nat) (x : Die) : (s.setDie k x).nextLaunch = s.nextLaunch := rfl
@[simp] theorem State.setDie_nextSteer (s : State) (k : Nat) (x : Die) : (s.setDie k x).nextSteer = s.nextSteer := rfl
@[simp] theorem State.setDie_tick (s : State) (k : Nat) (x : Die) : (s.setDie k x).tick = s.tick := rfl
@[simp] theorem State.setDie_cur (s : State) (k : Nat) (x : Die) : (s.setDie k x).cur = s.cur := rfl
@[simp] theorem State.setDie_agenda (s : State) (k : Nat) (x : Die) : (s.setDie k x).agenda = s.agenda := rfl

/-! ### State.setPkg -/

@[simp] theorem State.setPkg_mem (s : State) (k : Nat) (x : Pkg) : (s.setPkg k x).mem = s.mem := rfl
@[simp] theorem State.setPkg_poison (s : State) (k : Nat) (x : Pkg) : (s.setPkg k x).poison = s.poison := rfl
@[simp] theorem State.setPkg_cores (s : State) (k : Nat) (x : Pkg) : (s.setPkg k x).cores = s.cores := rfl
@[simp] theorem State.setPkg_clusters (s : State) (k : Nat) (x : Pkg) : (s.setPkg k x).clusters = s.clusters := rfl
@[simp] theorem State.setPkg_dies (s : State) (k : Nat) (x : Pkg) : (s.setPkg k x).dies = s.dies := rfl
@[simp] theorem State.setPkg_launches (s : State) (k : Nat) (x : Pkg) : (s.setPkg k x).launches = s.launches := rfl
@[simp] theorem State.setPkg_present (s : State) (k : Nat) (x : Pkg) : (s.setPkg k x).present = s.present := rfl
@[simp] theorem State.setPkg_nextLaunch (s : State) (k : Nat) (x : Pkg) : (s.setPkg k x).nextLaunch = s.nextLaunch := rfl
@[simp] theorem State.setPkg_nextSteer (s : State) (k : Nat) (x : Pkg) : (s.setPkg k x).nextSteer = s.nextSteer := rfl
@[simp] theorem State.setPkg_tick (s : State) (k : Nat) (x : Pkg) : (s.setPkg k x).tick = s.tick := rfl
@[simp] theorem State.setPkg_cur (s : State) (k : Nat) (x : Pkg) : (s.setPkg k x).cur = s.cur := rfl
@[simp] theorem State.setPkg_agenda (s : State) (k : Nat) (x : Pkg) : (s.setPkg k x).agenda = s.agenda := rfl

/-! ### State.setLaunch -/

@[simp] theorem State.setLaunch_mem (s : State) (k : Nat) (x : Launch) : (s.setLaunch k x).mem = s.mem := rfl
@[simp] theorem State.setLaunch_poison (s : State) (k : Nat) (x : Launch) : (s.setLaunch k x).poison = s.poison := rfl
@[simp] theorem State.setLaunch_cores (s : State) (k : Nat) (x : Launch) : (s.setLaunch k x).cores = s.cores := rfl
@[simp] theorem State.setLaunch_clusters (s : State) (k : Nat) (x : Launch) : (s.setLaunch k x).clusters = s.clusters := rfl
@[simp] theorem State.setLaunch_dies (s : State) (k : Nat) (x : Launch) : (s.setLaunch k x).dies = s.dies := rfl
@[simp] theorem State.setLaunch_pkgs (s : State) (k : Nat) (x : Launch) : (s.setLaunch k x).pkgs = s.pkgs := rfl
@[simp] theorem State.setLaunch_present (s : State) (k : Nat) (x : Launch) : (s.setLaunch k x).present = s.present := rfl
@[simp] theorem State.setLaunch_nextLaunch (s : State) (k : Nat) (x : Launch) : (s.setLaunch k x).nextLaunch = s.nextLaunch := rfl
@[simp] theorem State.setLaunch_nextSteer (s : State) (k : Nat) (x : Launch) : (s.setLaunch k x).nextSteer = s.nextSteer := rfl
@[simp] theorem State.setLaunch_tick (s : State) (k : Nat) (x : Launch) : (s.setLaunch k x).tick = s.tick := rfl
@[simp] theorem State.setLaunch_cur (s : State) (k : Nat) (x : Launch) : (s.setLaunch k x).cur = s.cur := rfl
@[simp] theorem State.setLaunch_agenda (s : State) (k : Nat) (x : Launch) : (s.setLaunch k x).agenda = s.agenda := rfl

/-! ### State.setSlot -/

@[simp] theorem State.setSlot_mem (s : State) (l : Loc) (x : Slot) : (s.setSlot l x).mem = s.mem := rfl
@[simp] theorem State.setSlot_poison (s : State) (l : Loc) (x : Slot) : (s.setSlot l x).poison = s.poison := rfl
@[simp] theorem State.setSlot_clusters (s : State) (l : Loc) (x : Slot) : (s.setSlot l x).clusters = s.clusters := rfl
@[simp] theorem State.setSlot_dies (s : State) (l : Loc) (x : Slot) : (s.setSlot l x).dies = s.dies := rfl
@[simp] theorem State.setSlot_pkgs (s : State) (l : Loc) (x : Slot) : (s.setSlot l x).pkgs = s.pkgs := rfl
@[simp] theorem State.setSlot_launches (s : State) (l : Loc) (x : Slot) : (s.setSlot l x).launches = s.launches := rfl
@[simp] theorem State.setSlot_present (s : State) (l : Loc) (x : Slot) : (s.setSlot l x).present = s.present := rfl
@[simp] theorem State.setSlot_nextLaunch (s : State) (l : Loc) (x : Slot) : (s.setSlot l x).nextLaunch = s.nextLaunch := rfl
@[simp] theorem State.setSlot_nextSteer (s : State) (l : Loc) (x : Slot) : (s.setSlot l x).nextSteer = s.nextSteer := rfl
@[simp] theorem State.setSlot_tick (s : State) (l : Loc) (x : Slot) : (s.setSlot l x).tick = s.tick := rfl
@[simp] theorem State.setSlot_cur (s : State) (l : Loc) (x : Slot) : (s.setSlot l x).cur = s.cur := rfl
@[simp] theorem State.setSlot_agenda (s : State) (l : Loc) (x : Slot) : (s.setSlot l x).agenda = s.agenda := rfl

/-! ### State.setGrainAt -/

@[simp] theorem State.setGrainAt_mem (s : State) (l : Loc) (x : Grain) : (s.setGrainAt l x).mem = s.mem := rfl
@[simp] theorem State.setGrainAt_poison (s : State) (l : Loc) (x : Grain) : (s.setGrainAt l x).poison = s.poison := rfl
@[simp] theorem State.setGrainAt_clusters (s : State) (l : Loc) (x : Grain) : (s.setGrainAt l x).clusters = s.clusters := rfl
@[simp] theorem State.setGrainAt_dies (s : State) (l : Loc) (x : Grain) : (s.setGrainAt l x).dies = s.dies := rfl
@[simp] theorem State.setGrainAt_pkgs (s : State) (l : Loc) (x : Grain) : (s.setGrainAt l x).pkgs = s.pkgs := rfl
@[simp] theorem State.setGrainAt_launches (s : State) (l : Loc) (x : Grain) : (s.setGrainAt l x).launches = s.launches := rfl
@[simp] theorem State.setGrainAt_present (s : State) (l : Loc) (x : Grain) : (s.setGrainAt l x).present = s.present := rfl
@[simp] theorem State.setGrainAt_nextLaunch (s : State) (l : Loc) (x : Grain) : (s.setGrainAt l x).nextLaunch = s.nextLaunch := rfl
@[simp] theorem State.setGrainAt_nextSteer (s : State) (l : Loc) (x : Grain) : (s.setGrainAt l x).nextSteer = s.nextSteer := rfl
@[simp] theorem State.setGrainAt_tick (s : State) (l : Loc) (x : Grain) : (s.setGrainAt l x).tick = s.tick := rfl
@[simp] theorem State.setGrainAt_cur (s : State) (l : Loc) (x : Grain) : (s.setGrainAt l x).cur = s.cur := rfl
@[simp] theorem State.setGrainAt_agenda (s : State) (l : Loc) (x : Grain) : (s.setGrainAt l x).agenda = s.agenda := rfl

/-! ### State.setGrain -/

@[simp] theorem State.setGrain_mem (s : State) (x : Grain) : (s.setGrain x).mem = s.mem := rfl
@[simp] theorem State.setGrain_poison (s : State) (x : Grain) : (s.setGrain x).poison = s.poison := rfl
@[simp] theorem State.setGrain_clusters (s : State) (x : Grain) : (s.setGrain x).clusters = s.clusters := rfl
@[simp] theorem State.setGrain_dies (s : State) (x : Grain) : (s.setGrain x).dies = s.dies := rfl
@[simp] theorem State.setGrain_pkgs (s : State) (x : Grain) : (s.setGrain x).pkgs = s.pkgs := rfl
@[simp] theorem State.setGrain_launches (s : State) (x : Grain) : (s.setGrain x).launches = s.launches := rfl
@[simp] theorem State.setGrain_present (s : State) (x : Grain) : (s.setGrain x).present = s.present := rfl
@[simp] theorem State.setGrain_nextLaunch (s : State) (x : Grain) : (s.setGrain x).nextLaunch = s.nextLaunch := rfl
@[simp] theorem State.setGrain_nextSteer (s : State) (x : Grain) : (s.setGrain x).nextSteer = s.nextSteer := rfl
@[simp] theorem State.setGrain_tick (s : State) (x : Grain) : (s.setGrain x).tick = s.tick := rfl
@[simp] theorem State.setGrain_cur (s : State) (x : Grain) : (s.setGrain x).cur = s.cur := rfl
@[simp] theorem State.setGrain_agenda (s : State) (x : Grain) : (s.setGrain x).agenda = s.agenda := rfl

/-! ### State.setCurCore -/

@[simp] theorem State.setCurCore_mem (s : State) (x : Core) : (s.setCurCore x).mem = s.mem := rfl
@[simp] theorem State.setCurCore_poison (s : State) (x : Core) : (s.setCurCore x).poison = s.poison := rfl
@[simp] theorem State.setCurCore_clusters (s : State) (x : Core) : (s.setCurCore x).clusters = s.clusters := rfl
@[simp] theorem State.setCurCore_dies (s : State) (x : Core) : (s.setCurCore x).dies = s.dies := rfl
@[simp] theorem State.setCurCore_pkgs (s : State) (x : Core) : (s.setCurCore x).pkgs = s.pkgs := rfl
@[simp] theorem State.setCurCore_launches (s : State) (x : Core) : (s.setCurCore x).launches = s.launches := rfl
@[simp] theorem State.setCurCore_present (s : State) (x : Core) : (s.setCurCore x).present = s.present := rfl
@[simp] theorem State.setCurCore_nextLaunch (s : State) (x : Core) : (s.setCurCore x).nextLaunch = s.nextLaunch := rfl
@[simp] theorem State.setCurCore_nextSteer (s : State) (x : Core) : (s.setCurCore x).nextSteer = s.nextSteer := rfl
@[simp] theorem State.setCurCore_tick (s : State) (x : Core) : (s.setCurCore x).tick = s.tick := rfl
@[simp] theorem State.setCurCore_cur (s : State) (x : Core) : (s.setCurCore x).cur = s.cur := rfl
@[simp] theorem State.setCurCore_agenda (s : State) (x : Core) : (s.setCurCore x).agenda = s.agenda := rfl

/-! ### State.setReg -/

@[simp] theorem State.setReg_mem (s : State) (n : Nat) (x : Word) : (s.setReg n x).mem = s.mem := rfl
@[simp] theorem State.setReg_poison (s : State) (n : Nat) (x : Word) : (s.setReg n x).poison = s.poison := rfl
@[simp] theorem State.setReg_clusters (s : State) (n : Nat) (x : Word) : (s.setReg n x).clusters = s.clusters := rfl
@[simp] theorem State.setReg_dies (s : State) (n : Nat) (x : Word) : (s.setReg n x).dies = s.dies := rfl
@[simp] theorem State.setReg_pkgs (s : State) (n : Nat) (x : Word) : (s.setReg n x).pkgs = s.pkgs := rfl
@[simp] theorem State.setReg_launches (s : State) (n : Nat) (x : Word) : (s.setReg n x).launches = s.launches := rfl
@[simp] theorem State.setReg_present (s : State) (n : Nat) (x : Word) : (s.setReg n x).present = s.present := rfl
@[simp] theorem State.setReg_nextLaunch (s : State) (n : Nat) (x : Word) : (s.setReg n x).nextLaunch = s.nextLaunch := rfl
@[simp] theorem State.setReg_nextSteer (s : State) (n : Nat) (x : Word) : (s.setReg n x).nextSteer = s.nextSteer := rfl
@[simp] theorem State.setReg_tick (s : State) (n : Nat) (x : Word) : (s.setReg n x).tick = s.tick := rfl
@[simp] theorem State.setReg_cur (s : State) (n : Nat) (x : Word) : (s.setReg n x).cur = s.cur := rfl
@[simp] theorem State.setReg_agenda (s : State) (n : Nat) (x : Word) : (s.setReg n x).agenda = s.agenda := rfl

/-! ### State.issued -/

@[simp] theorem State.issued_mem (s : State) (i : Instr) : (s.issued i).mem = s.mem := rfl
@[simp] theorem State.issued_poison (s : State) (i : Instr) : (s.issued i).poison = s.poison := rfl
@[simp] theorem State.issued_clusters (s : State) (i : Instr) : (s.issued i).clusters = s.clusters := rfl
@[simp] theorem State.issued_dies (s : State) (i : Instr) : (s.issued i).dies = s.dies := rfl
@[simp] theorem State.issued_pkgs (s : State) (i : Instr) : (s.issued i).pkgs = s.pkgs := rfl
@[simp] theorem State.issued_launches (s : State) (i : Instr) : (s.issued i).launches = s.launches := rfl
@[simp] theorem State.issued_present (s : State) (i : Instr) : (s.issued i).present = s.present := rfl
@[simp] theorem State.issued_nextLaunch (s : State) (i : Instr) : (s.issued i).nextLaunch = s.nextLaunch := rfl
@[simp] theorem State.issued_nextSteer (s : State) (i : Instr) : (s.issued i).nextSteer = s.nextSteer := rfl
@[simp] theorem State.issued_tick (s : State) (i : Instr) : (s.issued i).tick = s.tick := rfl
@[simp] theorem State.issued_cur (s : State) (i : Instr) : (s.issued i).cur = s.cur := rfl

/-! ### State.dueOnce -/

@[simp] theorem State.dueOnce_mem (s : State) (e : Event) : (s.dueOnce e).mem = s.mem := rfl
@[simp] theorem State.dueOnce_poison (s : State) (e : Event) : (s.dueOnce e).poison = s.poison := rfl
@[simp] theorem State.dueOnce_cores (s : State) (e : Event) : (s.dueOnce e).cores = s.cores := rfl
@[simp] theorem State.dueOnce_clusters (s : State) (e : Event) : (s.dueOnce e).clusters = s.clusters := rfl
@[simp] theorem State.dueOnce_dies (s : State) (e : Event) : (s.dueOnce e).dies = s.dies := rfl
@[simp] theorem State.dueOnce_pkgs (s : State) (e : Event) : (s.dueOnce e).pkgs = s.pkgs := rfl
@[simp] theorem State.dueOnce_launches (s : State) (e : Event) : (s.dueOnce e).launches = s.launches := rfl
@[simp] theorem State.dueOnce_present (s : State) (e : Event) : (s.dueOnce e).present = s.present := rfl
@[simp] theorem State.dueOnce_nextLaunch (s : State) (e : Event) : (s.dueOnce e).nextLaunch = s.nextLaunch := rfl
@[simp] theorem State.dueOnce_nextSteer (s : State) (e : Event) : (s.dueOnce e).nextSteer = s.nextSteer := rfl
@[simp] theorem State.dueOnce_tick (s : State) (e : Event) : (s.dueOnce e).tick = s.tick := rfl
@[simp] theorem State.dueOnce_cur (s : State) (e : Event) : (s.dueOnce e).cur = s.cur := rfl

/-! ### State.due -/

@[simp] theorem State.due_mem (s : State) (es : List Event) : (s.due es).mem = s.mem := rfl
@[simp] theorem State.due_poison (s : State) (es : List Event) : (s.due es).poison = s.poison := rfl
@[simp] theorem State.due_cores (s : State) (es : List Event) : (s.due es).cores = s.cores := rfl
@[simp] theorem State.due_clusters (s : State) (es : List Event) : (s.due es).clusters = s.clusters := rfl
@[simp] theorem State.due_dies (s : State) (es : List Event) : (s.due es).dies = s.dies := rfl
@[simp] theorem State.due_pkgs (s : State) (es : List Event) : (s.due es).pkgs = s.pkgs := rfl
@[simp] theorem State.due_launches (s : State) (es : List Event) : (s.due es).launches = s.launches := rfl
@[simp] theorem State.due_present (s : State) (es : List Event) : (s.due es).present = s.present := rfl
@[simp] theorem State.due_nextLaunch (s : State) (es : List Event) : (s.due es).nextLaunch = s.nextLaunch := rfl
@[simp] theorem State.due_nextSteer (s : State) (es : List Event) : (s.due es).nextSteer = s.nextSteer := rfl
@[simp] theorem State.due_tick (s : State) (es : List Event) : (s.due es).tick = s.tick := rfl
@[simp] theorem State.due_cur (s : State) (es : List Event) : (s.due es).cur = s.cur := rfl

/-! ### State.ticked -/

@[simp] theorem State.ticked_mem (s : State) : (s.ticked).mem = s.mem := rfl
@[simp] theorem State.ticked_poison (s : State) : (s.ticked).poison = s.poison := rfl
@[simp] theorem State.ticked_cores (s : State) : (s.ticked).cores = s.cores := rfl
@[simp] theorem State.ticked_clusters (s : State) : (s.ticked).clusters = s.clusters := rfl
@[simp] theorem State.ticked_dies (s : State) : (s.ticked).dies = s.dies := rfl
@[simp] theorem State.ticked_pkgs (s : State) : (s.ticked).pkgs = s.pkgs := rfl
@[simp] theorem State.ticked_launches (s : State) : (s.ticked).launches = s.launches := rfl
@[simp] theorem State.ticked_present (s : State) : (s.ticked).present = s.present := rfl
@[simp] theorem State.ticked_nextLaunch (s : State) : (s.ticked).nextLaunch = s.nextLaunch := rfl
@[simp] theorem State.ticked_nextSteer (s : State) : (s.ticked).nextSteer = s.nextSteer := rfl
@[simp] theorem State.ticked_cur (s : State) : (s.ticked).cur = s.cur := rfl
@[simp] theorem State.ticked_agenda (s : State) : (s.ticked).agenda = s.agenda := rfl

/-! ### State.elapse -/

@[simp] theorem State.elapse_mem (s : State) (n : Nat) : (s.elapse n).mem = s.mem := rfl
@[simp] theorem State.elapse_poison (s : State) (n : Nat) : (s.elapse n).poison = s.poison := rfl
@[simp] theorem State.elapse_clusters (s : State) (n : Nat) : (s.elapse n).clusters = s.clusters := rfl
@[simp] theorem State.elapse_dies (s : State) (n : Nat) : (s.elapse n).dies = s.dies := rfl
@[simp] theorem State.elapse_pkgs (s : State) (n : Nat) : (s.elapse n).pkgs = s.pkgs := rfl
@[simp] theorem State.elapse_launches (s : State) (n : Nat) : (s.elapse n).launches = s.launches := rfl
@[simp] theorem State.elapse_present (s : State) (n : Nat) : (s.elapse n).present = s.present := rfl
@[simp] theorem State.elapse_nextLaunch (s : State) (n : Nat) : (s.elapse n).nextLaunch = s.nextLaunch := rfl
@[simp] theorem State.elapse_nextSteer (s : State) (n : Nat) : (s.elapse n).nextSteer = s.nextSteer := rfl
@[simp] theorem State.elapse_tick (s : State) (n : Nat) : (s.elapse n).tick = s.tick := rfl
@[simp] theorem State.elapse_cur (s : State) (n : Nat) : (s.elapse n).cur = s.cur := rfl
@[simp] theorem State.elapse_agenda (s : State) (n : Nat) : (s.elapse n).agenda = s.agenda := rfl

/-! ### State.setCtx -/

@[simp] theorem State.setCtx_mem (s : State) (n : Nat) (c : BitVec 12) (x : Context) : (s.setCtx n c x).mem = s.mem := rfl
@[simp] theorem State.setCtx_poison (s : State) (n : Nat) (c : BitVec 12) (x : Context) : (s.setCtx n c x).poison = s.poison := rfl
@[simp] theorem State.setCtx_cores (s : State) (n : Nat) (c : BitVec 12) (x : Context) : (s.setCtx n c x).cores = s.cores := rfl
@[simp] theorem State.setCtx_clusters (s : State) (n : Nat) (c : BitVec 12) (x : Context) : (s.setCtx n c x).clusters = s.clusters := rfl
@[simp] theorem State.setCtx_dies (s : State) (n : Nat) (c : BitVec 12) (x : Context) : (s.setCtx n c x).dies = s.dies := rfl
@[simp] theorem State.setCtx_launches (s : State) (n : Nat) (c : BitVec 12) (x : Context) : (s.setCtx n c x).launches = s.launches := rfl
@[simp] theorem State.setCtx_present (s : State) (n : Nat) (c : BitVec 12) (x : Context) : (s.setCtx n c x).present = s.present := rfl
@[simp] theorem State.setCtx_nextLaunch (s : State) (n : Nat) (c : BitVec 12) (x : Context) : (s.setCtx n c x).nextLaunch = s.nextLaunch := rfl
@[simp] theorem State.setCtx_nextSteer (s : State) (n : Nat) (c : BitVec 12) (x : Context) : (s.setCtx n c x).nextSteer = s.nextSteer := rfl
@[simp] theorem State.setCtx_tick (s : State) (n : Nat) (c : BitVec 12) (x : Context) : (s.setCtx n c x).tick = s.tick := rfl
@[simp] theorem State.setCtx_cur (s : State) (n : Nat) (c : BitVec 12) (x : Context) : (s.setCtx n c x).cur = s.cur := rfl
@[simp] theorem State.setCtx_agenda (s : State) (n : Nat) (c : BitVec 12) (x : Context) : (s.setCtx n c x).agenda = s.agenda := rfl

/-! ### State.hostWrite -/

@[simp] theorem State.hostWrite_poison (s : State) (n a : Nat) (bs : List Byte) : (s.hostWrite n a bs).poison = s.poison := rfl
@[simp] theorem State.hostWrite_cores (s : State) (n a : Nat) (bs : List Byte) : (s.hostWrite n a bs).cores = s.cores := rfl
@[simp] theorem State.hostWrite_clusters (s : State) (n a : Nat) (bs : List Byte) : (s.hostWrite n a bs).clusters = s.clusters := rfl
@[simp] theorem State.hostWrite_dies (s : State) (n a : Nat) (bs : List Byte) : (s.hostWrite n a bs).dies = s.dies := rfl
@[simp] theorem State.hostWrite_pkgs (s : State) (n a : Nat) (bs : List Byte) : (s.hostWrite n a bs).pkgs = s.pkgs := rfl
@[simp] theorem State.hostWrite_launches (s : State) (n a : Nat) (bs : List Byte) : (s.hostWrite n a bs).launches = s.launches := rfl
@[simp] theorem State.hostWrite_present (s : State) (n a : Nat) (bs : List Byte) : (s.hostWrite n a bs).present = s.present := rfl
@[simp] theorem State.hostWrite_nextLaunch (s : State) (n a : Nat) (bs : List Byte) : (s.hostWrite n a bs).nextLaunch = s.nextLaunch := rfl
@[simp] theorem State.hostWrite_nextSteer (s : State) (n a : Nat) (bs : List Byte) : (s.hostWrite n a bs).nextSteer = s.nextSteer := rfl
@[simp] theorem State.hostWrite_tick (s : State) (n a : Nat) (bs : List Byte) : (s.hostWrite n a bs).tick = s.tick := rfl
@[simp] theorem State.hostWrite_cur (s : State) (n a : Nat) (bs : List Byte) : (s.hostWrite n a bs).cur = s.cur := rfl
@[simp] theorem State.hostWrite_agenda (s : State) (n a : Nat) (bs : List Byte) : (s.hostWrite n a bs).agenda = s.agenda := rfl

/-! ### State.msix -/

@[simp] theorem State.msix_mem (s : State) (n v : Nat) : (s.msix n v).mem = s.mem := rfl
@[simp] theorem State.msix_poison (s : State) (n v : Nat) : (s.msix n v).poison = s.poison := rfl
@[simp] theorem State.msix_cores (s : State) (n v : Nat) : (s.msix n v).cores = s.cores := rfl
@[simp] theorem State.msix_clusters (s : State) (n v : Nat) : (s.msix n v).clusters = s.clusters := rfl
@[simp] theorem State.msix_dies (s : State) (n v : Nat) : (s.msix n v).dies = s.dies := rfl
@[simp] theorem State.msix_launches (s : State) (n v : Nat) : (s.msix n v).launches = s.launches := rfl
@[simp] theorem State.msix_present (s : State) (n v : Nat) : (s.msix n v).present = s.present := rfl
@[simp] theorem State.msix_nextLaunch (s : State) (n v : Nat) : (s.msix n v).nextLaunch = s.nextLaunch := rfl
@[simp] theorem State.msix_nextSteer (s : State) (n v : Nat) : (s.msix n v).nextSteer = s.nextSteer := rfl
@[simp] theorem State.msix_tick (s : State) (n v : Nat) : (s.msix n v).tick = s.tick := rfl
@[simp] theorem State.msix_cur (s : State) (n v : Nat) : (s.msix n v).cur = s.cur := rfl
@[simp] theorem State.msix_agenda (s : State) (n v : Nat) : (s.msix n v).agenda = s.agenda := rfl

/-! ### State.logged -/

@[simp] theorem State.logged_mem (s : State) (n : Nat) (f : LifeLog → LifeLog) : (s.logged n f).mem = s.mem := rfl
@[simp] theorem State.logged_poison (s : State) (n : Nat) (f : LifeLog → LifeLog) : (s.logged n f).poison = s.poison := rfl
@[simp] theorem State.logged_cores (s : State) (n : Nat) (f : LifeLog → LifeLog) : (s.logged n f).cores = s.cores := rfl
@[simp] theorem State.logged_clusters (s : State) (n : Nat) (f : LifeLog → LifeLog) : (s.logged n f).clusters = s.clusters := rfl
@[simp] theorem State.logged_dies (s : State) (n : Nat) (f : LifeLog → LifeLog) : (s.logged n f).dies = s.dies := rfl
@[simp] theorem State.logged_launches (s : State) (n : Nat) (f : LifeLog → LifeLog) : (s.logged n f).launches = s.launches := rfl
@[simp] theorem State.logged_present (s : State) (n : Nat) (f : LifeLog → LifeLog) : (s.logged n f).present = s.present := rfl
@[simp] theorem State.logged_nextLaunch (s : State) (n : Nat) (f : LifeLog → LifeLog) : (s.logged n f).nextLaunch = s.nextLaunch := rfl
@[simp] theorem State.logged_nextSteer (s : State) (n : Nat) (f : LifeLog → LifeLog) : (s.logged n f).nextSteer = s.nextSteer := rfl
@[simp] theorem State.logged_tick (s : State) (n : Nat) (f : LifeLog → LifeLog) : (s.logged n f).tick = s.tick := rfl
@[simp] theorem State.logged_cur (s : State) (n : Nat) (f : LifeLog → LifeLog) : (s.logged n f).cur = s.cur := rfl
@[simp] theorem State.logged_agenda (s : State) (n : Nat) (f : LifeLog → LifeLog) : (s.logged n f).agenda = s.agenda := rfl

/-! ### State.setSlate -/

@[simp] theorem State.setSlate_mem (s : State) (g k : Nat) (x : Slate) : (s.setSlate g k x).mem = s.mem := rfl
@[simp] theorem State.setSlate_poison (s : State) (g k : Nat) (x : Slate) : (s.setSlate g k x).poison = s.poison := rfl
@[simp] theorem State.setSlate_cores (s : State) (g k : Nat) (x : Slate) : (s.setSlate g k x).cores = s.cores := rfl
@[simp] theorem State.setSlate_dies (s : State) (g k : Nat) (x : Slate) : (s.setSlate g k x).dies = s.dies := rfl
@[simp] theorem State.setSlate_pkgs (s : State) (g k : Nat) (x : Slate) : (s.setSlate g k x).pkgs = s.pkgs := rfl
@[simp] theorem State.setSlate_launches (s : State) (g k : Nat) (x : Slate) : (s.setSlate g k x).launches = s.launches := rfl
@[simp] theorem State.setSlate_present (s : State) (g k : Nat) (x : Slate) : (s.setSlate g k x).present = s.present := rfl
@[simp] theorem State.setSlate_nextLaunch (s : State) (g k : Nat) (x : Slate) : (s.setSlate g k x).nextLaunch = s.nextLaunch := rfl
@[simp] theorem State.setSlate_nextSteer (s : State) (g k : Nat) (x : Slate) : (s.setSlate g k x).nextSteer = s.nextSteer := rfl
@[simp] theorem State.setSlate_tick (s : State) (g k : Nat) (x : Slate) : (s.setSlate g k x).tick = s.tick := rfl
@[simp] theorem State.setSlate_cur (s : State) (g k : Nat) (x : Slate) : (s.setSlate g k x).cur = s.cur := rfl
@[simp] theorem State.setSlate_agenda (s : State) (g k : Nat) (x : Slate) : (s.setSlate g k x).agenda = s.agenda := rfl

/-! ### State.setQueue -/

@[simp] theorem State.setQueue_mem (s : State) (n : Nat) (q : BitVec 16) (x : Queue) : (s.setQueue n q x).mem = s.mem := rfl
@[simp] theorem State.setQueue_poison (s : State) (n : Nat) (q : BitVec 16) (x : Queue) : (s.setQueue n q x).poison = s.poison := rfl
@[simp] theorem State.setQueue_cores (s : State) (n : Nat) (q : BitVec 16) (x : Queue) : (s.setQueue n q x).cores = s.cores := rfl
@[simp] theorem State.setQueue_clusters (s : State) (n : Nat) (q : BitVec 16) (x : Queue) : (s.setQueue n q x).clusters = s.clusters := rfl
@[simp] theorem State.setQueue_dies (s : State) (n : Nat) (q : BitVec 16) (x : Queue) : (s.setQueue n q x).dies = s.dies := rfl
@[simp] theorem State.setQueue_launches (s : State) (n : Nat) (q : BitVec 16) (x : Queue) : (s.setQueue n q x).launches = s.launches := rfl
@[simp] theorem State.setQueue_present (s : State) (n : Nat) (q : BitVec 16) (x : Queue) : (s.setQueue n q x).present = s.present := rfl
@[simp] theorem State.setQueue_nextLaunch (s : State) (n : Nat) (q : BitVec 16) (x : Queue) : (s.setQueue n q x).nextLaunch = s.nextLaunch := rfl
@[simp] theorem State.setQueue_nextSteer (s : State) (n : Nat) (q : BitVec 16) (x : Queue) : (s.setQueue n q x).nextSteer = s.nextSteer := rfl
@[simp] theorem State.setQueue_tick (s : State) (n : Nat) (q : BitVec 16) (x : Queue) : (s.setQueue n q x).tick = s.tick := rfl
@[simp] theorem State.setQueue_cur (s : State) (n : Nat) (q : BitVec 16) (x : Queue) : (s.setQueue n q x).cur = s.cur := rfl
@[simp] theorem State.setQueue_agenda (s : State) (n : Nat) (q : BitVec 16) (x : Queue) : (s.setQueue n q x).agenda = s.agenda := rfl

/-! ### State.onPort -/

@[simp] theorem State.onPort_mem (s : State) (n : Nat) (i : Fin 6) (f : Port → Port) : (s.onPort n i f).mem = s.mem := rfl
@[simp] theorem State.onPort_poison (s : State) (n : Nat) (i : Fin 6) (f : Port → Port) : (s.onPort n i f).poison = s.poison := rfl
@[simp] theorem State.onPort_cores (s : State) (n : Nat) (i : Fin 6) (f : Port → Port) : (s.onPort n i f).cores = s.cores := rfl
@[simp] theorem State.onPort_clusters (s : State) (n : Nat) (i : Fin 6) (f : Port → Port) : (s.onPort n i f).clusters = s.clusters := rfl
@[simp] theorem State.onPort_dies (s : State) (n : Nat) (i : Fin 6) (f : Port → Port) : (s.onPort n i f).dies = s.dies := rfl
@[simp] theorem State.onPort_launches (s : State) (n : Nat) (i : Fin 6) (f : Port → Port) : (s.onPort n i f).launches = s.launches := rfl
@[simp] theorem State.onPort_present (s : State) (n : Nat) (i : Fin 6) (f : Port → Port) : (s.onPort n i f).present = s.present := rfl
@[simp] theorem State.onPort_nextLaunch (s : State) (n : Nat) (i : Fin 6) (f : Port → Port) : (s.onPort n i f).nextLaunch = s.nextLaunch := rfl
@[simp] theorem State.onPort_nextSteer (s : State) (n : Nat) (i : Fin 6) (f : Port → Port) : (s.onPort n i f).nextSteer = s.nextSteer := rfl
@[simp] theorem State.onPort_tick (s : State) (n : Nat) (i : Fin 6) (f : Port → Port) : (s.onPort n i f).tick = s.tick := rfl
@[simp] theorem State.onPort_cur (s : State) (n : Nat) (i : Fin 6) (f : Port → Port) : (s.onPort n i f).cur = s.cur := rfl
@[simp] theorem State.onPort_agenda (s : State) (n : Nat) (i : Fin 6) (f : Port → Port) : (s.onPort n i f).agenda = s.agenda := rfl

/-! ### Reading what was written -/

@[simp] theorem State.core_setCore_self (s : State) (k : Nat) (x : Core) : (s.setCore k x).core k = x := by
  simp [State.core, State.setCore]
theorem State.core_setCore_ne (s : State) {j k : Nat} (h : j ≠ k) (x : Core) : (s.setCore k x).core j = s.core j := by
  simp [State.core, State.setCore, PMap.get?_set_ne h]
@[simp] theorem State.cluster_setCluster_self (s : State) (k : Nat) (x : Cluster) : (s.setCluster k x).cluster k = x := by
  simp [State.cluster, State.setCluster]
theorem State.cluster_setCluster_ne (s : State) {j k : Nat} (h : j ≠ k) (x : Cluster) : (s.setCluster k x).cluster j = s.cluster j := by
  simp [State.cluster, State.setCluster, PMap.get?_set_ne h]
@[simp] theorem State.die_setDie_self (s : State) (k : Nat) (x : Die) : (s.setDie k x).die k = x := by
  simp [State.die, State.setDie]
theorem State.die_setDie_ne (s : State) {j k : Nat} (h : j ≠ k) (x : Die) : (s.setDie k x).die j = s.die j := by
  simp [State.die, State.setDie, PMap.get?_set_ne h]
@[simp] theorem State.pkg_setPkg_self (s : State) (k : Nat) (x : Pkg) : (s.setPkg k x).pkg k = x := by
  simp [State.pkg, State.setPkg]
theorem State.pkg_setPkg_ne (s : State) {j k : Nat} (h : j ≠ k) (x : Pkg) : (s.setPkg k x).pkg j = s.pkg j := by
  simp [State.pkg, State.setPkg, PMap.get?_set_ne h]
@[simp] theorem State.launch_setLaunch_self (s : State) (k : Nat) (x : Launch) : (s.setLaunch k x).launch k = x := by
  simp [State.launch, State.setLaunch]
theorem State.launch_setLaunch_ne (s : State) {j k : Nat} (h : j ≠ k) (x : Launch) : (s.setLaunch k x).launch j = s.launch j := by
  simp [State.launch, State.setLaunch, PMap.get?_set_ne h]
@[simp] theorem State.core_setCluster (s : State) (k j : Nat) (x : Cluster) : (s.setCluster k x).core j = s.core j := rfl
@[simp] theorem State.core_setDie (s : State) (k j : Nat) (x : Die) : (s.setDie k x).core j = s.core j := rfl
@[simp] theorem State.core_setPkg (s : State) (k j : Nat) (x : Pkg) : (s.setPkg k x).core j = s.core j := rfl
@[simp] theorem State.core_setLaunch (s : State) (k j : Nat) (x : Launch) : (s.setLaunch k x).core j = s.core j := rfl
@[simp] theorem State.core_due (s : State) (es : List Event) (j : Nat) : (s.due es).core j = s.core j := rfl
@[simp] theorem State.core_ticked (s : State) (j : Nat) : s.ticked.core j = s.core j := rfl
@[simp] theorem State.cluster_setCore (s : State) (k j : Nat) (x : Core) : (s.setCore k x).cluster j = s.cluster j := rfl
@[simp] theorem State.cluster_setDie (s : State) (k j : Nat) (x : Die) : (s.setDie k x).cluster j = s.cluster j := rfl
@[simp] theorem State.cluster_setPkg (s : State) (k j : Nat) (x : Pkg) : (s.setPkg k x).cluster j = s.cluster j := rfl
@[simp] theorem State.cluster_setLaunch (s : State) (k j : Nat) (x : Launch) : (s.setLaunch k x).cluster j = s.cluster j := rfl
@[simp] theorem State.cluster_due (s : State) (es : List Event) (j : Nat) : (s.due es).cluster j = s.cluster j := rfl
@[simp] theorem State.cluster_ticked (s : State) (j : Nat) : s.ticked.cluster j = s.cluster j := rfl
@[simp] theorem State.cluster_setSlot (s : State) (l : Loc) (x : Slot) (j : Nat) : (s.setSlot l x).cluster j = s.cluster j := rfl
@[simp] theorem State.cluster_setGrainAt (s : State) (l : Loc) (x : Grain) (j : Nat) : (s.setGrainAt l x).cluster j = s.cluster j := rfl
@[simp] theorem State.cluster_setGrain (s : State) (x : Grain) (j : Nat) : (s.setGrain x).cluster j = s.cluster j := rfl
@[simp] theorem State.die_setCore (s : State) (k j : Nat) (x : Core) : (s.setCore k x).die j = s.die j := rfl
@[simp] theorem State.die_setCluster (s : State) (k j : Nat) (x : Cluster) : (s.setCluster k x).die j = s.die j := rfl
@[simp] theorem State.die_setPkg (s : State) (k j : Nat) (x : Pkg) : (s.setPkg k x).die j = s.die j := rfl
@[simp] theorem State.die_setLaunch (s : State) (k j : Nat) (x : Launch) : (s.setLaunch k x).die j = s.die j := rfl
@[simp] theorem State.die_due (s : State) (es : List Event) (j : Nat) : (s.due es).die j = s.die j := rfl
@[simp] theorem State.die_ticked (s : State) (j : Nat) : s.ticked.die j = s.die j := rfl
@[simp] theorem State.die_setSlot (s : State) (l : Loc) (x : Slot) (j : Nat) : (s.setSlot l x).die j = s.die j := rfl
@[simp] theorem State.die_setGrainAt (s : State) (l : Loc) (x : Grain) (j : Nat) : (s.setGrainAt l x).die j = s.die j := rfl
@[simp] theorem State.die_setGrain (s : State) (x : Grain) (j : Nat) : (s.setGrain x).die j = s.die j := rfl
@[simp] theorem State.pkg_setCore (s : State) (k j : Nat) (x : Core) : (s.setCore k x).pkg j = s.pkg j := rfl
@[simp] theorem State.pkg_setCluster (s : State) (k j : Nat) (x : Cluster) : (s.setCluster k x).pkg j = s.pkg j := rfl
@[simp] theorem State.pkg_setDie (s : State) (k j : Nat) (x : Die) : (s.setDie k x).pkg j = s.pkg j := rfl
@[simp] theorem State.pkg_setLaunch (s : State) (k j : Nat) (x : Launch) : (s.setLaunch k x).pkg j = s.pkg j := rfl
@[simp] theorem State.pkg_due (s : State) (es : List Event) (j : Nat) : (s.due es).pkg j = s.pkg j := rfl
@[simp] theorem State.pkg_ticked (s : State) (j : Nat) : s.ticked.pkg j = s.pkg j := rfl
@[simp] theorem State.pkg_setSlot (s : State) (l : Loc) (x : Slot) (j : Nat) : (s.setSlot l x).pkg j = s.pkg j := rfl
@[simp] theorem State.pkg_setGrainAt (s : State) (l : Loc) (x : Grain) (j : Nat) : (s.setGrainAt l x).pkg j = s.pkg j := rfl
@[simp] theorem State.pkg_setGrain (s : State) (x : Grain) (j : Nat) : (s.setGrain x).pkg j = s.pkg j := rfl
@[simp] theorem State.launch_setCore (s : State) (k j : Nat) (x : Core) : (s.setCore k x).launch j = s.launch j := rfl
@[simp] theorem State.launch_setCluster (s : State) (k j : Nat) (x : Cluster) : (s.setCluster k x).launch j = s.launch j := rfl
@[simp] theorem State.launch_setDie (s : State) (k j : Nat) (x : Die) : (s.setDie k x).launch j = s.launch j := rfl
@[simp] theorem State.launch_setPkg (s : State) (k j : Nat) (x : Pkg) : (s.setPkg k x).launch j = s.launch j := rfl
@[simp] theorem State.launch_due (s : State) (es : List Event) (j : Nat) : (s.due es).launch j = s.launch j := rfl
@[simp] theorem State.launch_ticked (s : State) (j : Nat) : s.ticked.launch j = s.launch j := rfl
@[simp] theorem State.launch_setSlot (s : State) (l : Loc) (x : Slot) (j : Nat) : (s.setSlot l x).launch j = s.launch j := rfl
@[simp] theorem State.launch_setGrainAt (s : State) (l : Loc) (x : Grain) (j : Nat) : (s.setGrainAt l x).launch j = s.launch j := rfl
@[simp] theorem State.launch_setGrain (s : State) (x : Grain) (j : Nat) : (s.setGrain x).launch j = s.launch j := rfl
@[simp] theorem State.due_agenda (s : State) (es : List Event) : (s.due es).agenda = s.agenda ++ es := rfl
@[simp] theorem State.ticked_tick (s : State) : s.ticked.tick = s.tick + 1 := rfl

/-! ### Slots and grains -/

@[simp] theorem State.slotAt_setSlot_self (s : State) (l : Loc) (x : Slot) : (s.setSlot l x).slotAt l = x := by
  simp [State.slotAt, State.setSlot]
theorem State.slotAt_setSlot_ne (s : State) {l l' : Loc} (h : l' ≠ l) (x : Slot) : (s.setSlot l x).slotAt l' = s.slotAt l' := by
  by_cases hk : l'.core = l.core
  · have hs : l'.slot.val ≠ l.slot.val := fun e => h (by cases l; cases l'; simp_all [Fin.ext_iff])
    simp only [State.slotAt, State.setSlot, hk, State.core_setCore_self]
    simp [Vector.getElem_set_ne, Ne.symm hs]
  · simp [State.slotAt, State.setSlot, State.core_setCore_ne _ hk]
@[simp] theorem State.grainAt_setGrainAt_self (s : State) (l : Loc) (g : Grain) : (s.setGrainAt l g).grainAt l = g := by
  simp [State.grainAt, State.setGrainAt]
theorem State.grainAt_setGrainAt_ne (s : State) {l l' : Loc} (h : l' ≠ l) (g : Grain) :
    (s.setGrainAt l g).grainAt l' = s.grainAt l' := by
  simp [State.grainAt, State.setGrainAt, State.slotAt_setSlot_ne s h]
@[simp] theorem State.grain_setGrain (s : State) (g : Grain) : (s.setGrain g).grain = g := by
  simp [State.grain, State.setGrain, State.grainAt, State.setGrainAt, State.setSlot, State.slotAt]
theorem State.setCore_setCore (s : State) (k : Nat) (x y : Core) : (s.setCore k x).setCore k y = s.setCore k y := by
  simp [State.setCore, PMap.set_set]
@[simp] theorem State.setGrainAt_setGrainAt (s : State) (l : Loc) (g h : Grain) : (s.setGrainAt l g).setGrainAt l h = s.setGrainAt l h := by
  simp [State.setGrainAt, State.setSlot, State.slotAt, State.setCore_setCore]
@[simp] theorem State.setGrain_setGrain (s : State) (g h : Grain) : (s.setGrain g).setGrain h = s.setGrain h := by
  simp only [State.setGrain, State.setGrainAt_cur, State.setGrainAt_setGrainAt]

/-! ### Registers (R20) -/

@[simp] theorem Grain.reg_setReg_self (g : Grain) (n : Nat) (x : Word) (h : n < 10) : (g.setReg n x).reg n = x := by
  simp [Grain.reg, Grain.setReg, h]
theorem Grain.reg_setReg_ne (g : Grain) {n m : Nat} (h : m ≠ n) (x : Word) : (g.setReg n x).reg m = g.reg m := by
  by_cases hn : n < 10 <;> by_cases hm : m < 10 <;> simp [Grain.reg, Grain.setReg, hn, hm, Ne.symm h]
/-- zr and codes past g9 discard writes (R20). -/
theorem Grain.setReg_high (g : Grain) (n : Nat) (x : Word) (h : 10 ≤ n) : g.setReg n x = g := by
  simp [Grain.setReg, Nat.not_lt.mpr h]

end Sys2Proof.Machine
end

