-- ==== Sys2Proof/Laws/Issue.lean ====
section
/-! SUPPORT. What issuing an instruction can do: the shared operations `issue` and `finish` and the stops. -/

namespace Sys2Proof.Machine

/-! ### Issuing -/

/-- An instruction that issues does what its meaning does from the state past it. -/
theorem issue_of {i : Instr} {gd : Option Guard} {t : Touch} {body : Word → M Unit} {s : State} (h : Issues i gd t s) :
    issue i gd t body s = finish s ((body s.grain.pc).run (s.issued i)) := by
  obtain ⟨h1, h2, h3, h4, h5⟩ := h
  simp [issue, h1, h2, h3, h4, h5]
/-- It completes where its meaning does. -/
theorem issue_next {i : Instr} {gd : Option Guard} {t : Touch} {body : Word → M Unit} {s s' : State} (h : Issues i gd t s)
    (hb : (body s.grain.pc).run (s.issued i) = .ok ((), s')) : issue i gd t body s = .next s' := by
  rw [issue_of h, hb]; rfl
/-- It raises the cause its meaning raises, with nothing of its effect. -/
theorem issue_trap {i : Instr} {gd : Option Guard} {t : Touch} {body : Word → M Unit} {s : State} {c : Cause} {info : Word}
    (h : Issues i gd t s) (hb : (body s.grain.pc).run (s.issued i) = .error (.trap c info)) :
    issue i gd t body s = .next (s.raise c info) := by
  rw [issue_of h, hb]; rfl
/-- A false guard, or the body of a VLOOP whose count is 0, moves on and does nothing (R77, R195). -/
theorem issue_skip {i : Instr} {gd : Option Guard} {t : Touch} {body : Word → M Unit} {s : State}
    (h1 : s.pageFaulted s.cur = false) (h2 : s.arrayBusy s.cur = false) (h3 : issueStop i s.grain gd t = none)
    (h4 : guardHolds s.grain gd = false ∨ s.grain.voidBody = true) : issue i gd t body s = .next (s.issued i) := by
  rcases h4 with h4 | h4 <;> simp [issue, h1, h2, h3, h4]
/-- Whatever a meaning ends in, the machine goes on. -/
theorem finish_runs (s : State) (r : Except Stop (Unit × State)) : Runs (finish s r) := by
  unfold finish Runs
  split <;> exact ⟨_, rfl⟩
theorem issue_runs (i : Instr) (gd : Option Guard) (t : Touch) (body : Word → M Unit) (s : State) : Runs (issue i gd t body s) := by
  unfold issue
  split
  · exact finish_runs _ _
  · split
    · exact finish_runs _ _
    · split
      · exact finish_runs _ _
      · split
        · exact finish_runs _ _
        · exact ⟨_, rfl⟩

/-! ### The monad of meanings -/

section
variable {α β : Type}
@[simp] theorem run_pure' (x : α) (s : State) : (pure x : M α).run s = .ok (x, s) := rfl
@[simp] theorem run_bind' (x : M α) (f : α → M β) (s : State) :
    (x >>= f).run s = (match x.run s with | .ok (a, s') => (f a).run s' | .error e => .error e) := by
  show (x s >>= fun p => f p.1 p.2) = _
  cases h : x s with
  | error e => simp [StateT.run, h, bind, Except.bind]
  | ok p => obtain ⟨a, s'⟩ := p; simp [StateT.run, h, bind, Except.bind]
@[simp] theorem run_get' (s : State) : (get : M State).run s = .ok (s, s) := rfl
@[simp] theorem run_set' (s s' : State) : (set s' : M PUnit).run s = .ok (⟨⟩, s') := rfl
@[simp] theorem run_modify' (f : State → State) (s : State) : (modify f : M PUnit).run s = .ok (⟨⟩, f s) := rfl
@[simp] theorem run_throw' (e : Stop) (s : State) : (throw e : M α).run s = .error e := rfl
@[simp] theorem run_grainM (s : State) : grainM.run s = .ok (s.grain, s) := rfl
@[simp] theorem run_onGrain (f : Grain → Grain) (s : State) : (onGrain f).run s = .ok ((), s.setGrain (f s.grain)) := rfl
@[simp] theorem run_onCore (f : Core → Core) (s : State) : (onCore f).run s = .ok ((), s.setCurCore (f s.curCore)) := rfl
@[simp] theorem run_onCluster (k : Nat) (f : Cluster → Cluster) (s : State) :
    (onCluster k f).run s = .ok ((), s.setCluster k (f (s.cluster k))) := rfl
@[simp] theorem run_emit (e : Event) (s : State) : (emit e).run s = .ok ((), s.due [e]) := rfl
@[simp] theorem run_trapM (c : Cause) (info : Word) (s : State) : (trapM c info : M α).run s = .error (.trap c info) := rfl
@[simp] theorem run_parkM (w : Wait) (s : State) : (parkM w : M α).run s = .error (.park w []) := rfl
@[simp] theorem run_parkOn (w : Wait) (es : List Event) (s : State) : (parkOn w es : M α).run s = .error (.park w es) := rfl
@[simp] theorem run_parkWhen_false (w : Wait) (s : State) : (parkWhen false w).run s = .ok ((), s) := rfl
@[simp] theorem run_trapWhen_false (c : Cause) (info : Word) (s : State) : (trapWhen false c info).run s = .ok ((), s) := rfl
@[simp] theorem run_trapWhen_true (c : Cause) (info : Word) (s : State) : (trapWhen true c info).run s = .error (.trap c info) := rfl
@[simp] theorem run_parkWhen_true (w : Wait) (s : State) : (parkWhen true w).run s = .error (.park w []) := rfl
end

end Sys2Proof.Machine
end

