-- ==== Sys2Proof/Laws/Run.lean ====
section
/-! SUPPORT. An event that is due runs by the meaning that exec gives its row. -/

namespace Sys2Proof.Machine

theorem runEvent_barrelIssueCycle (core : Nat) (s : State) : runEvent (.barrelIssueCycle core) s = exec (.barrelIssueCycle core) s := rfl
theorem runEvent_longLatencyResult (loc : Loc) (op : Nat) (s : State) : runEvent (.longLatencyResult loc op) s = exec (.longLatencyResult loc op) s := rfl
theorem runEvent_tlbWalkComplete (cl : Nat) (ctx : BitVec 12) (va : BitVec 38) (s : State) : runEvent (.tlbWalkComplete cl ctx va) s = exec (.tlbWalkComplete cl ctx va) s := rfl
theorem runEvent_sliceExpiry (loc : Loc) (s : State) : runEvent (.sliceExpiry loc) s = exec (.sliceExpiry loc) s := rfl
theorem runEvent_priorityPreempt (core : Nat) (s : State) : runEvent (.priorityPreempt core) s = exec (.priorityPreempt core) s := rfl
theorem runEvent_spillComplete (loc : Loc) (s : State) : runEvent (.spillComplete loc) s = exec (.spillComplete loc) s := rfl
theorem runEvent_fillComplete (loc : Loc) (s : State) : runEvent (.fillComplete loc) s = exec (.fillComplete loc) s := rfl
theorem runEvent_remoteWatchInsert (loc : Loc) (reg : Fin 5) (s : State) : runEvent (.remoteWatchInsert loc reg) s = exec (.remoteWatchInsert loc reg) s := rfl
theorem runEvent_remoteWatchWake (loc : Loc) (reg : Fin 5) (v : Word) (s : State) : runEvent (.remoteWatchWake loc reg v) s = exec (.remoteWatchWake loc reg v) s := rfl
theorem runEvent_watchPollTimer (loc : Loc) (reg : Fin 5) (s : State) : runEvent (.watchPollTimer loc reg) s = exec (.watchPollTimer loc reg) s := rfl
theorem runEvent_barrierStaggerResume (launch : Nat) (sc : Scope) (core : Nat) (s : State) : runEvent (.barrierStaggerResume launch sc core) s = exec (.barrierStaggerResume launch sc core) s := rfl
theorem runEvent_channelFlitArrival (core : Nat) (ch : BitVec 3) (s : State) : runEvent (.channelFlitArrival core ch) s = exec (.channelFlitArrival core ch) s := rfl
theorem runEvent_channelWatchdogExpiry (loc : Loc) (op : Nat) (s : State) : runEvent (.channelWatchdogExpiry loc op) s = exec (.channelWatchdogExpiry loc op) s := rfl
theorem runEvent_macqWatchdogExpiry (loc : Loc) (s : State) : runEvent (.macqWatchdogExpiry loc) s = exec (.macqWatchdogExpiry loc) s := rfl
theorem runEvent_bagPushWatchdogExpiry (loc : Loc) (op : Nat) (s : State) : runEvent (.bagPushWatchdogExpiry loc op) s = exec (.bagPushWatchdogExpiry loc op) s := rfl
theorem runEvent_migrationArrival (loc : Loc) (s : State) : runEvent (.migrationArrival loc) s = exec (.migrationArrival loc) s := rfl
theorem runEvent_spawnArrival (core : Nat) (s : State) : runEvent (.spawnArrival core) s = exec (.spawnArrival core) s := rfl
theorem runEvent_arrivalRetry (core : Nat) (s : State) : runEvent (.arrivalRetry core) s = exec (.arrivalRetry core) s := rfl
theorem runEvent_excursionAtOwner (loc : Loc) (op : Nat) (s : State) : runEvent (.excursionAtOwner loc op) s = exec (.excursionAtOwner loc op) s := rfl
theorem runEvent_excursionReturn (loc : Loc) (op : Nat) (s : State) : runEvent (.excursionReturn loc op) s = exec (.excursionReturn loc op) s := rfl
theorem runEvent_remoteUpdateApply (cl : Nat) (s : State) : runEvent (.remoteUpdateApply cl) s = exec (.remoteUpdateApply cl) s := rfl
theorem runEvent_bursarAtomic (die : Nat) (slot : Fin 16) (s : State) : runEvent (.bursarAtomic die slot) s = exec (.bursarAtomic die slot) s := rfl
theorem runEvent_copyCommandStart (cl : Nat) (s : State) : runEvent (.copyCommandStart cl) s = exec (.copyCommandStart cl) s := rfl
theorem runEvent_copyCommandComplete (cl : Nat) (id : Nat) (s : State) : runEvent (.copyCommandComplete cl id) s = exec (.copyCommandComplete cl id) s := rfl
theorem runEvent_burstWindowClose (cl : Nat) (region : Nat) (s : State) : runEvent (.burstWindowClose cl region) s = exec (.burstWindowClose cl region) s := rfl
theorem runEvent_sequencerEntryStart (core : Nat) (s : State) : runEvent (.sequencerEntryStart core) s = exec (.sequencerEntryStart core) s := rfl
theorem runEvent_sequencerEntryComplete (loc : Loc) (s : State) : runEvent (.sequencerEntryComplete loc) s = exec (.sequencerEntryComplete loc) s := rfl
theorem runEvent_mmaStart (core : Nat) (s : State) : runEvent (.mmaStart core) s = exec (.mmaStart core) s := rfl
theorem runEvent_mmaComplete (core : Nat) (s : State) : runEvent (.mmaComplete core) s = exec (.mmaComplete core) s := rfl
theorem runEvent_weightSlotReload (core : Nat) (w : Fin 8) (s : State) : runEvent (.weightSlotReload core w) s = exec (.weightSlotReload core w) s := rfl
theorem runEvent_inputStreamFetch (loc : Loc) (n : Fin 4) (s : State) : runEvent (.inputStreamFetch loc n) s = exec (.inputStreamFetch loc n) s := rfl
theorem runEvent_outputStreamLineWrite (loc : Loc) (n : Fin 4) (s : State) : runEvent (.outputStreamLineWrite loc n) s = exec (.outputStreamLineWrite loc n) s := rfl
theorem runEvent_randValueReady (core : Nat) (v : Word) (s : State) : runEvent (.randValueReady core v) s = exec (.randValueReady core v) s := rfl
theorem runEvent_forwardedValueArrival (who : GrainKey) (count : Nat) (v : Word) (s : State) : runEvent (.forwardedValueArrival who count v) s = exec (.forwardedValueArrival who count v) s := rfl
theorem runEvent_replicaCompareFlit (who : GrainKey) (flit : CmpFlit) (s : State) : runEvent (.replicaCompareFlit who flit) s = exec (.replicaCompareFlit who flit) s := rfl
theorem runEvent_externalAtomicResult (who : GrainKey) (op : Nat) (old : Word) (s : State) : runEvent (.externalAtomicResult who op old) s = exec (.externalAtomicResult who op old) s := rfl
theorem runEvent_pairRecordArrival (cl : Nat) (s : State) : runEvent (.pairRecordArrival cl) s = exec (.pairRecordArrival cl) s := rfl
theorem runEvent_stealRetryTimer (loc : Loc) (s : State) : runEvent (.stealRetryTimer loc) s = exec (.stealRetryTimer loc) s := rfl
theorem runEvent_netSweep (launch : Nat) (s : State) : runEvent (.netSweep launch) s = exec (.netSweep launch) s := rfl
theorem runEvent_epochAdopt (cl : Nat) (launch : Nat) (epoch : Nat) (s : State) : runEvent (.epochAdopt cl launch epoch) s = exec (.epochAdopt cl launch epoch) s := rfl
theorem runEvent_faultReport (node : Nat) (s : State) : runEvent (.faultReport node) s = exec (.faultReport node) s := rfl
theorem runEvent_launchStopAtCore (launch : Nat) (core : Nat) (s : State) : runEvent (.launchStopAtCore launch core) s = exec (.launchStopAtCore launch core) s := rfl
theorem runEvent_launchComplete (launch : Nat) (s : State) : runEvent (.launchComplete launch) s = exec (.launchComplete launch) s := rfl
theorem runEvent_completionWrite (launch : Nat) (s : State) : runEvent (.completionWrite launch) s = exec (.completionWrite launch) s := rfl
theorem runEvent_queueTailWrite (node : Nat) (q : BitVec 16) (v : Word) (s : State) : runEvent (.queueTailWrite node q v) s = exec (.queueTailWrite node q v) s := rfl
theorem runEvent_queueEnable (node : Nat) (q : BitVec 16) (s : State) : runEvent (.queueEnable node q) s = exec (.queueEnable node q) s := rfl
theorem runEvent_queueDisable (node : Nat) (q : BitVec 16) (s : State) : runEvent (.queueDisable node q) s = exec (.queueDisable node q) s := rfl
theorem runEvent_queueAbort (node : Nat) (q : BitVec 16) (s : State) : runEvent (.queueAbort node q) s = exec (.queueAbort node q) s := rfl
theorem runEvent_configurationWrite (node : Nat) (w : CfgWrite) (s : State) : runEvent (.configurationWrite node w) s = exec (.configurationWrite node w) s := rfl
theorem runEvent_launchRecordRead (node : Nat) (q : BitVec 16) (s : State) : runEvent (.launchRecordRead node q) s = exec (.launchRecordRead node q) s := rfl
theorem runEvent_schedulerRound (node : Nat) (cls : BitVec 2) (s : State) : runEvent (.schedulerRound node cls) s = exec (.schedulerRound node cls) s := rfl
theorem runEvent_launchPlace (launch : Nat) (s : State) : runEvent (.launchPlace launch) s = exec (.launchPlace launch) s := rfl
theorem runEvent_graphNodeDispatch (node : Nat) (q : BitVec 16) (j : Nat) (s : State) : runEvent (.graphNodeDispatch node q j) s = exec (.graphNodeDispatch node q j) s := rfl
theorem runEvent_contextCreate (node : Nat) (ctx : BitVec 12) (s : State) : runEvent (.contextCreate node ctx) s = exec (.contextCreate node ctx) s := rfl
theorem runEvent_contextDestroy (node : Nat) (ctx : BitVec 12) (s : State) : runEvent (.contextDestroy node ctx) s = exec (.contextDestroy node ctx) s := rfl
theorem runEvent_contextInvalidate (node : Nat) (ctx : BitVec 12) (s : State) : runEvent (.contextInvalidate node ctx) s = exec (.contextInvalidate node ctx) s := rfl
theorem runEvent_contextMigrate (node : Nat) (ctx : BitVec 12) (s : State) : runEvent (.contextMigrate node ctx) s = exec (.contextMigrate node ctx) s := rfl
theorem runEvent_migrationFirstPassDone (node : Nat) (ctx : BitVec 12) (s : State) : runEvent (.migrationFirstPassDone node ctx) s = exec (.migrationFirstPassDone node ctx) s := rfl
theorem runEvent_migrationFinalPassDone (node : Nat) (ctx : BitVec 12) (s : State) : runEvent (.migrationFinalPassDone node ctx) s = exec (.migrationFinalPassDone node ctx) s := rfl
theorem runEvent_faultHeadWrite (node : Nat) (ctx : BitVec 12) (v : Word) (s : State) : runEvent (.faultHeadWrite node ctx v) s = exec (.faultHeadWrite node ctx v) s := rfl
theorem runEvent_faultResolve (node : Nat) (ctx : BitVec 12) (token : BitVec 16) (refuse : Bool) (s : State) : runEvent (.faultResolve node ctx token refuse) s = exec (.faultResolve node ctx token refuse) s := rfl
theorem runEvent_checkpointTake (node : Nat) (ctx : BitVec 12) (s : State) : runEvent (.checkpointTake node ctx) s = exec (.checkpointTake node ctx) s := rfl
theorem runEvent_checkpointPullStart (node : Nat) (ctx : BitVec 12) (s : State) : runEvent (.checkpointPullStart node ctx) s = exec (.checkpointPullStart node ctx) s := rfl
theorem runEvent_checkpointComplete (node : Nat) (ctx : BitVec 12) (stopUs : Word) (s : State) : runEvent (.checkpointComplete node ctx stopUs) s = exec (.checkpointComplete node ctx stopUs) s := rfl
theorem runEvent_checkpointRestore (node : Nat) (ctx : BitVec 12) (s : State) : runEvent (.checkpointRestore node ctx) s = exec (.checkpointRestore node ctx) s := rfl
theorem runEvent_coreFailureDetected (core : Nat) (s : State) : runEvent (.coreFailureDetected core) s = exec (.coreFailureDetected core) s := rfl
theorem runEvent_clusterFailureDetected (cl : Nat) (s : State) : runEvent (.clusterFailureDetected cl) s = exec (.clusterFailureDetected cl) s := rfl
theorem runEvent_dieFailureDetected (die : Nat) (s : State) : runEvent (.dieFailureDetected die) s = exec (.dieFailureDetected die) s := rfl
theorem runEvent_packageFailureDetected (node : Nat) (s : State) : runEvent (.packageFailureDetected node) s = exec (.packageFailureDetected node) s := rfl
theorem runEvent_lossDeclaration (core : Nat) (unit : HwUnit) (s : State) : runEvent (.lossDeclaration core unit) s = exec (.lossDeclaration core unit) s := rfl
theorem runEvent_coreRepair (core : Nat) (s : State) : runEvent (.coreRepair core) s = exec (.coreRepair core) s := rfl
theorem runEvent_clusterRepair (cl : Nat) (s : State) : runEvent (.clusterRepair cl) s = exec (.clusterRepair cl) s := rfl
theorem runEvent_nodeAliasInstall (failed : Nat) (spare : Nat) (s : State) : runEvent (.nodeAliasInstall failed spare) s = exec (.nodeAliasInstall failed spare) s := rfl
theorem runEvent_quarantineSelfTest (cl : Nat) (pass : Bool) (s : State) : runEvent (.quarantineSelfTest cl pass) s = exec (.quarantineSelfTest cl pass) s := rfl
theorem runEvent_spareFill (die : Nat) (s : State) : runEvent (.spareFill die) s = exec (.spareFill die) s := rfl
theorem runEvent_coreResetAfterHalt (core : Nat) (s : State) : runEvent (.coreResetAfterHalt core) s = exec (.coreResetAfterHalt core) s := rfl
theorem runEvent_routerCycle (cl : Nat) (s : State) : runEvent (.routerCycle cl) s = exec (.routerCycle cl) s := rfl
theorem runEvent_fabricFallback (node : Nat) (s : State) : runEvent (.fabricFallback node) s = exec (.fabricFallback node) s := rfl
theorem runEvent_requestResendTimeout (loc : Loc) (op : Nat) (s : State) : runEvent (.requestResendTimeout loc op) s = exec (.requestResendTimeout loc op) s := rfl
theorem runEvent_congestionNotice (node : Nat) (target : Nat) (tier : Fin 3) (s : State) : runEvent (.congestionNotice node target tier) s = exec (.congestionNotice node target tier) s := rfl
theorem runEvent_windowGrowthTimer (node : Nat) (target : Nat) (tier : Fin 3) (s : State) : runEvent (.windowGrowthTimer node target tier) s = exec (.windowGrowthTimer node target tier) s := rfl
theorem runEvent_tierStarvationGrant (node : Nat) (port : Fin 6) (s : State) : runEvent (.tierStarvationGrant node port) s = exec (.tierStarvationGrant node port) s := rfl
theorem runEvent_linkAuthFailure (node : Nat) (port : Fin 6) (s : State) : runEvent (.linkAuthFailure node port) s = exec (.linkAuthFailure node port) s := rfl
theorem runEvent_linkTrainDown (node : Nat) (port : Fin 6) (s : State) : runEvent (.linkTrainDown node port) s = exec (.linkTrainDown node port) s := rfl
theorem runEvent_keyInstall (node : Nat) (port : Fin 6) (ctx : BitVec 12) (key : KeyPair) (s : State) : runEvent (.keyInstall node port ctx key) s = exec (.keyInstall node port ctx key) s := rfl
theorem runEvent_keyActivate (node : Nat) (port : Fin 6) (ctx : BitVec 12) (slot : Fin 4) (s : State) : runEvent (.keyActivate node port ctx slot) s = exec (.keyActivate node port ctx slot) s := rfl
theorem runEvent_keySlotRetire (node : Nat) (port : Fin 6) (ctx : BitVec 12) (slot : Fin 4) (s : State) : runEvent (.keySlotRetire node port ctx slot) s = exec (.keySlotRetire node port ctx slot) s := rfl
theorem runEvent_powerControlTick (node : Nat) (watts : Nat) (s : State) : runEvent (.powerControlTick node watts) s = exec (.powerControlTick node watts) s := rfl
theorem runEvent_issueThrottle (node : Nat) (s : State) : runEvent (.issueThrottle node) s = exec (.issueThrottle node) s := rfl
theorem runEvent_droopAlarm (node : Nat) (s : State) : runEvent (.droopAlarm node) s = exec (.droopAlarm node) s := rfl
theorem runEvent_thermalThrottle (die : Nat) (s : State) : runEvent (.thermalThrottle die) s = exec (.thermalThrottle die) s := rfl
theorem runEvent_thermalTrip (die : Nat) (s : State) : runEvent (.thermalTrip die) s = exec (.thermalTrip die) s := rfl
theorem runEvent_setPowerLimit (node : Nat) (watts : Nat) (s : State) : runEvent (.setPowerLimit node watts) s = exec (.setPowerLimit node watts) s := rfl
theorem runEvent_powerGoodBoot (node : Nat) (img : BootImages) (s : State) : runEvent (.powerGoodBoot node img) s = exec (.powerGoodBoot node img) s := rfl
theorem runEvent_lifeLogRecord (node : Nat) (s : State) : runEvent (.lifeLogRecord node) s = exec (.lifeLogRecord node) s := rfl
theorem runEvent_getLifeLogRecord (node : Nat) (seq : Word) (s : State) : runEvent (.getLifeLogRecord node seq) s = exec (.getLifeLogRecord node seq) s := rfl
theorem runEvent_firmwareUpdate (node : Nat) (region : FlashRegion) (img : FlashImage) (s : State) : runEvent (.firmwareUpdate node region img) s = exec (.firmwareUpdate node region img) s := rfl
theorem runEvent_getVersion (node : Nat) (s : State) : runEvent (.getVersion node) s = exec (.getVersion node) s := rfl
theorem runEvent_getCapabilities (node : Nat) (s : State) : runEvent (.getCapabilities node) s = exec (.getCapabilities node) s := rfl
theorem runEvent_negotiateAlgorithms (node : Nat) (offer : AlgOffer) (s : State) : runEvent (.negotiateAlgorithms node offer) s = exec (.negotiateAlgorithms node offer) s := rfl
theorem runEvent_getDigests (node : Nat) (s : State) : runEvent (.getDigests node) s = exec (.getDigests node) s := rfl
theorem runEvent_getCertificate (node : Nat) (slot : Nat) (offset : Nat) (length : Nat) (s : State) : runEvent (.getCertificate node slot offset length) s = exec (.getCertificate node slot offset length) s := rfl
theorem runEvent_challenge (node : Nat) (nonce : BitVec 256) (s : State) : runEvent (.challenge node nonce) s = exec (.challenge node nonce) s := rfl
theorem runEvent_getMeasurements (node : Nat) (index : Nat) (nonce : BitVec 256) (s : State) : runEvent (.getMeasurements node index nonce) s = exec (.getMeasurements node index nonce) s := rfl
theorem runEvent_keyExchange (node : Nat) (who : SessionOwner) (pub : BitVec 768) (s : State) : runEvent (.keyExchange node who pub) s = exec (.keyExchange node who pub) s := rfl
theorem runEvent_finish (node : Nat) (session : Nat) (macOk : Bool) (s : State) : runEvent (.finish node session macOk) s = exec (.finish node session macOk) s := rfl
theorem runEvent_endSession (node : Nat) (session : Nat) (s : State) : runEvent (.endSession node session) s = exec (.endSession node session) s := rfl
theorem runEvent_securedKeyInstallMessage (node : Nat) (session : Nat) (msg : KeyMsg) (s : State) : runEvent (.securedKeyInstallMessage node session msg) s = exec (.securedKeyInstallMessage node session msg) s := rfl
theorem runEvent_storePerformed (loc : Loc) (s : State) : runEvent (.storePerformed loc) s = exec (.storePerformed loc) s := rfl
theorem runEvent_invpgCompletion (who : InvWaiter) (s : State) : runEvent (.invpgCompletion who) s = exec (.invpgCompletion who) s := rfl
theorem runEvent_powerLoss (node : Nat) (s : State) : runEvent (.powerLoss node) s = exec (.powerLoss node) s := rfl
theorem runEvent_tdispStateRequest (node : Nat) (ctx : BitVec 12) (state : Tdisp) (requester : Nat) (s : State) : runEvent (.tdispStateRequest node ctx state requester) s = exec (.tdispStateRequest node ctx state requester) s := rfl

end Sys2Proof.Machine
end

