-- ==== Sys2Proof/Tests/Slice0.lean ====
section
/-! SUPPORT. Tests. A word of every row of spec/opcode_table.json that has an encoding, laid out from the row's fixed bits and fields, with the
instruction that it stands for; an ill-formed term for each limit of well-formedness; results of single instructions worked out by hand; and,
for every statement with hypotheses, a state and operands that meet them together. -/

namespace Sys2Proof.Tests
open Sys2Proof.Machine Sys2Proof.Claims

/-! ### Decoding -/

/-- Base nibble 0x0, words from the fields that spec/opcode_table.json gives each row (R83–R97). -/
theorem test_decode_arith_1 : ∀ p ∈ [
    ([0x0350#16], Instr.mov { gd := none, xr := none, xp := false, d := 0x3#4, s := 0x5#4 }),
    ([0x0351#16], Instr.add { gd := none, form := AluForm.bare, d := 0x3#4, s := 0x5#4 }),
    ([0x0352#16], Instr.sub { gd := none, form := AluForm.bare, d := 0x3#4, s := 0x5#4 }),
    ([0x0353#16], Instr.and { gd := none, form := AluForm.bare, d := 0x3#4, s := 0x5#4 }),
    ([0x0354#16], Instr.or { gd := none, form := AluForm.bare, d := 0x3#4, s := 0x5#4 }),
    ([0x0355#16], Instr.xor { gd := none, form := AluForm.bare, d := 0x3#4, s := 0x5#4 }),
    ([0x0356#16], Instr.andn { gd := none, form := AluForm.bare, d := 0x3#4, s := 0x5#4 }),
    ([0x0357#16], Instr.shl { gd := none, form := AluForm.bare, d := 0x3#4, s := 0x5#4 }),
    ([0x0358#16], Instr.shr { gd := none, form := AluForm.bare, d := 0x3#4, s := 0x5#4 }),
    ([0x0359#16], Instr.sar { gd := none, form := AluForm.bare, d := 0x3#4, s := 0x5#4 }),
    ([0x035A#16], Instr.mul { gd := none, form := AluForm.bare, d := 0x3#4, s := 0x5#4 }),
    ([0x035B#16], Instr.mulh { gd := none, form := AluForm.bare, d := 0x3#4, s := 0x5#4 }),
    ([0x035C#16], Instr.min { gd := none, form := AluForm.bare, d := 0x3#4, s := 0x5#4 }),
    ([0x035D#16], Instr.max { gd := none, form := AluForm.bare, d := 0x3#4, s := 0x5#4 }),
    ([0x035E#16], Instr.addp { gd := none, form := AluForm.bare, d := 0x3#4, s := 0x5#4 }),
    ([0x035F#16], Instr.subp { gd := none, form := AluForm.bare, d := 0x3#4, s := 0x5#4 }),
    ([0xF856#16, 0x0350#16], Instr.mulhn { gd := none, form := AluForm.three 0x6#4, d := 0x3#4, s := 0x5#4 }),
    ([0xF856#16, 0x0351#16], Instr.div { gd := none, form := AluForm.three 0x6#4, d := 0x3#4, s := 0x5#4 }),
    ([0xF856#16, 0x0352#16], Instr.divn { gd := none, form := AluForm.three 0x6#4, d := 0x3#4, s := 0x5#4 }),
    ([0xF856#16, 0x0353#16], Instr.rem { gd := none, form := AluForm.three 0x6#4, d := 0x3#4, s := 0x5#4 }),
    ([0xF856#16, 0x0354#16], Instr.remn { gd := none, form := AluForm.three 0x6#4, d := 0x3#4, s := 0x5#4 }),
    ([0xF856#16, 0x0355#16], Instr.minn { gd := none, form := AluForm.three 0x6#4, d := 0x3#4, s := 0x5#4 }),
    ([0xF856#16, 0x0356#16], Instr.maxn { gd := none, form := AluForm.three 0x6#4, d := 0x3#4, s := 0x5#4 }),
    ([0xF856#16, 0x0357#16], Instr.rol { gd := none, form := AluForm.three 0x6#4, d := 0x3#4, s := 0x5#4 })
    ], decodeWords p.1 = .instr p.2 p.1.length := by decide
/-- Base nibble 0x0, words from the fields that spec/opcode_table.json gives each row (R83–R97). -/
theorem test_decode_arith_2 : ∀ p ∈ [
    ([0xF856#16, 0x0358#16], Instr.ror { gd := none, form := AluForm.three 0x6#4, d := 0x3#4, s := 0x5#4 }),
    ([0xF840#16, 0x0359#16], Instr.clz { gd := none, d := 0x3#4, s := 0x5#4 }),
    ([0xF840#16, 0x035A#16], Instr.ctz { gd := none, d := 0x3#4, s := 0x5#4 }),
    ([0xF840#16, 0x035B#16], Instr.popc { gd := none, d := 0x3#4, s := 0x5#4 }),
    ([0xF840#16, 0x035C#16], Instr.brev { gd := none, d := 0x3#4, s := 0x5#4 }),
    ([0xF840#16, 0x035D#16], Instr.bswap { gd := none, d := 0x3#4, s := 0x5#4 }),
    ([0xF842#16, 0x035E#16], Instr.sext { gd := none, w := 0x2#2, d := 0x3#4, s := 0x5#4 }),
    ([0xF842#16, 0x035F#16], Instr.zext { gd := none, w := 0x2#2, d := 0x3#4, s := 0x5#4 })
    ], decodeWords p.1 = .instr p.2 p.1.length := by decide
/-- Base nibble 0x1, words from the fields that spec/opcode_table.json gives each row (R83–R97). -/
theorem test_decode_imm : ∀ p ∈ [
    ([0x1320#16], Instr.addi { gd := none, d := 0x3#4, imm := { chunks := [], base := 0x2#4 } }),
    ([0x1321#16], Instr.subi { gd := none, d := 0x3#4, imm := { chunks := [], base := 0x2#4 } }),
    ([0x1322#16], Instr.andi { gd := none, d := 0x3#4, imm := { chunks := [], base := 0x2#4 } }),
    ([0x1323#16], Instr.ori { gd := none, d := 0x3#4, imm := { chunks := [], base := 0x2#4 } }),
    ([0x1324#16], Instr.xori { gd := none, d := 0x3#4, imm := { chunks := [], base := 0x2#4 } }),
    ([0x1325#16], Instr.shli { gd := none, d := 0x3#4, imm := { chunks := [], base := 0x2#4 } }),
    ([0x1326#16], Instr.shri { gd := none, d := 0x3#4, imm := { chunks := [], base := 0x2#4 } }),
    ([0x1327#16], Instr.sari { gd := none, d := 0x3#4, imm := { chunks := [], base := 0x2#4 } }),
    ([0x1328#16], Instr.muli { gd := none, d := 0x3#4, imm := { chunks := [], base := 0x2#4 } }),
    ([0x1329#16], Instr.roli { gd := none, d := 0x3#4, imm := { chunks := [], base := 0x2#4 } }),
    ([0x132C#16], Instr.pfmt { gd := none, d := 0x3#4, imm := { chunks := [], base := 0x2#4 } }),
    ([0x132D#16], Instr.pblk { gd := none, d := 0x3#4, imm := { chunks := [], base := 0x2#4 } }),
    ([0x132E#16], Instr.pseg { gd := none, d := 0x3#4, imm := { chunks := [], base := 0x2#4 } }),
    ([0x130F#16], Instr.pclr { gd := none, d := 0x3#4 }),
    ([0xFC07#16, 0xFC10#16, 0x132A#16], Instr.bfx { gd := none, d := 0x3#4, s := 0x2#4, width := 0x07#6, pos := 0x10#6 }),
    ([0xFC07#16, 0xFC10#16, 0x132B#16], Instr.bfi { gd := none, d := 0x3#4, s := 0x2#4, width := 0x07#6, pos := 0x10#6 })
    ], decodeWords p.1 = .instr p.2 p.1.length := by decide
/-- Base nibble 0x2, words from the fields that spec/opcode_table.json gives each row (R83–R97). -/
theorem test_decode_li : ∀ p ∈ [
    ([0x2302#16], Instr.li { gd := none, xp := false, d := 0x3#4, imm := { chunks := [], base := 0x02#8 } }),
    ([0xF880#16, 0x2302#16], Instr.liLane { gd := none, lane := 0x1#2, d := 0x3#4, imm := { chunks := [], base := 0x02#8 } })
    ], decodeWords p.1 = .instr p.2 p.1.length := by decide
/-- Base nibble 0x3, words from the fields that spec/opcode_table.json gives each row (R83–R97). -/
theorem test_decode_compare : ∀ p ∈ [
    ([0x3350#16], Instr.ceq { gd := none, pd := none, d := 0x3#4, s := 0x5#4 }),
    ([0x3351#16], Instr.cne { gd := none, pd := none, d := 0x3#4, s := 0x5#4 }),
    ([0x3352#16], Instr.clt { gd := none, pd := none, d := 0x3#4, s := 0x5#4 }),
    ([0x3353#16], Instr.cge { gd := none, pd := none, d := 0x3#4, s := 0x5#4 }),
    ([0x3354#16], Instr.cltn { gd := none, pd := none, d := 0x3#4, s := 0x5#4 }),
    ([0x3355#16], Instr.cgen { gd := none, pd := none, d := 0x3#4, s := 0x5#4 }),
    ([0x3356#16], Instr.ctst { gd := none, pd := none, d := 0x3#4, s := 0x5#4 }),
    ([0x3357#16], Instr.ctstn { gd := none, pd := none, d := 0x3#4, s := 0x5#4 }),
    ([0x3328#16], Instr.ceqi { gd := none, pd := none, d := 0x3#4, imm := { chunks := [], base := 0x2#4 } }),
    ([0x3329#16], Instr.cnei { gd := none, pd := none, d := 0x3#4, imm := { chunks := [], base := 0x2#4 } }),
    ([0x332A#16], Instr.clti { gd := none, pd := none, d := 0x3#4, imm := { chunks := [], base := 0x2#4 } }),
    ([0x332B#16], Instr.cgei { gd := none, pd := none, d := 0x3#4, imm := { chunks := [], base := 0x2#4 } }),
    ([0x332C#16], Instr.cltni { gd := none, pd := none, d := 0x3#4, imm := { chunks := [], base := 0x2#4 } }),
    ([0x332D#16], Instr.cgeni { gd := none, pd := none, d := 0x3#4, imm := { chunks := [], base := 0x2#4 } }),
    ([0xFC41#16, 0x360E#16], Instr.plog { gd := none, pd := none, tt := 0x6#4, pa := 0x02#5, pb := 0x01#5 }),
    ([0x322F#16], Instr.pxfer { gd := none, xp := false, g := 0x2#4, mode := 0x2#2 })
    ], decodeWords p.1 = .instr p.2 p.1.length := by decide
/-- Base nibble 0x4, words from the fields that spec/opcode_table.json gives each row (R83–R97). -/
theorem test_decode_load : ∀ p ∈ [
    ([0x4322#16], Instr.ld { gd := none, xp := false, d := 0x3#4, a := 0x2#4, la := 0x2#4, off := [] }),
    ([0xF840#16, 0x4322#16], Instr.ldi { gd := none, xp := true, d := 0x3#4, a := 0x2#4, la := 0x2#4, off := [] }),
    ([0xF880#16, 0x4322#16], Instr.ld8 { gd := none, xp := true, d := 0x3#4, a := 0x2#4, la := 0x2#4, off := [] }),
    ([0xF8C0#16, 0x4322#16], Instr.ld16 { gd := none, xp := true, d := 0x3#4, a := 0x2#4, la := 0x2#4, off := [] }),
    ([0xF900#16, 0x4322#16], Instr.ld32 { gd := none, xp := true, d := 0x3#4, a := 0x2#4, la := 0x2#4, off := [] }),
    ([0xF940#16, 0x4322#16], Instr.ld64 { gd := none, xp := true, d := 0x3#4, a := 0x2#4, la := 0x2#4, off := [] }),
    ([0xF980#16, 0x4322#16], Instr.ldn8 { gd := none, xp := true, d := 0x3#4, a := 0x2#4, la := 0x2#4, off := [] }),
    ([0xF9C0#16, 0x4322#16], Instr.ldn16 { gd := none, xp := true, d := 0x3#4, a := 0x2#4, la := 0x2#4, off := [] }),
    ([0xFA00#16, 0x4322#16], Instr.ldn32 { gd := none, xp := true, d := 0x3#4, a := 0x2#4, la := 0x2#4, off := [] }),
    ([0xFA80#16, 0x4020#16], Instr.pref { gd := none, a := 0x2#4, off := [] }),
    ([0xFAC0#16, 0x4222#16], Instr.ldrec { gd := none, e := 0x2#3, a := 0x2#4, la := 0x2#4, off := [] }),
    ([0xFA42#16, 0x4322#16], Instr.ldacq { gd := none, xp := true, d := 0x3#4, a := 0x2#4, la := 0x2#4, off := [], sc := Scope.die })
    ], decodeWords p.1 = .instr p.2 p.1.length := by decide
/-- Base nibble 0x5, words from the fields that spec/opcode_table.json gives each row (R83–R97). -/
theorem test_decode_store : ∀ p ∈ [
    ([0x5520#16], Instr.st { gd := none, xp := false, s := 0x5#4, a := 0x2#4, off := [] }),
    ([0x5521#16], Instr.sti { gd := none, xp := false, s := 0x5#4, a := 0x2#4, off := [] }),
    ([0x5522#16], Instr.st8 { gd := none, xp := false, s := 0x5#4, a := 0x2#4, off := [] }),
    ([0x5523#16], Instr.st16 { gd := none, xp := false, s := 0x5#4, a := 0x2#4, off := [] }),
    ([0x5524#16], Instr.st32 { gd := none, xp := false, s := 0x5#4, a := 0x2#4, off := [] }),
    ([0x5525#16], Instr.st64 { gd := none, xp := false, s := 0x5#4, a := 0x2#4, off := [] }),
    ([0xF801#16, 0x5526#16], Instr.strel { gd := none, xp := true, s := 0x5#4, a := 0x2#4, off := [], sc := Scope.cluster }),
    ([0x5527#16], Instr.stnt { gd := none, xp := false, s := 0x5#4, a := 0x2#4, off := [] })
    ], decodeWords p.1 = .instr p.2 p.1.length := by decide
/-- Base nibble 0x6, words from the fields that spec/opcode_table.json gives each row (R83–R97). -/
theorem test_decode_vector : ∀ p ∈ [
    ([0x6350#16], Instr.vmov { gd := none, xr := none, ty := none, d := 0x3#4, s := 0x5#4 }),
    ([0x6351#16], Instr.vadd { gd := none, xr := none, ty := none, d := 0x3#4, s := 0x5#4, t := none, sat := false }),
    ([0x6352#16], Instr.vsub { gd := none, xr := none, ty := none, d := 0x3#4, s := 0x5#4, t := none, sat := false }),
    ([0x6353#16], Instr.vmul { gd := none, xr := none, ty := none, d := 0x3#4, s := 0x5#4, t := none, sat := false }),
    ([0xF896#16, 0x6354#16], Instr.vfma { gd := none, xr := none, ty := EType.n16, d := 0x3#4, s := 0x5#4, t := 0x6#4 }),
    ([0x6355#16], Instr.vmin { gd := none, xr := none, ty := none, d := 0x3#4, s := 0x5#4, t := none, sat := false }),
    ([0x6356#16], Instr.vmax { gd := none, xr := none, ty := none, d := 0x3#4, s := 0x5#4, t := none, sat := false }),
    ([0x6357#16], Instr.vand { gd := none, xr := none, ty := none, d := 0x3#4, s := 0x5#4, t := none, sat := false }),
    ([0x6358#16], Instr.vor { gd := none, xr := none, ty := none, d := 0x3#4, s := 0x5#4, t := none, sat := false }),
    ([0x6359#16], Instr.vxor { gd := none, xr := none, ty := none, d := 0x3#4, s := 0x5#4, t := none, sat := false }),
    ([0x635A#16], Instr.vshl { gd := none, xr := none, ty := none, d := 0x3#4, s := 0x5#4, t := none, sat := false }),
    ([0x635B#16], Instr.vshr { gd := none, xr := none, ty := none, d := 0x3#4, s := 0x5#4, t := none, sat := false }),
    ([0x635C#16], Instr.vabs { gd := none, xr := none, ty := none, d := 0x3#4, s := 0x5#4 }),
    ([0x635D#16], Instr.vneg { gd := none, xr := none, ty := none, d := 0x3#4, s := 0x5#4 }),
    ([0xF8A2#16, 0x635E#16], Instr.vcvt { gd := none, xr := none, ty := some (EType.n16), d := 0x3#4, s := 0x5#4, dst := EType.n16, sat := true }),
    ([0xF8B6#16, 0x615F#16], Instr.vcmp { gd := none, xr := none, ty := EType.n16, cond := VCond.ne, s := 0x5#4, t := 0x6#4, bank := true })
    ], decodeWords p.1 = .instr p.2 p.1.length := by decide
/-- Base nibble 0x7, words from the fields that spec/opcode_table.json gives each row (R83–R97). -/
theorem test_decode_vectorMemory_1 : ∀ p ∈ [
    ([0x7320#16], Instr.vld { gd := none, ty := none, v := 0x3#4, a := 0x2#4, off := [] }),
    ([0x7521#16], Instr.vst { gd := none, ty := none, v := 0x5#4, a := 0x2#4, off := [] }),
    ([0xF882#16, 0x7322#16], Instr.vgath { gd := none, ty := some (EType.n16), v := 0x3#4, a := 0x2#4, vi := 0x2#4, off := [] }),
    ([0xF882#16, 0x7523#16], Instr.vscat { gd := none, ty := some (EType.n16), v := 0x5#4, a := 0x2#4, vi := 0x2#4, off := [] }),
    ([0x7354#16], Instr.vbcast { gd := none, ty := none, d := 0x3#4, s := 0x5#4 }),
    ([0xF882#16, 0x7355#16], Instr.vextr { gd := none, ty := some (EType.n16), d := 0x3#4, s := 0x5#4, lane := 0x02#5 }),
    ([0xF882#16, 0x7356#16], Instr.vins { gd := none, ty := some (EType.n16), d := 0x3#4, s := 0x5#4, lane := 0x02#5 }),
    ([0xF882#16, 0x7357#16], Instr.vshuf { gd := none, ty := some (EType.n16), d := 0x3#4, s := 0x5#4, t := 0x2#4 }),
    ([0x7358#16], Instr.vrsum { gd := none, ty := none, d := 0x3#4, s := 0x5#4 }),
    ([0xF886#16, 0x7359#16], Instr.vdot { gd := none, ty := some (EType.n16), d := 0x3#4, s := 0x5#4, t := 0x6#4 }),
    ([0xF896#16, 0x735A#16], Instr.vsel { gd := none, ty := some (EType.n16), d := 0x3#4, s := 0x5#4, t := 0x6#4, hi := true }),
    ([0x732C#16], Instr.vdqnt { gd := none, ty := none, v := 0x3#4, a := 0x2#4, off := [] }),
    ([0xF889#16, 0x732D#16], Instr.vaccr { gd := none, ty := some (EType.n16), v := 0x3#4, row := 0x2#4, tile := 0x1#2, quarter := 0x2#2 }),
    ([0xF889#16, 0x752E#16], Instr.vaccw { gd := none, ty := some (EType.n16), v := 0x5#4, row := 0x2#4, tile := 0x1#2, quarter := 0x2#2 }),
    ([0xF898#16, 0x720F#16], Instr.vmovp { gd := none, ty := some (EType.n16), v := 0x2#4, toPred := true, bank := true }),
    ([0xF8A0#16, 0x7228#16], Instr.vloop { gd := none, ty := EType.n16, g := 0x2#4, len := 0x2#4 }),
    ([0xF8A0#16, 0x7009#16], Instr.vsync { gd := none, ty := EType.n16 }),
    ([0xF8A0#16, 0x700A#16], Instr.vgang { gd := none, ty := EType.n16 }),
    ([0xF8A0#16, 0x700B#16], Instr.vsplit { gd := none, ty := EType.n16 }),
    ([0xF8A0#16, 0x706C#16], Instr.vsett { gd := none, ty := EType.n16, dst := EType.n64 }),
    ([0xFAA0#16, 0x7350#16], Instr.vrcp { gd := none, ty := EType.f32, d := 0x3#4, s := 0x5#4 }),
    ([0xFAA0#16, 0x7351#16], Instr.vrsq { gd := none, ty := EType.f32, d := 0x3#4, s := 0x5#4 }),
    ([0xFAA0#16, 0x7352#16], Instr.vsqrt { gd := none, ty := EType.f32, d := 0x3#4, s := 0x5#4 }),
    ([0xFAA0#16, 0x7353#16], Instr.vexp2 { gd := none, ty := EType.f32, d := 0x3#4, s := 0x5#4 })
    ], decodeWords p.1 = .instr p.2 p.1.length := by decide
/-- Base nibble 0x7, words from the fields that spec/opcode_table.json gives each row (R83–R97). -/
theorem test_decode_vectorMemory_2 : ∀ p ∈ [
    ([0xFAA0#16, 0x7354#16], Instr.vlog2 { gd := none, ty := EType.f32, d := 0x3#4, s := 0x5#4 }),
    ([0xFAA0#16, 0x7355#16], Instr.vsin { gd := none, ty := EType.f32, d := 0x3#4, s := 0x5#4 }),
    ([0xFAA0#16, 0x7356#16], Instr.vcos { gd := none, ty := EType.f32, d := 0x3#4, s := 0x5#4 }),
    ([0xFAA0#16, 0x7357#16], Instr.vtanh { gd := none, ty := EType.f32, d := 0x3#4, s := 0x5#4 }),
    ([0xFA94#16, 0x735B#16], Instr.vqnt { gd := none, ty := some (EType.f32), d := 0x3#4, s := 0x5#4, t := 0x4#4, hi := true })
    ], decodeWords p.1 = .instr p.2 p.1.length := by decide
/-- Base nibble 0x8, words from the fields that spec/opcode_table.json gives each row (R83–R97). -/
theorem test_decode_branch : ∀ p ∈ [
    ([0x8142#16], Instr.br { p := 0x02#5, neg := true, off := { chunks := [], base := 0x02#6 } })
    ], decodeWords p.1 = .instr p.2 p.1.length := by decide
/-- Base nibble 0x9, words from the fields that spec/opcode_table.json gives each row (R83–R97). -/
theorem test_decode_control : ∀ p ∈ [
    ([0x9020#16], Instr.jmp { gd := none, xp := false, off := { chunks := [], base := 0x02#8 } }),
    ([0x9021#16], Instr.jmpr { gd := none, xp := false, r := 0x2#4 }),
    ([0x9022#16], Instr.call { gd := none, xp := false, off := { chunks := [], base := 0x02#8 } }),
    ([0x9023#16], Instr.callr { gd := none, xp := false, r := 0x2#4 }),
    ([0x9004#16], Instr.ret { gd := none, xp := false }),
    ([0x9005#16], Instr.exit { gd := none, xp := false }),
    ([0x9006#16], Instr.yield { gd := none, xp := false }),
    ([0x9007#16], Instr.nop { gd := none, xp := false }),
    ([0x9228#16], Instr.loop { gd := none, xp := false, g := 0x2#4, off := { chunks := [], base := 0x2#4 } }),
    ([0x9359#16], Instr.getid { gd := none, xp := false, d := 0x3#4, sel := 0x5#3 }),
    ([0x930A#16], Instr.clock { gd := none, xp := false, r := 0x3#4 }),
    ([0x930B#16], Instr.rand { gd := none, xp := false, r := 0x3#4 }),
    ([0x901C#16], Instr.brk { gd := none, xp := false, code := 0x01#8 }),
    ([0x900D#16], Instr.rhome { gd := none, xp := false })
    ], decodeWords p.1 = .instr p.2 p.1.length := by decide
/-- Base nibble 0xA, words from the fields that spec/opcode_table.json gives each row (R83–R97). -/
theorem test_decode_atomic : ∀ p ∈ [
    ([0xA322#16], Instr.aadd { gd := none, xp := false, d := 0x3#4, a := 0x2#4, la := 0x2#4, off := [], ord := { release := false, acquire := false } }),
    ([0xF860#16, 0xA322#16], Instr.amin { gd := none, xp := true, d := 0x3#4, a := 0x2#4, la := 0x2#4, off := [], ord := { release := true, acquire := false } }),
    ([0xF8A0#16, 0xA322#16], Instr.amax { gd := none, xp := true, d := 0x3#4, a := 0x2#4, la := 0x2#4, off := [], ord := { release := true, acquire := false } }),
    ([0xF8E0#16, 0xA322#16], Instr.aminn { gd := none, xp := true, d := 0x3#4, a := 0x2#4, la := 0x2#4, off := [], ord := { release := true, acquire := false } }),
    ([0xF920#16, 0xA322#16], Instr.amaxn { gd := none, xp := true, d := 0x3#4, a := 0x2#4, la := 0x2#4, off := [], ord := { release := true, acquire := false } }),
    ([0xF960#16, 0xA322#16], Instr.aand { gd := none, xp := true, d := 0x3#4, a := 0x2#4, la := 0x2#4, off := [], ord := { release := true, acquire := false } }),
    ([0xF9A0#16, 0xA322#16], Instr.aor { gd := none, xp := true, d := 0x3#4, a := 0x2#4, la := 0x2#4, off := [], ord := { release := true, acquire := false } }),
    ([0xF9E0#16, 0xA322#16], Instr.axor { gd := none, xp := true, d := 0x3#4, a := 0x2#4, la := 0x2#4, off := [], ord := { release := true, acquire := false } }),
    ([0xFA20#16, 0xA322#16], Instr.aswap { gd := none, xp := true, d := 0x3#4, a := 0x2#4, la := 0x2#4, off := [], ord := { release := true, acquire := false } }),
    ([0xFA60#16, 0xA322#16], Instr.acas { gd := none, xp := true, d := 0x3#4, a := 0x2#4, la := 0x2#4, off := [], ord := { release := true, acquire := false } }),
    ([0xFAA0#16, 0xA322#16], Instr.afadd { gd := none, xp := true, d := 0x3#4, a := 0x2#4, la := 0x2#4, off := [], ord := { release := true, acquire := false } }),
    ([0xFAE0#16, 0xA322#16], Instr.afmin { gd := none, xp := true, d := 0x3#4, a := 0x2#4, la := 0x2#4, off := [], ord := { release := true, acquire := false } }),
    ([0xFB20#16, 0xA322#16], Instr.afmax { gd := none, xp := true, d := 0x3#4, a := 0x2#4, la := 0x2#4, off := [], ord := { release := true, acquire := false } }),
    ([0xFB40#16, 0xA020#16], Instr.migr { gd := none, a := 0x2#4, off := [] }),
    ([0xFBA2#16, 0xA322#16], Instr.rupd { gd := none, op := 0x2#4, rel := true, d := 0x3#4, a := 0x2#4, la := 0x2#4, off := [] }),
    ([0xFBC0#16, 0xA322#16], Instr.spawn { gd := none, xp := true, d := 0x3#4, a := 0x2#4, la := 0x2#4, off := [] })
    ], decodeWords p.1 = .instr p.2 p.1.length := by decide
/-- Base nibble 0xB, words from the fields that spec/opcode_table.json gives each row (R83–R97). -/
theorem test_decode_sync : ∀ p ∈ [
    ([0xF801#16, 0xB322#16], Instr.seqwait { gd := none, xp := true, d := 0x3#4, a := 0x2#4, la := 0x2#4, off := [], sc := Scope.cluster }),
    ([0xF841#16, 0xB322#16], Instr.seqadv { gd := none, xp := true, d := 0x3#4, a := 0x2#4, la := 0x2#4, off := [], sc := Scope.cluster }),
    ([0xF882#16, 0xB322#16], Instr.watch { gd := none, d := 0x3#4, a := 0x2#4, la := 0x2#4, off := [], w := 0x2#2 }),
    ([0xF8C2#16, 0xB302#16], Instr.waitw { gd := none, d := 0x3#4, la := 0x2#4, mask := 0x2#4 }),
    ([0xF901#16, 0xB000#16], Instr.barw { gd := none, sc := Scope.cluster }),
    ([0xF949#16, 0xB000#16], Instr.fence { gd := none, kind := FenceKind.loads, sc := Scope.cluster }),
    ([0xF982#16, 0xB322#16], Instr.send { gd := none, d := 0x3#4, a := 0x2#4, la := 0x2#4, ch := 0x2#3 }),
    ([0xF9C2#16, 0xB302#16], Instr.recv { gd := none, d := 0x3#4, la := 0x2#4, ch := 0x2#3 }),
    ([0xFA02#16, 0xB302#16], Instr.recvn { gd := none, d := 0x3#4, la := 0x2#4, ch := 0x2#3 }),
    ([0xFA42#16, 0xB322#16], Instr.recvs { gd := none, d := 0x3#4, a := 0x2#4, la := 0x2#4, ch := 0x2#3 }),
    ([0xFA82#16, 0xB302#16], Instr.chstat { gd := none, d := 0x3#4, la := 0x2#4, ch := 0x2#3 }),
    ([0xFAC1#16, 0xB022#16], Instr.clean { gd := none, a := 0x2#4, la := 0x2#4, off := [], sc := Scope.cluster }),
    ([0xFB00#16, 0xB000#16], Instr.shfence { gd := none }),
    ([0xFB40#16, 0xB022#16], Instr.xpull { gd := none, a := 0x2#4, la := 0x2#4, off := [] }),
    ([0xFB80#16, 0xB022#16], Instr.xfill { gd := none, a := 0x2#4, la := 0x2#4, off := [] }),
    ([0xFBC0#16, 0xB322#16], Instr.xstat { gd := none, xp := true, d := 0x3#4, a := 0x2#4, la := 0x2#4, off := [] })
    ], decodeWords p.1 = .instr p.2 p.1.length := by decide
/-- Base nibble 0xC, words from the fields that spec/opcode_table.json gives each row (R83–R97). -/
theorem test_decode_matrix : ∀ p ∈ [
    ([0xF880#16, 0xC100#16], Instr.mzero { gd := none, tile := 0x1#2 }),
    ([0xF8C0#16, 0xC122#16], Instr.mldc { gd := none, tile := 0x1#2, a := 0x2#4, la := 0x2#4, off := [] }),
    ([0xF900#16, 0xC122#16], Instr.mstc { gd := none, tile := 0x1#2, a := 0x2#4, la := 0x2#4, off := [] }),
    ([0xF945#16, 0xC022#16], Instr.wbld { gd := none, w := 0x5#3, a := 0x2#4, la := 0x2#4, off := [] }),
    ([0xF9C0#16, 0xC200#16], Instr.macq { gd := none, tile := 0x1#2 }),
    ([0xFA00#16, 0xC200#16], Instr.mrel { gd := none, tile := 0x1#2 }),
    ([0xFA40#16, 0xC222#16], Instr.sbind { gd := none, n := 0x2#2, a := 0x2#4, la := 0x2#4, off := [] }),
    ([0xFA80#16, 0xC200#16], Instr.sunbind { gd := none, n := 0x2#2 }),
    ([0xFAC2#16, 0xC302#16], Instr.sstat { gd := none, n := 0x2#2, d := 0x3#4, la := 0x2#4 }),
    ([0xFB00#16, 0xC200#16], Instr.sdrain { gd := none, n := 0x2#2 }),
    ([0xF802#16, 0xFC20#16, 0xC150#16], Instr.mma { gd := none, xp := true, tile := 0x1#2, a := 0x5#4, w := 0x2#3, k := [0x020#10] }),
    ([0xF842#16, 0xFC20#16, 0xC150#16], Instr.mmai { gd := none, xp := true, tile := 0x1#2, a := 0x5#4, w := 0x2#3, k := [0x020#10] }),
    ([0xF985#16, 0xC000#16], Instr.wbinv { gd := none, w := some 0x5#3 })
    ], decodeWords p.1 = .instr p.2 p.1.length := by decide
/-- Base nibble 0xD, words from the fields that spec/opcode_table.json gives each row (R83–R97). -/
theorem test_decode_net : ∀ p ∈ [
    ([0xD000#16], Instr.rwpop { gd := none, xp := false }),
    ([0xF840#16, 0xD222#16], Instr.rwpush { gd := none, d := 0x2#4, a := 0x2#4, la := 0x2#4 }),
    ([0xF880#16, 0xD322#16], Instr.nalloc { gd := none, d := 0x3#4, a := 0x2#4, la := 0x2#4 }),
    ([0xF8C0#16, 0xD022#16], Instr.nfree { gd := none, a := 0x2#4, la := 0x2#4 }),
    ([0xF980#16, 0xD322#16], Instr.pxchg { gd := none, d := 0x3#4, a := 0x2#4, la := 0x2#4 }),
    ([0xF9C0#16, 0xD222#16], Instr.plink { gd := none, d := 0x2#4, a := 0x2#4, la := 0x2#4 }),
    ([0xFA40#16, 0xD322#16], Instr.nown { gd := none, d := 0x3#4, a := 0x2#4, la := 0x2#4 }),
    ([0xFA80#16, 0xD000#16], Instr.rwdone { gd := none, la := 0x0#4 }),
    ([0xF900#16, 0xFC01#16, 0xD320#16], Instr.nld { gd := none, d := 0x3#4, a := 0x2#4, la := 0x0#4, w := [0x001#10] }),
    ([0xF940#16, 0xFC01#16, 0xD320#16], Instr.nst { gd := none, d := 0x3#4, a := 0x2#4, la := 0x0#4, w := [0x001#10] }),
    ([0xFA00#16, 0xFC01#16, 0xD320#16], Instr.nref { gd := none, d := 0x3#4, a := 0x2#4, la := 0x0#4, w := [0x001#10] })
    ], decodeWords p.1 = .instr p.2 p.1.length := by decide
/-- Base nibble 0xE, words from the fields that spec/opcode_table.json gives each row (R83–R97). -/
theorem test_decode_system : ∀ p ∈ [
    ([0xE020#16], Instr.trap { gd := none, xp := false, imm := { chunks := [], base := 0x02#8 } }),
    ([0xE051#16], Instr.mcall { gd := none, xp := false, svc := 0x05#8 }),
    ([0xE002#16], Instr.mret { gd := none, xp := false }),
    ([0xE323#16], Instr.crrd { gd := none, g := 0x3#4, lo := 0x2#4, hi := none }),
    ([0xE524#16], Instr.crwr { gd := none, g := 0x5#4, lo := 0x2#4, hi := none }),
    ([0xE225#16], Instr.segset { gd := none, xp := false, f := 0x2#3, n := 0x2#3 }),
    ([0xE226#16], Instr.segget { gd := none, xp := false, f := 0x2#3, n := 0x2#3 }),
    ([0xE227#16], Instr.segld { gd := none, xp := false, n := 0x2#3, a := 0x2#4 }),
    ([0xF802#16, 0xE028#16], Instr.invpg { gd := none, xp := true, a := 0x2#4, size := PageSize.p2m }),
    ([0xF802#16, 0xE029#16], Instr.invpgr { gd := none, xp := true, a := 0x2#4, size := PageSize.p2m }),
    ([0xE22A#16], Instr.protw { gd := none, xp := false, e := 0x2#4, f := 0x2#3 }),
    ([0xE02B#16], Instr.spill { gd := none, xp := false, r := 0x2#4 }),
    ([0xE02C#16], Instr.fill { gd := none, xp := false, r := 0x2#4 }),
    ([0xE30D#16], Instr.rdsig { gd := none, xp := false, r := 0x3#4 }),
    ([0xE30E#16], Instr.ndval { gd := none, xp := false, d := 0x3#4, rand := false }),
    ([0xE00F#16], Instr.halt { gd := none, xp := false })
    ], decodeWords p.1 = .instr p.2 p.1.length := by decide

/-! ### Ill-formed terms: one for each limit, which `Instr.wf` refuses -/

/-- A limit of each kind on register codes: R20 (code 15 is no general destination), R81 (pointer, data and zr codes), R78 (banks). -/
theorem test_wf_registers : ∀ i ∈ ([
    .add ⟨none, .bare, 15, 5⟩, .clz ⟨none, 15, 5⟩, .addi ⟨none, 15, ⟨[], 2⟩⟩, .pclr ⟨none, 15⟩, .clock ⟨none, false, 15⟩,
    .ld ⟨none, false, 10, 2, 0, []⟩, .ld ⟨none, false, 3, 10, 0, []⟩, .st ⟨none, false, 12, 2, []⟩, .st ⟨none, false, 3, 14, []⟩,
    .ldi ⟨none, true, 2, 2, 0, []⟩, .sti ⟨none, false, 2, 2, []⟩, .acas ⟨none, true, 9, 2, 0, [], ⟨false, false⟩⟩,
    .rupd ⟨none, 9, false, 9, 2, 0, []⟩, .rupd ⟨none, 0, false, 10, 2, 0, []⟩, .vextr ⟨none, none, 10, 1, 0⟩, .vins ⟨none, none, 1, 10, 0⟩,
    .vqnt ⟨none, some .f32, 1, 2, 10, false⟩, .vld ⟨none, none, 1, 14, []⟩, .vld ⟨none, none, 1, 10, [1]⟩, .vloop ⟨none, .n8, 10, 0⟩,
    .jmpr ⟨none, false, 10⟩, .callr ⟨none, false, 14⟩, .mma ⟨none, false, 0, 14, 0, [1]⟩, .mmai ⟨none, true, 0, 10, 0, [1]⟩,
    .spill ⟨none, false, 10⟩, .segld ⟨none, false, 0, 10⟩, .sstat ⟨none, 0, 10, 0⟩, .crrd ⟨none, 15, 0, none⟩, .pxfer ⟨none, false, 10, 0⟩,
    .mov ⟨none, some ⟨3, 0, 0, false⟩, false, 0, 0⟩, .mov ⟨none, some ⟨2, 2, 0, false⟩, false, 0, 0⟩,
    .mov ⟨none, some ⟨1, 0, 0, false⟩, false, 10, 0⟩, .mov ⟨none, some ⟨0, 0, 0, true⟩, false, 0, 0⟩,
    .vadd ⟨none, some ⟨1, 0, 0, false⟩, none, 0, 0, none, false⟩, .vadd ⟨none, some ⟨0, 1, 0, false⟩, none, 0, 10, none, false⟩,
    .vadd ⟨none, some ⟨0, 0, 0, true⟩, none, 0, 0, none, false⟩] : List Instr), i.wf = false := by decide

/-- A limit of each kind on immediates: R75 (three XIMM words at most), R84 (shift counts, bit fields, pointer fields),
R85 (a lane), R95 (k-count), R96 (node words), R97 (trap numbers). -/
theorem test_wf_immediates : ∀ i ∈ ([
    .addi ⟨none, 3, ⟨[1, 1, 1, 1], 0⟩⟩, .ld ⟨none, false, 3, 2, 0, [1, 1, 1, 1]⟩, .ceqi ⟨none, none, 3, ⟨[1, 1, 1, 1], 0⟩⟩,
    .jmp ⟨none, false, ⟨[1, 1, 1, 1], 0⟩⟩, .shli ⟨none, 3, ⟨[4], 0⟩⟩, .bfx ⟨none, 3, 2, 63, 1⟩, .bfi ⟨none, 3, 2, 31, 33⟩,
    .pfmt ⟨none, 3, ⟨[4], 0⟩⟩, .pblk ⟨none, 3, ⟨[], 8⟩⟩, .pseg ⟨none, 3, ⟨[], 8⟩⟩, .liLane ⟨none, 0, 3, ⟨[0x100], 0⟩⟩,
    .mma ⟨none, true, 0, 2, 0, []⟩, .mma ⟨none, true, 0, 2, 0, [0]⟩, .mma ⟨none, true, 0, 2, 0, [4, 0]⟩,
    .nld ⟨none, 3, 2, 0, []⟩, .nld ⟨none, 3, 2, 0, [4]⟩, .nst ⟨none, 3, 2, 1, [1]⟩, .nref ⟨none, 3, 2, 0, [4]⟩,
    .trap ⟨none, false, ⟨[1, 1, 1], 0⟩⟩] : List Instr), i.wf = false := by decide

/-- A limit of each kind on types, options and forms that need a prefix: R83 (functions of page 1), R85 to R97. -/
theorem test_wf_forms : ∀ i ∈ ([
    .div ⟨none, .bare, 3, 5⟩, .sext ⟨none, 3, 3, 5⟩, .ld8 ⟨none, false, 3, 2, 0, []⟩, .strel ⟨none, false, 3, 2, [], .die⟩,
    .aadd ⟨none, false, 3, 2, 0, [], ⟨true, false⟩⟩, .amin ⟨none, false, 3, 2, 0, [], ⟨false, false⟩⟩, .rupd ⟨none, 13, false, 3, 2, 0, []⟩,
    .spawn ⟨none, false, 3, 2, 0, []⟩, .waitw ⟨none, 3, 0, 0⟩, .vadd ⟨none, none, none, 0, 0, some 1, false⟩,
    .vadd ⟨none, none, some .f32, 0, 0, none, true⟩, .vmul ⟨none, none, some .n16, 0, 0, none, true⟩,
    .vshl ⟨none, none, some .f16, 0, 0, none, false⟩, .vgath ⟨none, none, 1, 2, 1, []⟩, .vshuf ⟨none, none, 1, 2, 1⟩,
    .vsel ⟨none, none, 1, 2, 0, true⟩, .vqnt ⟨none, some .n16, 1, 2, 3, false⟩, .vdqnt ⟨none, some .f16, 1, 2, []⟩,
    .vaccr ⟨none, none, 1, 0, 1, 0⟩, .vmovp ⟨none, none, 1, true, false⟩, .vrcp ⟨none, .n16, 1, 2⟩, .getid ⟨none, false, 3, 7⟩,
    .crrd ⟨none, 3, 10, none⟩, .crwr ⟨none, 3, 1, none⟩, .crwr ⟨none, 3, 9, none⟩, .invpg ⟨none, false, 2, .p2m⟩,
    .ndval ⟨none, false, 3, true⟩] : List Instr), i.wf = false := by decide

/-! ### States -/

/-- A grain at the start of a program. -/
def ready : State := placed State.reset []
/-- The same with its grain changed. -/
def withGrain (f : Grain → Grain) : State := ready.setGrain (f ready.grain)
/-- The same with a core of its own changed. -/
def withCore (f : Core → Core) : State := ready.setCurCore (f ready.curCore)
/-- The same with its launch changed. -/
def withLaunch (f : Launch → Launch) : State := ready.setLaunch 1 (f (ready.launch 1))
/-- The same with general registers set, from g0 on. -/
def withRegs (xs : List Word) : State := withGrain fun g => xs.zipIdx.foldl (fun g x => g.setReg x.2 x.1) g
/-- Stream 1 as given. -/
def withStream (st : Stream) : State := withGrain fun g => { g with streams := g.streams.set 1 st }

/-! ### States and operands that meet the statements' hypotheses -/

/-- g1 and g2 as operands of a binary function. -/
def alu01 : AluArgs := ⟨none, .bare, 0, 1⟩
/-- A stream bound for input, with one element fetched. -/
def inStream : Stream := { Stream.unbound with bound := true, fmt := .n8, c0 := 4, c1 := 1, c2 := 1, s0 := 1, fetched := [.value 9#64] }

/-- g9 and stream 1, the ends of their ranges of codes, can be read. -/
theorem wit_RegisterFields : (9#4).toNat < 10 ∧ ∃ st rest x, (11#4).toNat = 10 + (1 : Fin 4).val
    ∧ st = (withStream inStream).grain.streams[(1 : Fin 4)] ∧ st.bound = true ∧ st.output = false ∧ st.pos < st.total
    ∧ st.fetched = .value x :: rest :=
  ⟨by decide, _, [], 9#64, by decide, rfl, rfl, rfl, by decide, rfl⟩
theorem wit_RegisterFields_misuse : (ready.grain.streams[(3 : Fin 4)]).bound = false
    ∧ ∃ st, st = (withStream { inStream with output := true }).grain.streams[(1 : Fin 4)] ∧ st.bound = true ∧ st.output = true :=
  ⟨rfl, _, rfl, rfl, rfl⟩
theorem wit_RegisterFields_end : ∃ st, st = (withStream { inStream with pos := 4 }).grain.streams[(1 : Fin 4)] ∧ st.bound = true
    ∧ st.output = false ∧ st.total ≤ st.pos := ⟨_, rfl, rfl, rfl, by decide⟩

theorem wit_RegisterFields_append : ∃ st, st = (withStream { inStream with output := true }).grain.streams[(1 : Fin 4)]
    ∧ (∀ e ∈ (withStream { inStream with output := true }).grain.seq, e.stream.any (fun k => k.toNat == 1) = false
        ∨ (withStream { inStream with output := true }).grain.ownReplay e = true) ∧ st.bound = true ∧ st.output = true ∧ st.pos < st.total
    ∧ st.appended.length < st.room ∧ (withStream { inStream with output := true }).grain.pend.any (fun p => p.kind.isAcquire) = false :=
  ⟨_, rfl, fun _ h => absurd h List.not_mem_nil, rfl, rfl, by decide, by decide, rfl⟩

/-- x is d and y is s (R106). -/
theorem wit_BinaryResults : ∃ s x y s1, Issues (.mulh alu01) none (Touch.of (aluRegs alu01)) s
    ∧ BinaryReads s.grain.pc alu01 (s.issued (.mulh alu01)) x y s1 :=
  ⟨withRegs [5#64, 7#64], 5#64, 7#64, _, ⟨rfl, rfl, rfl, rfl, rfl⟩, _, rfl, rfl⟩
/-- A pointer of a format with a step and one without, a divisor and none. -/
theorem wit_PointerStepsAndDivisions : ∃ s x y s1, Issues (.div alu01) none (Touch.of (aluRegs alu01)) s
    ∧ BinaryReads s.grain.pc alu01 (s.issued (.div alu01)) x y s1 ∧ y = 0#64 ∧ ptrStep x = some 1 :=
  ⟨withRegs [5#64, 0#64], 5#64, 0#64, _, ⟨rfl, rfl, rfl, rfl, rfl⟩, ⟨_, rfl, rfl⟩, rfl, rfl⟩
theorem wit_PointerStepsAndDivisions_other : ∃ s x y s1, Issues (.subp alu01) none (Touch.of (aluRegs alu01)) s
    ∧ BinaryReads s.grain.pc alu01 (s.issued (.subp alu01)) x y s1 ∧ y ≠ 0#64 ∧ ptrStep x = none :=
  ⟨withRegs [0xF000000000000005#64, 7#64], 0xF000000000000005#64, 7#64, _, ⟨rfl, rfl, rfl, rfl, rfl⟩, ⟨_, rfl, rfl⟩, by decide, rfl⟩

/-- Operands of a unary, an immediate and a field function. -/
theorem wit_UnaryAndImmediateResults : ∃ s1 s2 s3 s4,
    (Issues (.clz ⟨none, 0, 1⟩) none (Touch.of (regRes 0 ++ regRes 1)) ready ∧ Reads 0#64 1 (ready.issued (.clz ⟨none, 0, 1⟩)) 0#64 s1)
    ∧ (Issues (.muli ⟨none, 9, ⟨[], 3⟩⟩) none (Touch.of (regRes 9)) ready
        ∧ ReadsOwn 0#64 9 (ready.issued (.muli ⟨none, 9, ⟨[], 3⟩⟩)) 0#64 s2)
    ∧ (Issues (.bfi ⟨none, 0, 1, 63, 0⟩) none (Touch.of (regRes 0 ++ regRes 1)) ready
        ∧ ReadsOwn 0#64 0 (ready.issued (.bfi ⟨none, 0, 1, 63, 0⟩)) 0#64 s3 ∧ Reads 0#64 1 s3 0#64 s4) :=
  ⟨_, _, _, _, ⟨⟨rfl, rfl, rfl, rfl, rfl⟩, rfl⟩, ⟨⟨rfl, rfl, rfl, rfl, rfl⟩, rfl⟩, ⟨rfl, rfl, rfl, rfl, rfl⟩, rfl, rfl⟩
/-- A MOV to the upper half of v15. -/
theorem wit_UnaryAndImmediateResults_mov : ∃ (a : MovArgs) (s1 : State), a.xr = some ⟨2, 0, 0, true⟩ ∧ Issues (.mov a) a.gd (Touch.of []) ready
    ∧ (ready.issued (.mov a)).grain.seqBusy = false ∧ Reads 0#64 a.s (ready.issued (.mov a)) 0#64 s1 :=
  ⟨⟨none, some ⟨2, 0, 0, true⟩, false, 15, 14⟩, _, rfl, ⟨rfl, rfl, rfl, rfl, rfl⟩, rfl, rfl⟩

/-- A compare of registers, one with an immediate, PLOG, and PXFER of a word that may be written and of one that may not. -/
theorem wit_ComparesAndPredicates : ∃ s1 s2,
    (Issues (.clt ⟨none, none, 0, 1⟩) none (Touch.predsOf (regRes 0 ++ regRes 1 ++ predRes 0#5)) ready
      ∧ Reads 0#64 0 (ready.issued (.clt ⟨none, none, 0, 1⟩)) 0#64 s1 ∧ Reads 0#64 1 s1 0#64 s2)
    ∧ Issues (.plog ⟨none, none, 8, 1, 2⟩) none (Touch.predsOf (predRes 1 ++ predRes 2 ++ predRes 0#5)) ready
    ∧ Issues (.pxfer ⟨none, false, 0, 1⟩) none (Touch.predsOf (regRes 0 ++ [.p0])) ready
    ∧ ready.grain.reg 0 >>> 47 = 0#64 ∧ etypeOfCode ((ready.grain.reg 0).extractLsb' 40 4) ≠ none
    ∧ (withRegs [-1#64]).grain.reg 0 >>> 47 ≠ 0#64 :=
  ⟨_, _, ⟨⟨rfl, rfl, rfl, rfl, rfl⟩, rfl, rfl⟩, ⟨rfl, rfl, rfl, rfl, rfl⟩, ⟨rfl, rfl, rfl, rfl, rfl⟩, by decide, by decide, by decide⟩

/-- Registers with bit 0 clear and set, and a count that ends a LOOP. -/
theorem wit_Transfers : Issues (.br ⟨31, false, ⟨[], 4⟩⟩) (some ⟨31, false⟩) (Touch.of []) ready
    ∧ Issues (.jmpr ⟨none, false, 0⟩) none (Touch.of (regRes 0)) ready ∧ ready.grain.reg 0 = 0#64
    ∧ Issues (.callr ⟨none, false, 0⟩) none (Touch.of (regRes 0 ++ [.g 9#4])) (withRegs [1#64]) ∧ (withRegs [1#64]).grain.pend = []
    ∧ ((withRegs [1#64]).grain.reg 0).getLsbD 0 = true ∧ Issues (.loop ⟨none, false, 0, ⟨[], 4⟩⟩) none (Touch.of (regRes 0)) (withRegs [1#64]) :=
  ⟨⟨rfl, rfl, rfl, rfl, rfl⟩, ⟨rfl, rfl, rfl, rfl, rfl⟩, rfl, ⟨rfl, rfl, rfl, rfl, rfl⟩, rfl, by decide, ⟨rfl, rfl, rfl, rfl, rfl⟩⟩

/-- The grain with sg1 over the sequence area, and general registers set from g0 on. -/
def area (xs : List Word) : State :=
  (withRegs xs).setGrain { (withRegs xs).grain with sg := (withRegs xs).grain.sg.set 1 ⟨0x800000#64, 0x40000#64, 3#64⟩ }
/-- An n64 pointer to the start of the cluster SRAM, and a seq pointer to the start of the sequence area. -/
def ptr64 : Word := 0x1800000000000000#64
def ptrSeq : Word := 0xC010000000000000#64

/-- A quiet grain of a launch without replicas; one whose core queues a grain of its class; one away from its home core. -/
theorem wit_GrainEnds : Issues (.exit ⟨none, false⟩) none (Touch.of []) ready ∧ Quiet (ready.issued (.exit ⟨none, false⟩))
    ∧ Released (ready.issued (.exit ⟨none, false⟩)) .system ∧ Alone (ready.issued (.exit ⟨none, false⟩)) :=
  ⟨⟨rfl, rfl, rfl, rfl, rfl⟩, ⟨rfl, rfl⟩, ⟨rfl, rfl, rfl, Or.inr rfl, rfl⟩, by unfold Alone; decide⟩
theorem wit_GrainEnds_yield : ∃ s : State, Issues (.yield ⟨none, false⟩) none (Touch.of []) s ∧ Quiet (s.issued (.yield ⟨none, false⟩))
    ∧ queuedFor (s.issued (.yield ⟨none, false⟩)) s.cur = true ∧ s.storesPending s.cur = false ∧ s.engineIdle s.cur.core = true :=
  ⟨withCore fun c => { c with runQ := [{ kind := .unstarted 0, cls := 0#2, launch := 1 }] }, ⟨rfl, rfl, rfl, rfl, rfl⟩, ⟨rfl, rfl⟩, rfl, rfl, rfl⟩
theorem wit_GrainEnds_rhome : ∃ s : State, Issues (.rhome ⟨none, false⟩) none (Touch.of []) s ∧ Quiet (s.issued (.rhome ⟨none, false⟩))
    ∧ s.grain.spawned = false ∧ (unpackLoc s.grain.home).core ≠ s.cur.core ∧ s.storesPending s.cur = false ∧ vdirtyOf s.grain.pw = false
    ∧ migrateDenied (s.issued (.rhome ⟨none, false⟩)) (unpackLoc s.grain.home).core = none :=
  ⟨withGrain fun g => { g with home := 16 }, ⟨rfl, rfl, rfl, rfl, rfl⟩, ⟨rfl, rfl⟩, rfl, by decide, rfl, rfl, rfl⟩

theorem wit_ObservedValues : Issues (.getid ⟨none, false, 0, 6⟩) none (Touch.of (regRes 0)) ready ∧ (6#3 = 6#3)
    ∧ (ready.launch ready.grain.launch).reps.count ≤ 1 ∧ Issues (.clock ⟨none, false, 0⟩) none (Touch.of (regRes 0)) ready
    ∧ (withCore fun c => { c with randReady := some 5#64 }).curCore.randReady = some 5#64
    ∧ Issues (.rand ⟨none, false, 0⟩) none (Touch.of (regRes 0)) (withCore fun c => { c with randReady := some 5#64 }) :=
  ⟨⟨rfl, rfl, rfl, rfl, rfl⟩, rfl, by decide, ⟨rfl, rfl, rfl, rfl, rfl⟩, rfl, ⟨rfl, rfl, rfl, rfl, rfl⟩⟩
/-- A grain of a launch with two replicas to which a value has been forwarded. -/
def forwarded : State :=
  (withLaunch fun l => { l with reps := { l.reps with count := 2, live := [0, 1] } }).setGrain { ready.grain with forwarded := [(0, 7#64)] }
theorem wit_ObservedValues_forwarded : 2 ≤ (forwarded.launch forwarded.grain.launch).reps.count
    ∧ PMap.get? forwarded.grain.ndCount forwarded.grain.forwarded = some 7#64
    ∧ Issues (.ndval ⟨none, false, 0, true⟩) none (Touch.of (regRes 0)) forwarded :=
  ⟨by decide, rfl, ⟨rfl, rfl, rfl, rfl, rfl⟩⟩

/-- A load of the first word of the SRAM, one past its segment, an LDACQ of a seq word, an LDREC. -/
theorem wit_LoadsBegin : ∃ acc c info acc2 acc3,
    (Issues (.ld ⟨none, false, 1, 0, 2, []⟩) none (Touch.longOf (regRes 1 ++ regRes 0)) (withRegs [ptr64])
      ∧ Points 0 [] loadFmts (withRegs [ptr64]) ptr64 8
      ∧ checkAcc ((withRegs [ptr64]).issued (.ld ⟨none, false, 1, 0, 2, []⟩)) ptr64 (readSpec loadFmts 8 8) = .ok acc)
    ∧ checkAcc ready (ptr64 + 0x100000#64) (readSpec loadFmts 8 8) = .error (c, info)
    ∧ (Issues (.ldacq ⟨none, true, 1, 0, 0, [], .system⟩) none (Touch.longOf (regRes 1 ++ regRes 0)) (area [ptrSeq])
      ∧ Points 0 [] loadFmts (area [ptrSeq]) ptrSeq 8 ∧ checkAcc (area [ptrSeq]) ptrSeq (readSpec loadFmts 8 8) = .ok acc2)
    ∧ Issues (.ldrec ⟨none, 7, 0, 0, []⟩) none (Touch.longOf (regRes 0)) (withRegs [ptr64])
    ∧ checkAcc (withRegs [ptr64]) ptr64 (readSpec plainFmts 192 64) = .ok acc3 :=
  ⟨_, _, _, _, _, ⟨⟨rfl, rfl, rfl, rfl, rfl⟩, ⟨rfl, rfl, rfl⟩, rfl⟩, rfl, ⟨⟨rfl, rfl, rfl, rfl, rfl⟩, ⟨rfl, rfl, rfl⟩, rfl⟩,
    ⟨rfl, rfl, rfl, rfl, rfl⟩, rfl⟩
theorem wit_LoadsBegin_pref : ∃ acc k, Issues (.pref ⟨none, 0, []⟩) none (Touch.of (regRes 0)) (withRegs [ptr64]) ∧ ptrStep ptr64 = some 8
    ∧ checkAcc (withRegs [ptr64]) ptr64 (readSpec allFmts 1 1) = .ok acc ∧ placeOf (withRegs [ptr64]) acc.ctx acc.addr = .ok k
    ∧ ptrStep 0xF000000000000000#64 = none := ⟨_, _, ⟨rfl, rfl, rfl, rfl, rfl⟩, rfl, rfl, rfl, rfl⟩

/-- A load that is outstanding with its operation number. -/
def loading (acc : Acc) : State := withGrain fun g => { g with nextOp := 1, pend := [⟨1, 0#64, .load acc .sign 1 .none true none⟩] }
def sramAcc : Acc := { ptr := ptr64, addr := 0x400000, named := 0, size := 8, ctx := 0#12 }
/-- A store of 8 bytes at the start of the SRAM. -/
def sramStore : BufStore := ⟨0, 0, 0#12, 1, 0#64, 0x400000, ptr64, leBytes 8 5, true, false⟩
/-- The core's buffer with that store. -/
def stored : State := withCore fun c => { c with buffer := [sramStore] }
theorem wit_LoadResults : ∃ p bs s1, pendAt (loading sramAcc) ⟨0, 0⟩ 1 = some p ∧ p.kind = .load sramAcc .sign 1 .none true none
    ∧ (loading sramAcc).grain.acquireBefore 1 = false ∧ (loading sramAcc).grain.loadBefore 1 0x400000 8 = false
    ∧ (loading sramAcc).grain.atomicBefore 1 0x400000 8 = false
    ∧ serveLoad (loading sramAcc) 0 0#12 0 0x400000 8 true (true && shapedLoad sramAcc) = .value bs s1 := ⟨_, _, _, rfl, rfl, rfl, rfl, rfl, rfl⟩
theorem wit_LoadResults_served : engineHolds stored 0#12 0x400004 4 = false ∧ bufferedStore (stored.core 0) 0#12 0x400004 4 = some sramStore
    ∧ sramStore.addr ≤ 0x400004 ∧ 0x400004 + 4 ≤ sramStore.addr + sramStore.bytes.length
    ∧ bufferedStore (stored.core 0) 0#12 0x400006 4 = some sramStore ∧ sramStore.addr + sramStore.bytes.length < 0x400006 + 4
    ∧ bufferedStore (stored.core 0) 0#12 0x400008 4 = none ∧ stored.reachable 0x400008 = true
    ∧ (stored.core 0).l1Hit 0#12 0 (0x400008 / 32) = none := ⟨rfl, rfl, by decide, by decide, rfl, by decide, rfl, rfl, rfl⟩

/-- Nothing is outstanding before a write. -/
theorem clear_ready (acc : Acc) : Clear ready.grain acc := fun _ hp => absurd hp List.not_mem_nil

theorem wit_Stores : ∃ s1 acc c info, Issues (.sti ⟨none, false, 1, 0, []⟩) none (Touch.of (regRes 1 ++ regRes 0)) (withRegs [ptr64])
    ∧ Reads 0#64 1 ((withRegs [ptr64]).issued (.sti ⟨none, false, 1, 0, []⟩)) 0#64 s1 ∧ Points 0 [] loadFmts s1 ptr64 8
    ∧ checkAcc s1 ptr64 (writeSpec loadFmts 8 8) = .ok acc ∧ Clear (withRegs [ptr64]).grain acc
    ∧ checkAcc s1 (ptr64 + 1#64) (writeSpec loadFmts 8 8) = .error (c, info) :=
  ⟨_, _, _, _, ⟨rfl, rfl, rfl, rfl, rfl⟩, rfl, ⟨rfl, rfl, rfl⟩, rfl, fun _ hp => absurd hp List.not_mem_nil, rfl⟩
theorem wit_Stores_release : ∃ s1 acc, Issues (.strel ⟨none, true, 1, 0, [], .system⟩) none (Touch.of (regRes 1 ++ regRes 0)) (withRegs [ptr64])
    ∧ Reads 0#64 1 ((withRegs [ptr64]).issued (.strel ⟨none, true, 1, 0, [], .system⟩)) 0#64 s1 ∧ Points 0 [] loadFmts s1 ptr64 8
    ∧ checkAcc s1 ptr64 (writeSpec loadFmts 8 8) = .ok acc ∧ Released s1 .system ∧ Alone s1 ∧ Clear s1.grain acc :=
  ⟨_, _, ⟨rfl, rfl, rfl, rfl, rfl⟩, rfl, ⟨rfl, rfl, rfl⟩, rfl, ⟨rfl, rfl, rfl, Or.inr rfl, rfl⟩, by unfold Alone; decide,
    fun _ hp => absurd hp List.not_mem_nil⟩
theorem wit_Stores_performed : ∃ ks, stored.Inv ∧ (stored.core 0).storesOf 0 = [sramStore] ∧ engineHolds stored 0#12 0x400000 8 = false
    ∧ placesOf stored 0#12 0x400000 8 = .ok ks ∧ ks.Nodup ∧ ∀ k ∈ ks, isOutside k = false :=
  ⟨_, rfl, rfl, rfl, rfl, by decide, by decide⟩

/-- An atomic whose element lies in the SRAM, and its result. -/
def casReq : AtomReq := { op := .cas, acc := sramAcc, signed := false, fmt := .n64, x := 0#64, y := 9#64, rm := .rne, acquire := false, launch := 1, tag := none }
def casing (res : Option AtomRes) : State :=
  withGrain fun g => { g with nextOp := 1, pend := [⟨1, 0#64, .atomic casReq 1 false res⟩] }
theorem wit_AtomicsBegin : ∃ acc, Issues (.acas ⟨none, true, 1, 0, 0, [], ⟨true, true⟩⟩) none
      (Touch.longOf (atomDst .cas 1 ++ regRes 0)) (withRegs [ptr64])
    ∧ Points 0 [] AtomOp.cas.fmts (withRegs [ptr64]) ptr64 8
    ∧ checkAcc ((withRegs [ptr64]).issued (.acas ⟨none, true, 1, 0, 0, [], ⟨true, true⟩⟩)) ptr64 (atomSpec AtomOp.cas.fmts 8 true) = .ok acc
    ∧ Released ((withRegs [ptr64]).issued (.acas ⟨none, true, 1, 0, 0, [], ⟨true, true⟩⟩)) .system
    ∧ outsideReplica ((withRegs [ptr64]).issued (.acas ⟨none, true, 1, 0, 0, [], ⟨true, true⟩⟩)) acc.addr = false :=
  ⟨_, ⟨rfl, rfl, rfl, rfl, rfl⟩, ⟨rfl, rfl, rfl⟩, rfl, ⟨rfl, rfl, rfl, Or.inr rfl, rfl⟩, rfl⟩

theorem wit_AtomicResults : ∃ p old, (casing none).Inv ∧ pendAt (casing none) ⟨0, 0⟩ 1 = some p ∧ p.kind = .atomic casReq 1 false none
    ∧ ((casing none).launch (casing none).grain.launch).reps.count ≤ 1 ∧ (casing none).grain.acquireBefore 1 = false
    ∧ (casing none).grain.loadBefore 1 0x400000 8 = false ∧ (casing none).grain.atomicBefore 1 0x400000 8 = false
    ∧ bufferedStore ((casing none).core 0) 0#12 0x400000 8 = none ∧ casReq.tag = none ∧ (casing none).curCore.storesOf 0 = [] ∧ engineHolds (casing none) 0#12 0x400000 8 = false
    ∧ readOwner (casing none) 0#12 0x400000 8 = .value old :=
  ⟨_, _, rfl, rfl, rfl, by decide, rfl, rfl, rfl, rfl, rfl, rfl, rfl, rfl⟩
theorem wit_AtomicResults_returned : ∃ p, pendAt (casing (some ⟨5#64, true, 0#5⟩)) ⟨0, 0⟩ 1 = some p
    ∧ p.kind = .atomic casReq 1 false (some ⟨5#64, true, 0#5⟩) := ⟨_, rfl, rfl⟩

theorem wit_RemoteUpdates : ∃ acc, Issues (.rupd ⟨none, 0, true, 1, 0, 0, []⟩) none (Touch.longOf (atomDst .add 1 ++ regRes 0)) (withRegs [ptr64])
    ∧ AtomOp.add.ordered = false ∧ Points 0 [] AtomOp.add.fmts (withRegs [ptr64]) ptr64 8
    ∧ checkAcc ((withRegs [ptr64]).issued (.rupd ⟨none, 0, true, 1, 0, 0, []⟩)) ptr64 (atomSpec AtomOp.add.fmts 8 true) = .ok acc
    ∧ outsideReplica ((withRegs [ptr64]).issued (.rupd ⟨none, 0, true, 1, 0, 0, []⟩)) acc.addr = false
    ∧ Released ((withRegs [ptr64]).issued (.rupd ⟨none, 0, true, 1, 0, 0, []⟩)) .system ∧ Clear (withRegs [ptr64]).grain acc :=
  ⟨_, ⟨rfl, rfl, rfl, rfl, rfl⟩, rfl, ⟨rfl, rfl, rfl⟩, rfl, rfl, ⟨rfl, rfl, rfl, Or.inr rfl, rfl⟩, fun _ hp => absurd hp List.not_mem_nil⟩
theorem wit_RemoteUpdates_ordered : (atomOfVariant 8).ordered = true ∧ ((withLaunch fun l => { l with detMode := true }).launch 1).detMode = true
    ∧ Issues (.rupd ⟨none, 8, true, 1, 0, 0, []⟩) none (Touch.longOf (atomDst (atomOfVariant 8) 1 ++ regRes 0)) ready :=
  ⟨rfl, rfl, ⟨rfl, rfl, rfl, rfl, rfl⟩⟩

/-- A pointer to core 0's scratchpad names core 0; one through sg0 to the second page of the SRAM names core 1. -/
def ptrCore1 : Word := 0x1000#64
theorem wit_MovingWork : ∃ acc, Issues (.migr ⟨none, 0, []⟩) none (Touch.of (regRes 0)) (withRegs [ptrCore1])
    ∧ Quiet ((withRegs [ptrCore1]).issued (.migr ⟨none, 0, []⟩)) ∧ (withRegs [ptrCore1]).storesPending ⟨0, 0⟩ = false
    ∧ Points 0 [] allFmts ((withRegs [ptrCore1]).issued (.migr ⟨none, 0, []⟩)) ptrCore1 1
    ∧ checkAcc ((withRegs [ptrCore1]).issued (.migr ⟨none, 0, []⟩)) ptrCore1 nameSpec = .ok acc
    ∧ (withRegs [ptrCore1]).alive (acc.addr / 2 ^ 38) = true ∧ vdirtyOf (withGrain fun g => { g with pw := setBit g.pw 44 true }).grain.pw = true ∧ targetCore acc.addr ≠ 0
    ∧ migrateDenied ((withRegs [ptrCore1]).issued (.migr ⟨none, 0, []⟩)) (targetCore acc.addr) = none :=
  ⟨_, ⟨rfl, rfl, rfl, rfl, rfl⟩, ⟨rfl, rfl⟩, rfl, ⟨rfl, rfl, rfl⟩, rfl, rfl, rfl, by decide, rfl⟩
theorem wit_MovingWork_spawn : ∃ acc, Issues (.spawn ⟨none, false, 1, 0, 0, []⟩) none (Touch.longOf (regRes 1 ++ regRes 0 ++ [.g 2#4]))
      (withRegs [ptrCore1, 0x800#64]) ∧ (0x800#64 : Word).getLsbD 0 = false
    ∧ Points 0 [] allFmts ((withRegs [ptrCore1, 0x800#64]).issued (.spawn ⟨none, false, 1, 0, 0, []⟩)) ptrCore1 1
    ∧ checkAcc ((withRegs [ptrCore1, 0x800#64]).issued (.spawn ⟨none, false, 1, 0, 0, []⟩)) ptrCore1 nameSpec = .ok acc
    ∧ outsideReplica ((withRegs [ptrCore1, 0x800#64]).issued (.spawn ⟨none, false, 1, 0, 0, []⟩)) acc.addr = false
    ∧ Performed (withRegs [ptrCore1, 0x800#64]) :=
  ⟨_, ⟨rfl, rfl, rfl, rfl, rfl⟩, rfl, ⟨rfl, rfl, rfl⟩, rfl, rfl, ⟨rfl, rfl, rfl, rfl⟩⟩
/-- A grain on its way to core 1, which runs. -/
def travelling (src : Option Loc) (f : Core → Core) : State :=
  let p : Packet := { addr := 0, sender := 0, target := 1, source := src, grain := { ready.grain with index := 5#64 } }
  (ready.setCore 1 (f { Core.reset with status := .running, partitions := [(1, 0)] })).setCluster 0 { ready.cluster 0 with packets := [p] }
theorem wit_MovingWork_arrival : ∃ s p, s = travelling (some ⟨0, 0⟩) id ∧ (s.cluster 0).packets.find? (fun p => p.source == some ⟨0, 0⟩) = some p
    ∧ targetAlive s p.target = true ∧ (s.core p.target).status = .running
    ∧ (List.finRange 16).find? (fun i : Fin 16 => (s.core p.target).slots[i].st == .empty) = some 0
    ∧ (PMap.get? p.grain.launch (s.core p.target).partitions).isSome = true ∧ arrivalRoom s p.target = true ∧ (s.core p.target).sliceCycles ≠ 0#32
    ∧ p.target ≠ 0 :=
  ⟨_, _, rfl, rfl, rfl, rfl, rfl, rfl, rfl, by decide, by decide⟩
/-- The target holds a grain in every slot and 64 more in its run queue. -/
def crowded : State := travelling (some ⟨0, 0⟩) fun c =>
  { c with slots := Vector.replicate 16 { Slot.blank with st := .ready }, runQ := List.replicate 64 { kind := .unstarted 0, cls := 0#2, launch := 1 } }
set_option maxRecDepth 20000 in
theorem wit_MovingWork_crowded : (∀ i : Fin 16, (crowded.core 1).slots[i].st ≠ .empty) ∧ 64 ≤ (crowded.core 1).runQ.length ∧ targetAlive crowded 1 = true :=
  ⟨by decide, by decide, rfl⟩
theorem wit_MovingWork_retry : ∃ gid p, packetFor (travelling none id) 1 true = some (gid, p) ∧ p.source = none
    ∧ targetAlive (travelling none id) p.target = true :=
  ⟨0, { addr := 0, sender := 0, target := 1, source := none, grain := { ready.grain with index := 5#64 } },
    (congrArg (fun k => [_][k]?) (Nat.mod_one _)).trans rfl, rfl, rfl⟩

theorem wit_SequenceWords : ∃ acc, Issues (.seqwait ⟨none, true, 1, 0, 0, [], .system⟩) none (Touch.longOf (regRes 1 ++ regRes 0)) (area [ptrSeq])
    ∧ Points 0 [] [48] ((area [ptrSeq]).issued (.seqwait ⟨none, true, 1, 0, 0, [], .system⟩)) ptrSeq 8
    ∧ checkAcc ((area [ptrSeq]).issued (.seqwait ⟨none, true, 1, 0, 0, [], .system⟩)) ptrSeq seqRead = .ok acc ∧ translated acc.addr = false :=
  ⟨_, ⟨rfl, rfl, rfl, rfl, rfl⟩, ⟨rfl, rfl, rfl⟩, rfl, rfl⟩
theorem wit_SequenceWords_adv : ∃ acc, Issues (.seqadv ⟨none, true, 1, 0, 0, [], .system⟩) none (Touch.longOf (regRes 1 ++ regRes 0)) (area [ptrSeq])
    ∧ checkAcc ((area [ptrSeq]).issued (.seqadv ⟨none, true, 1, 0, 0, [], .system⟩)) ptrSeq seqWrite = .ok acc
    ∧ Released ((area [ptrSeq]).issued (.seqadv ⟨none, true, 1, 0, 0, [], .system⟩)) .system
    ∧ Alone ((area [ptrSeq]).issued (.seqadv ⟨none, true, 1, 0, 0, [], .system⟩)) ∧ Clear (area [ptrSeq]).grain acc :=
  ⟨_, ⟨rfl, rfl, rfl, rfl, rfl⟩, rfl, ⟨rfl, rfl, rfl, Or.inr rfl, rfl⟩, by unfold Alone; decide, fun _ hp => absurd hp List.not_mem_nil⟩

/-- An operation on the sequence word 0 is outstanding, and watches 1 and 0 are as given. -/
def seqAcc : Acc := { ptr := ptrSeq, addr := 0x800000, named := 0, size := 8, ctx := 0#12 }
def onWord (k : PendKind) (w : Watch) : State :=
  withGrain fun g => { g with nextOp := 1, pend := [⟨1, 0#64, k⟩], watches := g.watches.set 1 w }
/-- A SEQWAIT whose word holds its threshold, and one whose word lies below it. -/
theorem wit_SequenceWords_seqwait : ∃ p bs s1, pendAt (onWord (.seqwait seqAcc 1 0#64 .system) Watch.off) ⟨0, 0⟩ 1 = some p
    ∧ p.kind = .seqwait seqAcc 1 0#64 .system ∧ seqAcc.now (onWord (.seqwait seqAcc 1 0#64 .system) Watch.off) 0 1 0 = seqAcc
    ∧ ((onWord (.seqwait seqAcc 1 0#64 .system) Watch.off).grainAt ⟨0, 0⟩).earlierFirst 1 0x800000 8 = false
    ∧ (((onWord (.seqwait seqAcc 1 0#64 .system) Watch.off).grainAt ⟨0, 0⟩).watches[(0 : Fin 5)]).lost = false
    ∧ serveLoad (onWord (.seqwait seqAcc 1 0#64 .system) Watch.off) 0 0#12 0 0x800000 8 false false = .value bs s1 ∧ (wordOf bs 0).toNat = 0 :=
  ⟨_, _, _, rfl, rfl, rfl, rfl, rfl, rfl, by decide⟩
theorem wit_SequenceWords_below : ∃ p bs s1, pendAt (onWord (.seqwait seqAcc 1 5#64 .core) Watch.off) ⟨0, 0⟩ 1 = some p
    ∧ p.kind = .seqwait seqAcc 1 5#64 .core
    ∧ serveLoad (onWord (.seqwait seqAcc 1 5#64 .core) Watch.off) 0 0#12 0 0x800000 8 false false = .value bs s1
    ∧ (wordOf bs 0).toNat < (5#64 : Word).toNat ∧ (((onWord (.seqwait seqAcc 1 5#64 .core) Watch.off).grainAt ⟨0, 0⟩).watches[(0 : Fin 5)]).armed = false :=
  ⟨_, _, _, rfl, rfl, rfl, by decide, rfl⟩
theorem wit_SequenceWords_clean : ∃ p bs s1, pendAt (onWord (.clean seqAcc) Watch.off) ⟨0, 0⟩ 1 = some p ∧ p.kind = .clean seqAcc
    ∧ ((onWord (.clean seqAcc) Watch.off).grainAt ⟨0, 0⟩).earlierFirst 1 0x800000 8 = false
    ∧ serveLoad (onWord (.clean seqAcc) Watch.off) 0 0#12 0 0x800000 8 false false = .value bs s1 := ⟨_, _, _, rfl, rfl, rfl, rfl⟩
/-- A WAITW with a watch that has fired, with one that has not, and with none. -/
def armed (fired : Bool) : Watch := ⟨true, fired, 0x800000, 0, 5#64, false, false⟩
theorem wit_SequenceWords_waitw : ∀ b : Bool, ∃ p, pendAt (onWord (.waitw 1 15#4) (armed b)) ⟨0, 0⟩ 1 = some p ∧ p.kind = .waitw 1 15#4
    ∧ ((onWord (.waitw 1 15#4) (armed b)).grainAt ⟨0, 0⟩).acquireBefore 1 = false
    ∧ (∀ i : Fin 4, ((onWord (.waitw 1 15#4) (armed b)).grainAt ⟨0, 0⟩).watches[i.val + 1]? = some (if i = 0 then armed b else Watch.off))
    ∧ (15#4 : BitVec 4).getLsbD 0 = true ∧ (armed b).armed = true ∧ (armed b).lost = false ∧ (armed b).fired = b := by
  intro b; cases b <;> exact ⟨_, rfl, rfl, rfl, by decide, rfl, rfl, rfl, rfl⟩
theorem wit_SequenceWords_unarmed : ∃ p, pendAt (onWord (.waitw 1 15#4) Watch.off) ⟨0, 0⟩ 1 = some p
    ∧ ∀ i : Fin 4, ((onWord (.waitw 1 15#4) Watch.off).grainAt ⟨0, 0⟩).watches[i.val + 1]? = some Watch.off := ⟨_, rfl, by decide⟩
theorem wit_SequenceWords_added : ∃ p old, (onWord (.seqadd seqAcc 3#64) Watch.off).Inv ∧ pendAt (onWord (.seqadd seqAcc 3#64) Watch.off) ⟨0, 0⟩ 1 = some p
    ∧ p.kind = .seqadd seqAcc 3#64 ∧ ((onWord (.seqadd seqAcc 3#64) Watch.off).grainAt ⟨0, 0⟩).earlierFirst 1 0x800000 8 = false
    ∧ engineHolds (onWord (.seqadd seqAcc 3#64) Watch.off) 0#12 0x800000 8 = false
    ∧ ((onWord (.seqadd seqAcc 3#64) Watch.off).core 0).storesOf 0 = []
    ∧ bufferedStore ((onWord (.seqadd seqAcc 3#64) Watch.off).core 0) 0#12 0x800000 8 = none
    ∧ readOwner (onWord (.seqadd seqAcc 3#64) Watch.off) 0#12 0x800000 8 = .value old := ⟨_, _, rfl, rfl, rfl, rfl, rfl, rfl, rfl, rfl⟩
theorem wit_SequenceWords_watch : ∃ p w, pendAt (onWord (.watch 1) (armed false)) ⟨0, 0⟩ 1 = some p ∧ p.kind = .watch 1
    ∧ w = ((onWord (.watch 1) (armed false)).grainAt ⟨0, 0⟩).watches[(1 : Fin 5)] ∧ w.armed = true ∧ w.addr / 2 ^ 38 = coreCluster 0 :=
  ⟨_, _, rfl, rfl, rfl, rfl, rfl⟩
theorem wit_SequenceWords_arm : ∃ acc, Issues (.watch ⟨none, 1, 0, 0, [], 3⟩) none (Touch.longOf (regRes 1 ++ regRes 0)) (area [ptrSeq])
    ∧ Points 0 [] [48] ((area [ptrSeq]).issued (.watch ⟨none, 1, 0, 0, [], 3⟩)) ptrSeq 8
    ∧ checkAcc ((area [ptrSeq]).issued (.watch ⟨none, 1, 0, 0, [], 3⟩)) ptrSeq seqRead = .ok acc ∧ translated acc.addr = false
    ∧ Issues (.waitw ⟨none, 1, 0, 15⟩) none (Touch.longOf (regRes 1)) ready
    ∧ Issues (.clean ⟨none, 0, 0, [], .system⟩) none (Touch.longOf (regRes 0)) (area [ptrSeq]) :=
  ⟨_, ⟨rfl, rfl, rfl, rfl, rfl⟩, ⟨rfl, rfl, rfl⟩, rfl, rfl, ⟨rfl, rfl, rfl, rfl, rfl⟩, ⟨rfl, rfl, rfl, rfl, rfl⟩⟩

/-- A launch-time grain at a barrier that its core has been released from. -/
def released : State := (withGrain fun g => { g with barrier := some ⟨.core, 0⟩ }).setLaunch 1
  { ready.launch 1 with barriers := [{ sc := .core, unit := 0, epoch := 0, arrived := [0], releasedTo := [0], places := [0], resumeAt := [] }] }
theorem wit_BarriersAndFences : ∃ b x, Issues (.barw ⟨none, .core⟩) none (Touch.longOf []) released ∧ released.grain.spawned = false
    ∧ released.grain.barrier = some b ∧ groupOf (released.issued (.barw ⟨none, .core⟩)) b = some x
    ∧ x.releasedTo.contains (unpackLoc released.grain.home).core = true := ⟨_, _, ⟨rfl, rfl, rfl, rfl, rfl⟩, rfl, rfl, rfl, rfl⟩
theorem wit_BarriersAndFences_arrive : Issues (.barw ⟨none, .system⟩) none (Touch.longOf []) ready ∧ ready.grain.barrier = none
    ∧ Released (ready.issued (.barw ⟨none, .system⟩)) .system ∧ Alone (ready.issued (.barw ⟨none, .system⟩))
    ∧ ready.grain.loadsPending = false ∧ ready.grain.pend.any (fun p => p.kind.isAcquire) = false ∧ ready.storesPending ready.cur = false :=
  ⟨⟨rfl, rfl, rfl, rfl, rfl⟩, rfl, ⟨rfl, rfl, rfl, Or.inr rfl, rfl⟩, by unfold Alone; decide, rfl, rfl, rfl⟩
/-- A load is outstanding; a store stands in the buffer; a barrier is not released; a spawned grain. -/
theorem wit_BarriersAndFences_waits : Unreleased ((loading sramAcc).issued (.barw ⟨none, .core⟩)) .core
    ∧ Issues (.barw ⟨none, .core⟩) none (Touch.longOf []) (loading sramAcc) ∧ (loading sramAcc).grain.spawned = false
    ∧ Issues (.fence ⟨none, .all, .core⟩) none (Touch.longOf []) (loading sramAcc) ∧ (loading sramAcc).grain.loadsPending = true
    ∧ Issues (.fence ⟨none, .stores, .system⟩) none (Touch.longOf []) stored ∧ stored.storesPending stored.cur = true
    ∧ Issues (.shfence ⟨none⟩) none (Touch.longOf []) stored :=
  ⟨Or.inl rfl, ⟨rfl, rfl, rfl, rfl, rfl⟩, rfl, ⟨rfl, rfl, rfl, rfl, rfl⟩, rfl, ⟨rfl, rfl, rfl, rfl, rfl⟩, rfl, ⟨rfl, rfl, rfl, rfl, rfl⟩⟩
def unreleasedBar : State := released.setLaunch 1
  { ready.launch 1 with barriers := [{ sc := .core, unit := 0, epoch := 0, arrived := [0], releasedTo := [], places := [0], resumeAt := [] }] }
theorem wit_BarriersAndFences_held : ∃ b x, Issues (.barw ⟨none, .core⟩) none (Touch.longOf []) unreleasedBar ∧ unreleasedBar.grain.barrier = some b
    ∧ groupOf (unreleasedBar.issued (.barw ⟨none, .core⟩)) b = some x ∧ x.releasedTo.contains (unpackLoc unreleasedBar.grain.home).core = false :=
  ⟨_, _, ⟨rfl, rfl, rfl, rfl, rfl⟩, rfl, rfl, rfl⟩
def child : State := withGrain fun g => { g with spawned := true }
theorem wit_BarriersAndFences_child : Issues (.barw ⟨none, .system⟩) none (Touch.longOf []) child ∧ child.grain.spawned = true
    ∧ child.grain.loadsPending = false ∧ child.grain.addsPending = false ∧ child.storesPending child.cur = false :=
  ⟨⟨rfl, rfl, rfl, rfl, rfl⟩, rfl, rfl, rfl, rfl⟩

/-- A core that has a flit of context 0 in channel 7. -/
def flitted : State := withCore fun c => { c with chans := c.chans.set 7 ⟨[⟨5#64, 0#12, 1, 0, 0, false, 0, Grain.blank.key⟩], [], [], []⟩ }
theorem wit_Channels : ∃ s0, s0 = ready.issued (.send ⟨none, 1, 0, 0, 7⟩) ∧ Issues (.send ⟨none, 1, 0, 0, 7⟩) none (Touch.longOf (regRes 1 ++ regRes 0)) ready
    ∧ ready.grain.spawned = false ∧ replicaMap (ready.launch 1) 0 (coreCluster 0) * 32 + coreIndex 0 = 0 ∧ ready.alive 0 = true
    ∧ holdsLaunch s0 0 1 = true ∧ Released s0 .system ∧ Alone s0 :=
  ⟨_, rfl, ⟨rfl, rfl, rfl, rfl, rfl⟩, rfl, rfl, rfl, rfl, ⟨rfl, rfl, rfl, Or.inr rfl, rfl⟩, by unfold Alone; decide⟩
theorem wit_Channels_recvn : ∃ f, Issues (.recvn ⟨none, 1, 0, 7⟩) none (Touch.longOf (regRes 1 ++ [.p0])) flitted ∧ ¬OrderBound flitted
    ∧ oldestFlit (flitted.issued (.recvn ⟨none, 1, 0, 7⟩)) 0 7 (flitted.issued (.recvn ⟨none, 1, 0, 7⟩)).grain = some f
    ∧ oldestFlit (ready.issued (.recvn ⟨none, 1, 0, 7⟩)) 0 7 (ready.issued (.recvn ⟨none, 1, 0, 7⟩)).grain = none :=
  ⟨_, ⟨rfl, rfl, rfl, rfl, rfl⟩, by unfold OrderBound; decide, rfl, rfl⟩
/-- A SEND that waits, one to a core that is none, one to a core that runs no grain of the launch, and one of a spawned grain of a
deterministic launch. -/
theorem wit_Channels_stops : Unreleased ((loading sramAcc).issued (.send ⟨none, 1, 0, 0, 7⟩)) .system
    ∧ Issues (.send ⟨none, 1, 0, 0, 7⟩) none (Touch.longOf (regRes 1 ++ regRes 0)) (loading sramAcc)
    ∧ replicaMap ((withRegs [0x110#64]).launch 1) 0 (coreCluster 17) * 32 + coreIndex 17 = 17 ∧ (unpackLoc (0x110#64 : Word).toNat).core = 17
    ∧ ready.alive (coreCluster 1) = true ∧ holdsLaunch (ready.issued (.send ⟨none, 1, 0, 0, 7⟩)) 1 1 = false :=
  ⟨Or.inl rfl, ⟨rfl, rfl, rfl, rfl, rfl⟩, rfl, rfl, rfl, rfl⟩
def ordered : State := (child.setLaunch 1 { ready.launch 1 with detMode := true })
theorem wit_Channels_order : OrderBound ordered ∧ ordered.grain.spawned = true
    ∧ Issues (.send ⟨none, 1, 0, 0, 7⟩) none (Touch.longOf (regRes 1 ++ regRes 0)) ordered
    ∧ Issues (.recv ⟨none, 1, 0, 7⟩) none (Touch.longOf (regRes 1)) ordered
    ∧ Issues (.recvs ⟨none, 1, 0, 0, 7⟩) none (Touch.longOf (regRes 1 ++ regRes 0)) ordered
    ∧ Issues (.chstat ⟨none, 1, 0, 7⟩) none (Touch.longOf (regRes 1)) ordered :=
  ⟨Or.inr rfl, rfl, ⟨rfl, rfl, rfl, rfl, rfl⟩, ⟨rfl, rfl, rfl, rfl, rfl⟩, ⟨rfl, rfl, rfl, rfl, rfl⟩, ⟨rfl, rfl, rfl, rfl, rfl⟩⟩
/-- A receive of any sender and one of sender 0 wait on channel 7, with the flit there and without it. -/
def receiving (sender : Option Nat) (fs : List Flit) : State :=
  let s := withGrain fun g => { g with nextOp := 1, pend := [⟨1, 0#64, .recv 1 7 sender⟩] }
  s.setCurCore { s.curCore with chans := s.curCore.chans.set 7 ⟨fs, [], [], [(s.grain.key, 1)]⟩ }
def chanFlit : Flit := ⟨5#64, 0#12, 1, 0, 0, false, 0, Grain.blank.key⟩
theorem wit_Channels_result : ∀ sender ∈ [none, some 0], ∃ p, pendAt (receiving sender [chanFlit]) ⟨0, 0⟩ 1 = some p ∧ p.kind = .recv 1 7 sender
    ∧ ((((receiving sender [chanFlit]).core 0).chans[(7#3).toFin]).receivers).head? = some (((receiving sender [chanFlit]).grainAt ⟨0, 0⟩).key, 1)
    ∧ ((((receiving sender [chanFlit]).core 0).chans[(7#3).toFin]).flits).find? (takesFlit ((receiving sender [chanFlit]).grainAt ⟨0, 0⟩) 0 7 sender) = some chanFlit
    ∧ ((((receiving sender []).core 0).chans[(7#3).toFin]).flits).find? (takesFlit ((receiving sender []).grainAt ⟨0, 0⟩) 0 7 sender) = none := by
  intro sender h
  simp only [List.mem_cons, List.not_mem_nil, or_false] at h
  rcases h with rfl | rfl <;> exact ⟨_, rfl, rfl, rfl, rfl, rfl⟩
/-- A grain with nothing outstanding, a launch-time one at a released barrier, and a spawned one. -/
theorem allDone_of (s : State) (h : s.grain.pend = [] ∧ s.grain.appendedPending = false ∧ s.storesPending s.cur = false ∧ s.clusters = []
    ∧ (s.launch s.grain.launch).reps.live.length ≤ 1 ∧ (s.launch s.grain.launch).reps.count < 2 ∧ (s.launch s.grain.launch).detMode = false) :
    AllDone s := by
  obtain ⟨h1, h2, h3, h4, h5, h6, h7⟩ := h
  refine ⟨h1, h2, h3, fun sc => ?_, h5, ?_⟩
  · simp [State.doorsPending, h4]
  · rintro (h | h)
    · omega
    · simp [h7] at h
theorem wit_WaitsComplete : AllDone ready ∧ AllDone released ∧ AllDone child ∧ Issues (.barw ⟨none, .core⟩) none (Touch.longOf []) released
    ∧ Issues (.fence ⟨none, .all, .system⟩) none (Touch.longOf []) ready ∧ Issues (.shfence ⟨none⟩) none (Touch.longOf []) ready
    ∧ Issues (.recv ⟨none, 1, 0, 7⟩) none (Touch.longOf (regRes 1)) ready ∧ Issues (.recvs ⟨none, 1, 0, 0, 7⟩) none (Touch.longOf (regRes 1 ++ regRes 0)) ready
    ∧ Issues (.recvn ⟨none, 1, 0, 7⟩) none (Touch.longOf (regRes 1 ++ [.p0])) ready ∧ Issues (.chstat ⟨none, 1, 0, 7⟩) none (Touch.longOf (regRes 1)) ready :=
  ⟨allDone_of _ (by decide), allDone_of _ (by decide), allDone_of _ (by decide), ⟨rfl, rfl, rfl, rfl, rfl⟩, ⟨rfl, rfl, rfl, rfl, rfl⟩,
    ⟨rfl, rfl, rfl, rfl, rfl⟩, ⟨rfl, rfl, rfl, rfl, rfl⟩, ⟨rfl, rfl, rfl, rfl, rfl⟩, ⟨rfl, rfl, rfl, rfl, rfl⟩, ⟨rfl, rfl, rfl, rfl, rfl⟩⟩

/-- The pull of the worked example of R171: its block in memory, with the segments that it names. -/
def pulling : State :=
  let g := (ready.grain.setReg 7 0x400F00#64)
  let s := ready.setGrain { g with sg := (g.sg.set 0 ⟨0#64, 0x840000#64, 3#64⟩).set 4 ⟨0x1000000000#64, 0x10000#64, 1#64⟩ }
  { s with mem := s.mem.writeBytes 0x400F00 ((leBytes 8 0x401000) ++ (leBytes 8 0x0040000000002000) ++ (leBytes 8 0x0004000100000064)
      ++ (leBytes 8 0xC000000000800100)) }
def pullBlock : BlockArgs := ⟨none, 7, 0, []⟩
def pulled : State := writeBack (pulling.issued (.xpull pullBlock)) pulling.here
/-- The same after the release of the pull, its running signature 0. -/
def pulledOk (s : State) : State := s.setGrain { s.grain with sig := 0#64 }
theorem wit_CopyCommands : ∃ bacc bs s1 b dacc sacc qacc, Issues (.xpull pullBlock) none (Touch.longOf (regRes 7)) pulling
    ∧ Points 7 [] plainFmts pulled 0x400F00#64 1
    ∧ checkAcc pulled 0x400F00#64 blockSpec = .ok bacc ∧ Released (pulling.issued (.xpull pullBlock)) .system
    ∧ (readM bacc false).run pulled = .ok (bs, s1) ∧ Alone s1 ∧ b = blockOf bs ∧ b.len = 100 ∧ b.rows = 2 ∧ b.stride = 4
    ∧ checkAcc (pulledOk s1) b.dst (extentSpec (1 * 128 + 100) true) = .ok dacc ∧ checkAcc (pulledOk s1) b.src (extentSpec (1 * 32 * 4 + 100) false) = .ok sacc
    ∧ checkAcc (pulledOk s1) b.seq seqWrite = .ok qacc ∧ translated qacc.addr = false ∧ b.flags = 0
    ∧ (pulledOk s1).storesPending pulling.cur = false ∧ Clear (pulledOk s1).grain { dacc with size := 2 * 128 } :=
  ⟨_, _, _, _, _, _, _, ⟨rfl, rfl, rfl, rfl, rfl⟩, ⟨rfl, rfl, rfl⟩, rfl, ⟨rfl, rfl, rfl, Or.inr rfl, rfl⟩, rfl, by unfold Alone; decide, rfl,
    rfl, rfl, rfl, rfl, rfl, rfl, rfl, rfl, rfl, fun _ h => absurd h List.not_mem_nil⟩
/-- A queued command of the cluster, issued at cycle 0, and the same at cycle `n`. -/
def cmd0 : Cmd :=
  { id := 1, pull := true, block := 0x400F00, dst := 0x401000, src := 0x402000, far := false, replica := 0, value := 0#64, len := 32, rows := 1,
    stride := 1, seq := 0x800100, launch := 1, ctx := 0#12, issuer := ⟨0, 0⟩, rank := 0#64, issuedAt := 0, st := .queued, failed := false, poisoned := false,
    left := 1, merged := none, buf := [] }
def engine (n : Nat) (x : Cmd) : State := (withCore fun c => { c with cycle := n }).setCluster 0 { ready.cluster 0 with cmds := [x] }
theorem wit_CopyCommands_start : ∃ x y, ((admitCmds (engine 0 cmd0) 0 64).cluster 0).nextStart = some x ∧ x.merged = none
    ∧ combining (admitCmds (engine 0 cmd0) 0 64) x = true ∧ ((admitCmds (engine 64 cmd0) 0 64).cluster 0).nextStart = some y ∧ y.merged = none
    ∧ combining (admitCmds (engine 64 cmd0) 0 64) y = false ∧ ((admitCmds (engine 64 cmd0) 0 64).cluster 0).runningCmds < 4 ∧ y.granules ≠ 0 :=
  ⟨_, _, rfl, rfl, rfl, rfl, rfl, rfl, by decide, by decide⟩
/-- The command runs, its one granule read or not. -/
def cmdRun (buf : List (Option (List Byte))) : Cmd := { cmd0 with st := .running, buf }
theorem wit_CopyCommands_granule : ∃ bs s1 s2 s3, ((engine 64 (cmdRun [])).cluster 0).cmds.find? (fun y => y.id == 1) = some (cmdRun [])
    ∧ ((engine 64 (cmdRun [])).cluster 0).groupCmds (cmdRun []).group = [cmdRun []] ∧ (cmdRun []).left ≠ 0 ∧ (cmdRun []).left ≤ (cmdRun []).granules
    ∧ granuleBytes (engine 64 (cmdRun [])) (cmdRun []) 0 = .value bs s1
    ∧ s2 = (onCmd s1 0 1 fun z => { z with buf := z.buf ++ [some bs] }).dueOnce (.copyCommandComplete 0 1)
    ∧ ownedEarlier s2 (cmdRun [some bs]) 0 ((cmdRun []).dstOf 0 / 32) = false
    ∧ writeGranule s2 0 (cmdRun [some bs]) 0 (some bs) = .ok s3 :=
  ⟨_, _, _, _, rfl, rfl, by decide, by decide, rfl, rfl, rfl, rfl⟩
theorem wit_CopyCommands_write : ∃ s1, ((engine 64 (cmdRun [none])).cluster 0).groupCmds (cmdRun [none]).group = [cmdRun [none]]
    ∧ (cmdRun [none]).granules ≤ (cmdRun [none]).readTo ∧ ownedEarlier (engine 64 (cmdRun [none])) (cmdRun [none]) 0 ((cmdRun [none]).dstOf 0 / 32) = false
    ∧ writeGranule (engine 64 (cmdRun [none])) 0 (cmdRun [none]) 0 none = .ok s1 := ⟨_, rfl, by decide, rfl, rfl⟩
theorem wit_CopyCommands_burst : ∃ b, ((ready.setCluster 0 { ready.cluster 0 with bursts := [{ region := 5, lines := [2], writes := [] }] }).cluster 0).bursts.find?
    (fun b => b.region == 5) = some b ∧ b.lines = [2] := ⟨_, rfl, rfl⟩

/-- Vector operands: f32 lanes. -/
theorem wit_VectorArithmetic : ∃ v, Issues (.vadd ⟨none, none, some .f32, 1, 2, some 3, false⟩) none (Touch.of (vopRegs none (some 2) (some 3))) ready
    ∧ typeOf ready.grain (some .f32) = .f32 ∧ VReads 0#64 0#3 2 (ready.issued (.vadd ⟨none, none, some .f32, 1, 2, some 3, false⟩)) v
        (ready.issued (.vadd ⟨none, none, some .f32, 1, 2, some 3, false⟩))
    ∧ Room (ready.issued (.vadd ⟨none, none, some .f32, 1, 2, some 3, false⟩))
    ∧ Issues (.vcmp ⟨none, none, .i32, .lt, 4, 5, true⟩) none (Touch.of (vopRegs none (some 4) (some 5) ++ [])) ready
    ∧ ready.grain.lanes .i32 ≤ 16 ∧ EType.isFloat .i8 = false ∧ (255 : Nat) < 2 ^ etBits .i8 :=
  ⟨.reg 2, ⟨rfl, rfl, rfl, rfl, rfl⟩, rfl, Or.inr ⟨by decide, rfl, rfl⟩, by unfold Room; decide, ⟨rfl, rfl, rfl, rfl, rfl⟩, by decide, rfl, by decide⟩
theorem wit_VectorArithmetic_reserved : Issues (.vshl ⟨none, none, some .f32, 1, 2, none, false⟩) none (Touch.of (vopRegs none (some 2) none)) ready
    ∧ (typeOf ready.grain (some .f32)).isFloat = true := ⟨⟨rfl, rfl, rfl, rfl, rfl⟩, rfl⟩

/-- The sequencer with one VADD of n8 lanes, started or not. -/
def addEntry (g : Grain) : SeqEntry := entryOf g 0#64 (.fn (.bin .add false)) .n8 1#4 (.reg 2) (.reg 3)
def sequencing (e : SeqEntry) : State := withGrain fun g => { g with seq := [e] }
/-- A replay of a VLOOP that is to move elements of stream 1. -/
def replayEntry : SeqEntry := { addEntry ready.grain with op := .vld 1#2 }
theorem wit_RegisterFields_replay : ∃ e ∈ (sequencing replayEntry).grain.seq, e.stream.any (fun k => k.toNat == 1) = true
    ∧ (sequencing replayEntry).grain.ownReplay e = false := ⟨_, List.mem_cons_self, rfl, rfl⟩
/-- The entry comes behind one that has started and that it does not read. -/
theorem wit_SequencerEntries_order : canStart (withGrain fun g => { g with seq := [{ addEntry g with started := true, out := .v 5, d := 4 }, addEntry g] }) ⟨0, 0⟩ = true
    ∧ canStart (withGrain fun g => { g with seq := [{ addEntry g with started := true, out := .v 5, d := 2 }, addEntry g] }) ⟨0, 0⟩ = false := ⟨rfl, rfl⟩
theorem wit_SequencerEntries : ∃ i rest before e, (vecRotation ((sequencing (addEntry ready.grain)).core 0)).filter
      (fun i => canStart (sequencing (addEntry ready.grain)) ⟨0, i⟩) = i :: rest
    ∧ ((sequencing (addEntry ready.grain)).grainAt ⟨0, i⟩).nextEntry = some (before, e) ∧ e.op = .fn (.bin .add false) ∧ e.again = 0 :=
  ⟨_, _, _, _, rfl, rfl, rfl, rfl⟩
theorem wit_SequencerEntries_done : ∃ e, ((sequencing { addEntry ready.grain with started := true, out := .v 5 }).grainAt ⟨0, 0⟩).seq.filter (·.started) = [e]
    ∧ [e][Config.choice 0 0 % [e].length]? = some e ∧ ((sequencing { addEntry ready.grain with started := true, out := .v 5 }).slotAt ⟨0, 0⟩).occupied = true
    ∧ e.out = .v 5 ∧ writesV e.op = true := ⟨_, rfl, by simp [Nat.mod_one], rfl, rfl, rfl⟩

theorem wit_VectorMoves : ∃ s0, s0 = ready.issued (.vextr ⟨none, some .n8, 1, 2, 15⟩) ∧ typeOf ready.grain (some .n8) = .n8
    ∧ Issues (.vextr ⟨none, some .n8, 1, 2, 15⟩) none (Touch.of []) ready ∧ (15#5).toNat < ready.grain.lanes .n8
    ∧ s0.grain.extrPending (regRes 1) = false ∧ Room s0 ∧ ready.grain.lanes .n8 ≤ (16#5).toNat :=
  ⟨_, rfl, rfl, ⟨rfl, rfl, rfl, rfl, rfl⟩, by decide, rfl, by unfold Room; decide, by decide⟩
theorem wit_VectorMoves_vqnt : ∃ s0 h, s0 = ready.issued (.vqnt ⟨none, some .f32, 1, 2, 3, true⟩) ∧ h = (ready.grain.reg 3).toNat % 2 ^ 32
    ∧ Issues (.vqnt ⟨none, some .f32, 1, 2, 3, true⟩) none (Touch.of (regRes 3)) ready ∧ typeOf ready.grain (some .f32) = .f32
    ∧ h / 2 ^ 24 = 0 ∧ h / 2 ^ 20 % 16 = 0 ∧ Room s0 ∧ (0x100000 : Nat) / 2 ^ 20 % 16 ≠ 0 :=
  ⟨_, _, rfl, rfl, ⟨rfl, rfl, rfl, rfl, rfl⟩, rfl, by decide, by decide, by unfold Room; decide, by decide⟩
/-- A grain that owns tile 3. -/
def owner : State := withCore fun c => { c with tiles := c.tiles.set 3 ⟨some 0, [5#32], []⟩ }
theorem wit_VectorMoves_rows : ∃ s0, s0 = owner.issued (.vaccr ⟨none, none, 1, 15, 3, 3⟩) ∧ Issues (.vaccr ⟨none, none, 1, 15, 3, 3⟩) none
      (Touch.of [.tile 3]) owner ∧ gangedOf owner.grain.pw = false ∧ ownsTile owner 3 = true ∧ Room s0 :=
  ⟨_, rfl, ⟨rfl, rfl, rfl, rfl, rfl⟩, rfl, rfl, by unfold Room; decide⟩

theorem wit_VectorMemory : ∃ s0 acc bs s1, s0 = ready.issued (.vld ⟨none, some .n8, 1, 0, []⟩) ∧ Issues (.vld ⟨none, some .n8, 1, 0, []⟩) none
      (Touch.of (regRes 0)) ready ∧ streamOf 0 = none ∧ VectorIdle s0.grain ∧ Points 0 [] plainFmts s0 0#64 1
    ∧ checkAcc s0 0#64 (readSpec plainFmts 16 1) = .ok acc ∧ (readM acc true).run s0 = .ok (bs, s1) :=
  ⟨_, _, _, _, rfl, ⟨rfl, rfl, rfl, rfl, rfl⟩, rfl, ⟨rfl, rfl⟩, ⟨rfl, rfl, rfl⟩, rfl, rfl⟩
/-- Stream 1 of n64 elements in the SRAM. -/
def inStream64 : Stream :=
  { Stream.unbound with bound := true, fmt := .n64, ptr := ptr64, base := 0x400000, c0 := 4, c1 := 1, c2 := 1, s0 := 1 }
/-- Stream 1 of n64 elements, bound for input with two fetched, and bound for output. -/
def in64 : Stream := { inStream64 with fetched := [.value 9#64, .value 8#64] }
theorem wit_VectorMemory_stream : ∃ s0 bs s1, s0 = (withStream in64).issued (.vld ⟨none, some .n64, 1, 11, []⟩)
    ∧ Issues (.vld ⟨none, some .n64, 1, 11, []⟩) none (Touch.of (regRes 11)) (withStream in64) ∧ streamOf 11 = some 1 ∧ VectorIdle s0.grain
    ∧ (s0.grain.streams[(1 : Fin 4)]).bound = true ∧ (s0.grain.streams[(1 : Fin 4)]).output = false
    ∧ (streamBytes 0#64 1 8 (streamCount s0.grain 1)).run s0 = .ok (bs, s1) := ⟨_, _, _, rfl, ⟨rfl, rfl, rfl, rfl, rfl⟩, rfl, ⟨rfl, rfl⟩, rfl, rfl, rfl⟩
theorem wit_VectorMemory_append : ∃ s0 s1, s0 = (withStream { inStream64 with output := true }).issued (.vst ⟨none, some .n64, 1, 11, []⟩)
    ∧ VectorIdle s0.grain ∧ (s0.grain.streams[(1 : Fin 4)]).bound = true ∧ (s0.grain.streams[(1 : Fin 4)]).output = true
    ∧ (appendBytes 0#64 1 8 (leBytes 16 0) (streamCount s0.grain 1)).run s0 = .ok ((), s1) :=
  ⟨_, _, rfl, ⟨rfl, rfl⟩, rfl, rfl, rfl⟩
/-- The lanes of a gather through an n64 pointer, both index 0. -/
theorem wit_VectorMemory_lanes : ∃ acc b1 b2 s2, Issues (.vgath ⟨none, some .n64, 1, 0, 2, []⟩) none (Touch.of (regRes 0)) (withRegs [ptr64])
    ∧ Points 0 [] plainFmts (withRegs [ptr64]) ptr64 8
    ∧ LaneAccs (withRegs [ptr64]) .n64 ptr64 8 ((withRegs [ptr64]).grain.vval 2) (readSpec plainFmts 8 8) [acc, acc]
    ∧ ReadsAll 0#64 [acc, acc] (withRegs [ptr64]) [b1, b2] s2 :=
  ⟨_, _, _, _, ⟨rfl, rfl, rfl, rfl, rfl⟩, ⟨rfl, rfl, rfl⟩, .cons rfl (.cons rfl .nil), _, _, _, rfl, rfl, _, _, _, rfl, rfl, rfl, rfl⟩
set_option maxRecDepth 100000 in
/-- A q8 block of 256 elements with headers of scale 1 and zero point 0, at the start of the SRAM. -/
theorem wit_VectorMemory_block : ∃ q acc bs s1 gs s0, s0 = (withRegs [0x4180000000000000#64]).issued (.vdqnt ⟨none, some .f32, 1, 0, []⟩)
    ∧ Issues (.vdqnt ⟨none, some .f32, 1, 0, []⟩) none (Touch.of (regRes 0)) (withRegs [0x4180000000000000#64]) ∧ VectorIdle s0.grain
    ∧ qfmtOf (ptrFmt 0x4180000000000000#64) = some q
    ∧ ptrStep 0x4180000000000000#64 = some 288 ∧ offsetVal [] % (4 : Int) = 0
    ∧ checkAcc s0 (stepPtr 0x4180000000000000#64 0 288) { readSpec [16] 288 32 with seqRule := true } = .ok acc
    ∧ (readSettledM acc).run s0 = .ok (bs, s1) ∧ decodeBlock q 3 bs = some gs := ⟨_, _, _, _, _, _, rfl, ⟨rfl, rfl, rfl, rfl, rfl⟩, ⟨rfl, rfl⟩, rfl, rfl, by decide, rfl, rfl, rfl⟩

theorem wit_VectorControl : Issues (.vloop ⟨none, .n8, 0, 15⟩) none (Touch.of (regRes 0)) (withRegs [4095#64])
    ∧ ((withRegs [4095#64]).grain.reg 0).toNat ≤ 4095 ∧ (withRegs [4095#64]).grain.seqHeld + (15#4).toNat + 1 ≤ 16
    ∧ 4095 < ((withRegs [4096#64]).grain.reg 0).toNat :=
  ⟨⟨rfl, rfl, rfl, rfl, rfl⟩, by decide, by decide, by decide⟩
/-- A ganged grain with its odd half in slot 1. -/
def ganged : State := (withGrain fun g => { g with pw := setBit g.pw 46 true }).setSlot ⟨0, 1⟩ { Slot.blank with st := .oddHalf }
theorem wit_VectorControl_gang : Issues (.vgang ⟨none, .n8⟩) none (Touch.of [.p0]) ready ∧ Quiet (ready.issued (.vgang ⟨none, .n8⟩))
    ∧ (ready.slotAt ⟨0, 0 + 1⟩).st = .empty ∧ bestEntry (ready.issued (.vgang ⟨none, .n8⟩)) 0 = none ∧ gangedOf ready.grain.pw = false ∧ Issues (.vsplit ⟨none, .n8⟩) none (Touch.of []) ganged
    ∧ gangedOf ganged.grain.pw = true ∧ Quiet (ganged.issued (.vsplit ⟨none, .n8⟩)) :=
  ⟨⟨rfl, rfl, rfl, rfl, rfl⟩, ⟨rfl, rfl⟩, rfl, rfl, rfl, ⟨rfl, rfl, rfl, rfl, rfl⟩, rfl, ⟨rfl, rfl⟩⟩

/-- A weight image of one f16 row of zeros. -/
def image16 : List Byte := leBytes 2 8 ++ leBytes 2 1 ++ leBytes 2 64 ++ List.replicate 58 0
/-- A weight image of eight q4 rows (format 16): its header's length is 32 + 16 times a block. -/
def slot16 : WSlot := { WSlot.empty with st := .valid, image := image16, source := 0x400000, length := 64 }
/-- A grain that owns tile 0, with sg2 over its core's scratchpad, a valid image in weight slot 0, and general registers set. -/
def tiled (xs : List Word) : State :=
  let s := (withRegs xs).setGrain { (withRegs xs).grain with sg := (withRegs xs).grain.sg.set 2 ⟨0#64, 0x20000#64, 3#64⟩ }
  s.setCurCore { s.curCore with tiles := s.curCore.tiles.set 0 ⟨some 0, [7#32], []⟩, wslots := s.curCore.wslots.set 0 slot16 }
/-- Pointers to 1,024 bytes of f32 in the SRAM, and to f16 in the scratchpad. -/
def ptr32 : Word := 0x2800000000000000#64
def ptr16 : Word := 0x2020000000000000#64

theorem wit_Tiles : Issues (.macq ⟨none, 0⟩) none (Touch.longOf []) ready ∧ (∀ k : Fin 4, (ready.curCore.tiles[k]).owner ≠ some ready.cur.slot)
    ∧ (ready.curCore.tiles[(0 : Fin 4)]).owner = none ∧ Issues (.macq ⟨none, 1⟩) none (Touch.longOf []) (tiled [])
    ∧ ((tiled []).curCore.tiles[(0 : Fin 4)]).owner = some (tiled []).cur.slot :=
  ⟨⟨rfl, rfl, rfl, rfl, rfl⟩, by decide, rfl, ⟨rfl, rfl, rfl, rfl, rfl⟩, rfl⟩
theorem wit_Tiles_owned : ∃ acc acc2, (Issues (.mzero ⟨none, 0⟩) none (Touch.longOf [.tile 0]) (tiled []) ∧ ownsTile (tiled []) 0 = true ∧ TileIdle (tiled []).grain 0)
    ∧ Issues (.mrel ⟨none, 0⟩) none (Touch.longOf [.tile 0]) (tiled [])
    ∧ (Issues (.mldc ⟨none, 0, 0, 1, []⟩) none (Touch.longOf (.tile 0 :: regRes 0)) (tiled [ptr32])
      ∧ Points 0 [] [10] ((tiled [ptr32]).issued (.mldc ⟨none, 0, 0, 1, []⟩)) ptr32 4
      ∧ checkAcc ((tiled [ptr32]).issued (.mldc ⟨none, 0, 0, 1, []⟩)) ptr32 (readSpec [10] 1024 32) = .ok acc)
    ∧ Issues (.mstc ⟨none, 0, 0, 1, []⟩) none (Touch.longOf (.tile 0 :: regRes 0)) (tiled [ptr32])
    ∧ checkAcc ((tiled [ptr32]).issued (.mstc ⟨none, 0, 0, 1, []⟩)) ptr32 (writeSpec [10] 1024 32) = .ok acc2 :=
  ⟨_, _, ⟨⟨rfl, rfl, rfl, rfl, rfl⟩, rfl, fun _ h => absurd h List.not_mem_nil⟩, ⟨rfl, rfl, rfl, rfl, rfl⟩,
    ⟨⟨rfl, rfl, rfl, rfl, rfl⟩, ⟨rfl, rfl, rfl⟩, rfl⟩, ⟨rfl, rfl, rfl, rfl, rfl⟩, rfl⟩
theorem wit_Tiles_unowned : Issues (.mma ⟨none, true, 0, 0, 0, [1]⟩) none (Touch.longOf (.tile 0 :: regRes 0)) ready ∧ ownsTile ready 0 = false :=
  ⟨⟨rfl, rfl, rfl, rfl, rfl⟩, rfl⟩

/-- The SRAM holds the image; a load of it is outstanding. -/
def imaged : State := { (tiled [ptr64]) with mem := (tiled [ptr64]).mem.writeBytes 0x400000 image16 }
def wacc : Acc := { ptr := ptr64, addr := 0x400000, named := 0, size := 64, ctx := 0#12 }
def wloading : State :=
  let s := imaged.setGrain { imaged.grain with nextOp := 1, pend := [⟨1, 0#64, .wbld wacc 2⟩] }
  s.setCurCore { s.curCore with wslots := s.curCore.wslots.set 2 { WSlot.empty with st := .loading, loads := [(0, 1)] } }
theorem wit_WeightSlots : ∃ s0 head bs s1 acc, s0 = imaged.issued (.wbld ⟨none, 1, 0, 2, []⟩) ∧ Issues (.wbld ⟨none, 1, 0, 2, []⟩) none (Touch.longOf (regRes 0)) imaged
    ∧ Holds imaged ∧ Points 0 [] plainFmts s0 ptr64 8 ∧ checkAcc s0 ptr64 (readSpec plainFmts 32 32) = .ok head ∧ Settled imaged head
    ∧ serveLoad s0 imaged.cur.core head.ctx head.named head.addr head.size false false = .value bs s1 ∧ fieldOf bs 4 2 = 64
    ∧ checkAcc s1 ptr64 (readSpec plainFmts 64 32) = .ok acc := ⟨_, _, _, _, _, rfl, ⟨rfl, rfl, rfl, rfl, rfl⟩, rfl, ⟨rfl, rfl, rfl⟩, rfl, rfl, rfl, rfl, rfl⟩
/-- A header whose length is none. -/
theorem wit_WeightSlots_length : ∃ bs s1, serveLoad ((tiled [ptr64]).issued (.wbld ⟨none, 1, 0, 2, []⟩)) 0 0#12 0 0x400000 32 false false = .value bs s1
    ∧ fieldOf bs 4 2 < 32 := ⟨_, _, rfl, by decide⟩
theorem wit_WeightSlots_result : ∃ p bs s1, pendAt wloading ⟨0, 0⟩ 1 = some p ∧ p.kind = .wbld wacc 2
    ∧ ((wloading.core 0).wslot 2).loads.head? = some (0, 1) ∧ (wloading.core 0).queuedOn 2 = false ∧ ((wloading.core 0).wslot 2).reload = []
    ∧ (wloading.grainAt ⟨0, 0⟩).earlierFirst 1 wacc.addr wacc.size = false
    ∧ serveLoad wloading 0 wacc.ctx wacc.named wacc.addr wacc.size false false = .value bs s1 := ⟨_, _, _, rfl, rfl, rfl, rfl, rfl, rfl, rfl⟩
theorem wit_WeightSlots_wbinv : Issues (.wbinv ⟨none, none⟩) none (Touch.longOf []) imaged
    ∧ Holds imaged ∧ ∀ w ∈ wbinvSlots none, imaged.curCore.queuedOn w = false ∧ (imaged.curCore.wslot w).taken = false :=
  ⟨⟨rfl, rfl, rfl, rfl, rfl⟩, rfl, by decide⟩

/-- The array's operation of one row, started. -/
def arrayOp : ArrayOp :=
  { slot := 0, pc := 0#64, tile := 0, a := .memory { ptr := ptr16, addr := 0, named := 0, size := 32, ctx := 0#12 }, fmt := 8, log := 0, w := 0,
    k := 1, integer := false, ctx := 0#12, launch := 1, elems := [], started := true }
def arrayed : State := (tiled []).setCurCore { (tiled []).curCore with arrayQ := [arrayOp] }
theorem wit_ArrayOperations : ∃ s0 acc w, s0 = (tiled [ptr16]).issued (.mma ⟨none, true, 0, 0, 0, [1]⟩)
    ∧ Issues (.mma ⟨none, true, 0, 0, 0, [1]⟩) none (Touch.longOf (.tile 0 :: regRes 0)) (tiled [ptr16]) ∧ ((tiled [ptr16]).slotAt (tiled [ptr16]).cur).st = .ready
    ∧ ownsTile (tiled [ptr16]) 0 = true ∧ Holds (tiled [ptr16]) ∧ streamOf 0 = none ∧ Points 0 [] [8, 9, 10] s0 ptr16 2 ∧ OwnScratch s0 ptr16
    ∧ kCount ⟨none, true, 0, 0, 0, [1]⟩ = 1 ∧ checkAcc s0 ptr16 (readSpec [8, 9, 10] (16 * 1 * 2) 32) = .ok acc ∧ ImageReady (tiled [ptr16]) 0
    ∧ weightImage ((tiled [ptr16]).curCore.wslot 0).image = .ok w ∧ 1 ≤ w.krows ∧ StoresDone (tiled [ptr16]) acc
    ∧ Settled (tiled [ptr16]) acc ∧ TileIdle (tiled [ptr16]).grain 0 :=
  ⟨_, _, _, rfl, ⟨rfl, rfl, rfl, rfl, rfl⟩, rfl, rfl, rfl, rfl, ⟨rfl, rfl, rfl⟩, ⟨rfl, rfl⟩, rfl, rfl, ⟨rfl, rfl, rfl, rfl⟩, rfl, by decide,
    fun _ h => absurd h List.not_mem_nil, rfl, fun _ h => absurd h List.not_mem_nil⟩
/-- Sixteen elements of a bound input stream of f16. -/
def streamed : State :=
  (tiled []).setGrain { (tiled []).grain with streams := (tiled []).grain.streams.set 1 { Stream.unbound with bound := true, fmt := .f16, c0 := 16, c1 := 1, c2 := 1 } }
theorem wit_ArrayOperations_stream : ∃ s0 w st, s0 = streamed.issued (.mma ⟨none, true, 0, 11, 0, [1]⟩)
    ∧ Issues (.mma ⟨none, true, 0, 11, 0, [1]⟩) none (Touch.longOf (.tile 0 :: regRes 11)) streamed ∧ streamOf 11 = some 1
    ∧ st = streamed.grain.streams[(1 : Fin 4)] ∧ st.bound = true ∧ st.output = false ∧ st.fmt = .f16 ∧ st.pos + 16 * 1 ≤ st.total
    ∧ ImageReady streamed 0 ∧ weightImage (streamed.curCore.wslot 0).image = .ok w ∧ 1 ≤ w.krows ∧ StreamFree streamed.grain 1 :=
  ⟨_, _, _, rfl, ⟨rfl, rfl, rfl, rfl, rfl⟩, rfl, rfl, rfl, rfl, rfl, by decide, ⟨rfl, rfl, rfl, rfl⟩, rfl, by decide, fun _ h => absurd h List.not_mem_nil⟩
/-- A weight image of 32 q4 rows in groups of 32, every scale and code 0, in weight slot 1; and a pointer to such an operand in the scratchpad. -/
def image4 : List Byte := leBytes 1 17 ++ leBytes 1 3 ++ leBytes 2 32 ++ leBytes 2 2592 ++ List.replicate 2586 0
def ptr4 : Word := 0x45A0000000000000#64
def tiled4 : State := (tiled [ptr4]).setCurCore { (tiled [ptr4]).curCore with
  wslots := (tiled [ptr4]).curCore.wslots.set 1 { slot16 with image := image4, length := 2592 } }
set_option maxRecDepth 100000 in
theorem wit_ArrayOperations_image4 : ∃ w, weightImage image4 = .ok w ∧ qfmtOf w.fmt = some .q4 ∧ w.log = 3 ∧ w.krows = 32 := ⟨_, rfl, rfl, rfl, rfl⟩
theorem wit_ArrayOperations_mmai : ∃ s0 acc, s0 = tiled4.issued (.mmai ⟨none, true, 0, 0, 1, [32]⟩)
    ∧ Issues (.mmai ⟨none, true, 0, 0, 1, [32]⟩) none (Touch.longOf (.tile 0 :: regRes 0)) tiled4 ∧ ownsTile tiled4 0 = true
    ∧ Points 0 [] [16, 17, 18, 19] s0 ptr4 160 ∧ OwnScratch s0 ptr4 ∧ kCount ⟨none, true, 0, 0, 1, [32]⟩ = 32 ∧ ptrLog ptr4 = 3
    ∧ 32 % groupSize 3 = 0 ∧ checkAcc s0 ptr4 (readSpec [16, 17, 18, 19] (16 * ((32 + 8 * 32 - 1) / (8 * 32)) * 160) 32) = .ok acc
    ∧ ImageReady tiled4 1 ∧ (tiled4.curCore.wslot 1).image = image4 ∧ StoresDone tiled4 acc ∧ Settled tiled4 acc :=
  ⟨_, _, rfl, ⟨rfl, rfl, rfl, rfl, rfl⟩, rfl, ⟨rfl, rfl, rfl⟩, ⟨rfl, rfl⟩, rfl, rfl, rfl, rfl, ⟨rfl, rfl, rfl, rfl⟩, rfl, fun _ h => absurd h List.not_mem_nil, rfl⟩
theorem wit_ArrayOperations_empty : ∃ acc, checkAcc ((tiled [ptr16]).issued (.mma ⟨none, true, 0, 0, 5, [1]⟩)) ptr16 (readSpec [8, 9, 10] (16 * 1 * 2) 32) = .ok acc
    ∧ ((tiled [ptr16]).curCore.wslot 5).st = .empty ∧ ((tiled [ptr16]).curCore.wslot 5).loads = [] := ⟨_, rfl, rfl, rfl⟩
theorem wit_ArrayOperations_result : ∃ o bs w data fl, (arrayed.core 0).arrayQ = [o] ∧ o.started = true ∧ o.a = .memory { ptr := ptr16, addr := 0, named := 0, size := 32, ctx := 0#12 }
    ∧ readOwner arrayed 0#12 0 32 = .value bs ∧ weightImage ((arrayed.core 0).wslot o.w).image = .ok w
    ∧ arrayResult ((arrayed.core 0).tiles[o.tile.toFin]) o w bs [] = some (data, fl) :=
  ⟨_, _, _, _, _, rfl, rfl, rfl, rfl, rfl, rfl⟩

/-- A stream record over four n64 elements of the SRAM, for input or output. -/
def recorded (dir : Nat) : State :=
  { (withRegs [ptr64]) with
    mem := (withRegs [ptr64]).mem.writeBytes 0x400000
      (leBytes 8 ptr64.toNat ++ leBytes 2 4 ++ leBytes 2 1 ++ leBytes 2 1 ++ leBytes 1 dir ++ leBytes 1 0 ++ leBytes 4 1 ++ leBytes 12 0) }
theorem wit_StreamBinding : ∃ s0 racc bs s1, s0 = (recorded 1).issued (.sbind ⟨none, 1, 0, 2, []⟩)
    ∧ Issues (.sbind ⟨none, 1, 0, 2, []⟩) none (Touch.longOf (regRes 0)) (recorded 1) ∧ Points 0 [] plainFmts s0 ptr64 8
    ∧ checkAcc s0 ptr64 (readSpec plainFmts 32 32) = .ok racc ∧ ((recorded 1).grain.streams[(1 : Fin 4)]).bound = false
    ∧ (readM racc false).run s0 = .ok (bs, s1)
    ∧ (wordOf bs 0 = ptr64 ∧ fieldOf bs 8 2 = 4 ∧ fieldOf bs 10 2 = 1 ∧ fieldOf bs 12 2 = 1 ∧ fieldOf bs 14 1 = 1 ∧ fieldOf bs 15 1 = 0
      ∧ fieldOf bs 28 4 = 0) ∧ ptrStep ptr64 = some 8 ∧ fmtEType (ptrFmt ptr64) = some .n64
    ∧ (∃ lo, checkAcc s1 ptr64 (writeSpec plainFmts 8 8) = .ok lo) ∧ ∃ hi, checkAcc s1 (stepPtr ptr64 3 8) (writeSpec plainFmts 8 8) = .ok hi :=
  ⟨_, _, _, _, rfl, ⟨rfl, rfl, rfl, rfl, rfl⟩, ⟨rfl, rfl, rfl⟩, rfl, rfl, rfl, ⟨rfl, rfl, rfl, rfl, rfl, rfl, rfl⟩, rfl, rfl, ⟨_, rfl⟩, ⟨_, rfl⟩⟩
/-- Stream 1 bound for output with one element appended. -/
def appending : State := withStream { inStream64 with output := true, appended := [5#64] }
theorem wit_StreamBinding_bound : ((withStream in64).grain.streams[(1 : Fin 4)]).bound = true
    ∧ Issues (.sbind ⟨none, 1, 0, 2, []⟩) none (Touch.longOf (regRes 0)) (withStream in64)
    ∧ Issues (.sunbind ⟨none, 1⟩) none (Touch.longOf []) (withStream in64) ∧ Issues (.sstat ⟨none, 1, 3, 2⟩) none (Touch.longOf (regRes 3)) (withStream in64)
    ∧ Issues (.sdrain ⟨none, 1⟩) none (Touch.longOf []) appending ∧ (appending.grain.streams[(1 : Fin 4)]).appended ≠ []
    ∧ (appending.slotAt appending.cur).st = .ready ∧ StreamFree (withStream in64).grain 1 ∧ StreamFree appending.grain 1 :=
  ⟨rfl, ⟨rfl, rfl, rfl, rfl, rfl⟩, ⟨rfl, rfl, rfl, rfl, rfl⟩, ⟨rfl, rfl, rfl, rfl, rfl⟩, ⟨rfl, rfl, rfl, rfl, rfl⟩, by decide, rfl, fun _ h => absurd h List.not_mem_nil, fun _ h => absurd h List.not_mem_nil⟩

/-- A net launch with an arena of 128 nodes in sg1, two nodes in core 0's ring and one pair in its bag, and registers set. -/
def netting (xs : List Word) : State :=
  let sg := (Vector.replicate 8 Seg.empty).set 0 placedSeg |>.set 1 ⟨0x410000#64, 0x1000#64, 3#64⟩ |>.set 4 ⟨0x4000410000#64, 0x1000#64, 3#64⟩
  let s := (withRegs xs).setGrain { (withRegs xs).grain with sg }
  let s := s.setLaunch 1 { s.launch 1 with net := true, segs := sg, ruleTable := 0x420000, agents := 1 }
  let s := s.onNet 0 1 fun n => { n with rings := [(0, [5, 6])], bags := [(0, [(0#64, 4#64)])] }
  { s with mem := s.mem.writeBytes 0x420000 (leBytes 4 0x80000010) }
/-- Pointers to node 0 through sg1 and through sg4. -/
def ptrNode : Word := 0x8010000000000000#64
def ptrFar : Word := 0x8040000000000000#64
theorem wit_Nodes_alloc : ∃ s0 acc i n, s0 = (netting [ptrNode]).issued (.nalloc ⟨none, 2, 0, 3⟩)
    ∧ Issues (.nalloc ⟨none, 2, 0, 3⟩) none (Touch.longOf (regRes 2 ++ regRes 0)) (netting [ptrNode]) ∧ ((netting [ptrNode]).launch (netting [ptrNode]).grain.launch).net = true
    ∧ Points 0 [] [32] s0 ptrNode 32 ∧ ptrSeg ptrNode < 4 ∧ (((netting [ptrNode]).launch 1).nodeAt (resolve s0 ptrNode)).isSome = true
    ∧ checkAcc s0 ptrNode { fmts := [32], size := 32, align := 32, r := true, w := true, x := false, store := true, seqRule := true, steer := false } = .ok acc
    ∧ ((netting [ptrNode]).netCl (netting [ptrNode]).here (netting [ptrNode]).grain.launch).alloc (netting [ptrNode]).cur.core = some (i, n)
    ∧ Clear (netting [ptrNode]).grain { acc with addr := ((netting [ptrNode]).launch 1).nodeAddr 0 i } :=
  ⟨_, _, _, _, rfl, ⟨rfl, rfl, rfl, rfl, rfl⟩, rfl, ⟨rfl, rfl, rfl⟩, by decide, rfl, rfl, rfl, fun _ h => absurd h List.not_mem_nil⟩
theorem wit_Nodes_empty : NetCl.empty.alloc 0 = none ∧ 4 ≤ ptrSeg ptrFar ∧ ((netting []).launch 1).nodeAt 0x411000 = none := ⟨rfl, by decide, by decide⟩
theorem wit_Nodes_free : ∃ s0 addr, s0 = (netting [ptrFar]).issued (.nfree ⟨none, 0, 3⟩)
    ∧ Issues (.nfree ⟨none, 0, 3⟩) none (Touch.longOf (regRes 0)) (netting [ptrFar])
    ∧ (ptrFmt ptrFar == 32 && ptrLog ptrFar == 0 && ptrOff ptrFar % 32 == 0) = true
    ∧ addr = effAddr s0 0 1 0 (resolve s0 ptrFar) false ∧ (freeRightsM ptrFar false addr).run s0 = .ok ((), s0) ∧ 4 ≤ ptrSeg ptrFar :=
  ⟨_, _, rfl, ⟨rfl, rfl, rfl, rfl, rfl⟩, rfl, rfl, rfl, by decide⟩
theorem wit_Nodes_freeNear : ∃ s0 i bs s1, s0 = (netting [ptrNode]).issued (.nfree ⟨none, 0, 3⟩) ∧ ptrSeg ptrNode < 4
    ∧ (ptrFmt ptrNode == 32 && ptrLog ptrNode == 0 && ptrOff ptrNode % 32 == 0) = true
    ∧ ((netting [ptrNode]).launch 1).nodeAt (resolve s0 ptrNode) = some i ∧ (freeRightsM ptrNode true (resolve s0 ptrNode)).run s0 = .ok ((), s0)
    ∧ ((netting [ptrNode]).netCl 0 1).retire.length < 4096
    ∧ (readM { ptr := ptrNode, addr := ((netting [ptrNode]).launch 1).nodeAddr 0 i + 8, named := 0, size := 8, ctx := 0#12 } false).run s0 = .ok (bs, s1)
    ∧ nodeFreed ((netting [ptrNode]).netCl 0 1) i (wordOf bs 0) = false ∧ nodeFreed ((netting [ptrNode]).netCl 0 1) 0 freedWord = true :=
  ⟨_, _, _, _, rfl, by decide, rfl, rfl, rfl, by decide, rfl, rfl, rfl⟩
theorem wit_Nodes_words : ∃ acc acc2, ((netting [ptrNode]).launch 1).net = true
    ∧ (Issues (.nld ⟨none, 2, 0, 3, [1]⟩) none (Touch.longOf (regRes 2 ++ regRes 0)) (netting [ptrNode])
      ∧ Points 0 [] [32] ((netting [ptrNode]).issued (.nld ⟨none, 2, 0, 3, [1]⟩)) ptrNode 32
      ∧ checkAcc ((netting [ptrNode]).issued (.nld ⟨none, 2, 0, 3, [1]⟩)) ptrNode (readSpec [32] 32 32) = .ok acc)
    ∧ Issues (.nst ⟨none, 2, 0, 3, [1]⟩) none (Touch.longOf (regRes 2 ++ regRes 0)) (netting [ptrNode])
    ∧ checkAcc ((netting [ptrNode]).issued (.nst ⟨none, 2, 0, 3, [1]⟩)) ptrNode (writeSpec [32] 32 32) = .ok acc2
    ∧ (Issues (.nref ⟨none, 2, 0, 3, [1]⟩) none (Touch.longOf (regRes 2 ++ regRes 0)) (netting [ptrNode]) ∧ ptrOff ptrNode % 32 = 0
      ∧ resolve (netting [ptrNode]) ptrNode % 2 ^ 38 = ((netting [ptrNode]).launch 1).arenaBase + 32 * 0)
    ∧ Issues (.nown ⟨none, 2, 0, 3⟩) none (Touch.longOf (regRes 2 ++ regRes 0)) (netting [ptrNode]) :=
  ⟨_, _, rfl, ⟨⟨rfl, rfl, rfl, rfl, rfl⟩, ⟨rfl, rfl, rfl⟩, rfl⟩, ⟨rfl, rfl, rfl, rfl, rfl⟩, rfl, ⟨⟨rfl, rfl, rfl, rfl, rfl⟩, rfl, rfl⟩, ⟨rfl, rfl, rfl, rfl, rfl⟩⟩
/-- Port 1 of node 0 in g0, an empty slot's value in g2. -/
theorem wit_Nodes_exchanges : Issues (.pxchg ⟨none, 2, 0, 3⟩) none (Touch.longOf (regRes 2 ++ regRes 0)) (netting [1#64, 0#64, unlinkedWord])
    ∧ portBad ((netting [1#64, 0#64, unlinkedWord]).issued (.pxchg ⟨none, 2, 0, 3⟩)) ((netting []).launch 1) 1 unlinkedWord = none
    ∧ portBad (netting []) ((netting []).launch 1) 1 freedWord = some (.netPortInvalid, 1#64)
    ∧ Released ((netting [1#64, 0#64, unlinkedWord]).issued (.pxchg ⟨none, 2, 0, 3⟩)) .system
    ∧ Issues (.plink ⟨none, 2, 0, 3⟩) none (Touch.longOf (regRes 2 ++ regRes 0)) (netting [1#64, 0#64, 5#64])
    ∧ portBad (netting []) ((netting []).launch 1) 5 (slotVal 1 1) = none
    ∧ Issues (.rwpush ⟨none, 2, 0, 3⟩) none (Touch.longOf (regRes 2 ++ regRes 0)) (netting [0#64, 0#64, 4#64]) ∧ portNum 4 = 0 ∧ portNum 0 = 0 ∧ portNum 5 ≠ 0
    ∧ portIndex 4 < ((netting []).launch 1).nodeCount ∧ ((netting []).launch 1).nodeCount ≤ portIndex 512 ∧ portNum 512 = 0 :=
  ⟨⟨rfl, rfl, rfl, rfl, rfl⟩, rfl, rfl, ⟨rfl, rfl, rfl, Or.inr rfl, rfl⟩, ⟨rfl, rfl, rfl, rfl, rfl⟩, rfl, ⟨rfl, rfl, rfl, rfl, rfl⟩, rfl, rfl, by decide, by decide, by decide, rfl⟩
/-- The exchange of a PXCHG on port 0 of node 0 at its owner. -/
def exchanging : State :=
  (netting []).setGrain { (netting []).grain with nextOp := 1, pend := [⟨1, 0#64, .net .pxchg (some 2) 0#64 9#64 false⟩] }
theorem wit_Nodes_exchanged : ∃ p old s1, pendAt exchanging ⟨0, 0⟩ 1 = some p ∧ p.kind = .net .pxchg (some 2) 0#64 9#64 false
    ∧ exchange exchanging 0 (exchanging.launch (exchanging.grainAt ⟨0, 0⟩).launch) 0 9#64 = .done old s1 := ⟨_, _, _, rfl, rfl, rfl⟩
/-- The core's buffer holds a store to the node. -/
def nodeStored : State := exchanging.setCurCore { exchanging.curCore with buffer := [{ sramStore with addr := 0x410008 }] }
theorem wit_Nodes_exchange_waits : portBad nodeStored (nodeStored.launch 1) 0 9#64 = none ∧ (nodeStored.launch 1).nodeAddr (portCluster 0) (portIndex 0) = 0x410000
    ∧ (bufferedStore (nodeStored.core 0) (nodeStored.launch 1).ctx 0x410000 32).isSome = true := ⟨rfl, rfl, rfl⟩

/-- The same with RWPOP already issued by its grain. -/
def popping : State := (netting []).setLaunch 1 { (netting []).launch 1 with popped := [0] }
/-- A net launch whose one grain has popped and found nothing, with the counts of the sweep before. -/
def swept (xs : List (List (Nat × Nat))) : State :=
  let s := (netting []).onNet 0 1 fun n => { n with bags := [] }
  s.setLaunch 1 { s.launch 1 with popped := [0], sweeps := xs }
/-- The same with the pair already taken from its bag. -/
def taken : State := popping.setGrain { popping.grain with taken := some (0#64, 4#64) }
set_option maxRecDepth 20000 in
theorem wit_Pairs_search : ∃ s1, popping.grain.taken = none ∧ searchPair (popping.issued (.rwpop ⟨none, false⟩)) (popping.launch 1) 1 0 = some ((0#64, 4#64), s1)
    ∧ searchPair (swept []) ((swept []).launch 1) 1 0 = none ∧ ((swept []).launch 1).finished = false := ⟨_, rfl, rfl, rfl, rfl⟩
/-- Both headers of the taken pair are read, and their rule is the table's first. -/
def headersRead (s0 : State) (l : Launch) : Bool :=
  match (headerM l 0#64).run s0 with
  | .ok (hx, s2) => match (headerM l 4#64).run s2 with
    | .ok (hy, s3) => ruleEntry s3 l 0 (agentOf hx) (agentOf hy) == 0x80000010 && decide (agentOf hx < 1) && decide (agentOf hy < 1)
    | .error _ => false
  | .error _ => false
theorem of_headersRead {s0 : State} {l : Launch} (h : headersRead s0 l = true) : ∃ s2 s3 hx hy, (headerM l 0#64).run s0 = .ok (hx, s2)
    ∧ (headerM l 4#64).run s2 = .ok (hy, s3) ∧ ruleEntry s3 l 0 (agentOf hx) (agentOf hy) = 0x80000010 ∧ agentOf hx < 1 ∧ agentOf hy < 1 := by
  unfold headersRead at h
  split at h
  next hx s2 h1 => split at h
                   next hy s3 h2 => simp only [Bool.and_eq_true, beq_iff_eq, decide_eq_true_eq] at h; exact ⟨s2, s3, hx, hy, h1, h2, h.1.1, h.1.2, h.2⟩
                   next => cases h
  next => cases h
set_option maxRecDepth 20000 in
theorem wit_Pairs : (Issues (.rwpop ⟨none, false⟩) none (Touch.longOf [.g 0#4, .g 1#4, .g 2#4, .g 3#4]) taken ∧ taken.grain.pair = none
      ∧ (taken.launch 1).popped.contains taken.grain.ident = true ∧ taken.grain.taken = some (0#64, 4#64))
    ∧ (∃ s2 s3 hx hy, (headerM (taken.launch 1) 0#64).run (taken.issued (.rwpop ⟨none, false⟩)) = .ok (hx, s2)
      ∧ (headerM (taken.launch 1) 4#64).run s2 = .ok (hy, s3) ∧ ruleEntry s3 (taken.launch 1) 0 (agentOf hx) (agentOf hy) = 0x80000010
      ∧ agentOf hx < 1 ∧ agentOf hy < 1)
    ∧ Nat.testBit 0x80000010 31 = true ∧ 0x80000010 / 2 ^ 28 % 4 = 0 :=
  ⟨⟨⟨rfl, rfl, rfl, rfl, rfl⟩, rfl, rfl, rfl⟩, of_headersRead (by decide), rfl, rfl⟩
def paired : State := (netting []).setGrain { (netting []).grain with pair := some (0#64, 4#64) }
/-- The same with a load outstanding. -/
def pairedLoad : State := paired.setGrain { paired.grain with nextOp := 1, pend := [⟨1, 0#64, .load sramAcc .sign 1 .none true none⟩] }
theorem wit_Pairs_waits : Issues (.rwdone ⟨none, 3⟩) none (Touch.longOf []) pairedLoad ∧ pairedLoad.grain.pair ≠ none
    ∧ (∀ p ∈ pairedLoad.grain.pend, (∀ st d q n o, p.kind ≠ .net st d q n o) ∧ ∀ x y c, p.kind ≠ .push x y c)
    ∧ Unreleased (pairedLoad.issued (.rwdone ⟨none, 3⟩)) .system := by
  refine ⟨⟨rfl, rfl, rfl, rfl, rfl⟩, by decide, fun p hp => ?_, Or.inl rfl⟩
  rw [List.mem_singleton.mp hp]
  exact ⟨fun _ _ _ _ _ h => PendKind.noConfusion h, fun _ _ _ h => PendKind.noConfusion h⟩
theorem wit_Pairs_done : Issues (.rwdone ⟨none, 3⟩) none (Touch.longOf []) paired ∧ paired.grain.pair ≠ none
    ∧ (∀ p ∈ paired.grain.pend, (∀ st d q n o, p.kind ≠ .net st d q n o) ∧ ∀ x y c, p.kind ≠ .push x y c)
    ∧ Released (paired.issued (.rwdone ⟨none, 3⟩)) .system
    ∧ Issues (.rwpop ⟨none, false⟩) none (Touch.longOf [.g 0#4, .g 1#4, .g 2#4, .g 3#4]) paired :=
  ⟨⟨rfl, rfl, rfl, rfl, rfl⟩, by decide, fun _ h => absurd h List.not_mem_nil, ⟨rfl, rfl, rfl, Or.inr rfl, rfl⟩, ⟨rfl, rfl, rfl, rfl, rfl⟩⟩

/-- The prefect after an MCALL of the version service, with registers set. -/
def prefect (xs : List Word) : State :=
  (withRegs xs).setSlot ⟨0, 0⟩ { (withRegs xs).slotAt ⟨0, 0⟩ with st := .monitor, msave := some ⟨4#64, placedLaunch.segs, 0#64, .version⟩ }
theorem wit_Privilege : ready.inMonitor = false ∧ Issues (.mret ⟨none, false⟩) none (Touch.of []) ready ∧ Issues (.halt ⟨none, false⟩) none (Touch.of []) ready
    ∧ Issues (.invpg ⟨none, false, 0, .p2m⟩) none (Touch.of (regRes 0)) ready ∧ Issues (.spill ⟨none, false, 0⟩) none (Touch.of (regRes 0)) ready
    ∧ Issues (.protw ⟨none, false, 0, 0⟩) none (Touch.of (threeRegs 0)) ready ∧ Issues (.crwr ⟨none, 0, 3, none⟩) none (Touch.of (regRes 0)) ready
    ∧ crIndex 3 none ≠ 2 ∧ (Instr.crwr ⟨none, 0, 3, none⟩).wf = true ∧ Issues (.crrd ⟨none, 0, 7, none⟩) none (Touch.of (regRes 0)) ready ∧ crIndex 7 none = 7
    ∧ (prefect []).inMonitor = true ∧ Issues (.mcall ⟨none, false, 0⟩) none (Touch.of []) (prefect []) :=
  ⟨rfl, ⟨rfl, rfl, rfl, rfl, rfl⟩, ⟨rfl, rfl, rfl, rfl, rfl⟩, ⟨rfl, rfl, rfl, rfl, rfl⟩, ⟨rfl, rfl, rfl, rfl, rfl⟩, ⟨rfl, rfl, rfl, rfl, rfl⟩,
    ⟨rfl, rfl, rfl, rfl, rfl⟩, by decide, rfl, ⟨rfl, rfl, rfl, rfl, rfl⟩, rfl, rfl, ⟨rfl, rfl, rfl, rfl, rfl⟩⟩
theorem wit_ControlRegisters : Issues (.crrd ⟨none, 0, 9, none⟩) none (Touch.of (regRes 0)) ready ∧ crIndex 9 none = 9
    ∧ (ready.launch ready.grain.launch).reps.count ≤ 1 ∧ Issues (.crwr ⟨none, 0, 2, none⟩) none (Touch.of (regRes 0)) (withRegs [5#64])
    ∧ (5#64 : Word) &&& ~~~(crMask 2) = 0#64 ∧ (0x100#64 : Word) &&& ~~~(crMask 2) ≠ 0#64
    ∧ Issues (.crwr ⟨none, 0, 5, none⟩) none (Touch.of (regRes 0)) (prefect [1#64]) ∧ (1#64 : Word) &&& ~~~(crMask 5) = 0#64 :=
  ⟨⟨rfl, rfl, rfl, rfl, rfl⟩, rfl, by decide, ⟨rfl, rfl, rfl, rfl, rfl⟩, rfl, by decide, ⟨rfl, rfl, rfl, rfl, rfl⟩, rfl⟩

/-- Three registers that hold a descriptor of the SRAM, and memory that holds them. -/
def segRegs (w2 : Word) : State := withRegs [0x400000#64, 0x1000#64, w2, ptr64]
def segMem : State := { segRegs 3#64 with mem := (segRegs 3#64).mem.writeBytes 0x400000 (leBytes 8 0x400000 ++ leBytes 8 0x1000 ++ leBytes 8 3) }
theorem wit_Segments : Issues (.segset ⟨none, false, 0, 4⟩) none (Touch.of (threeRegs 0)) (segRegs 1#64) ∧ Seg.valid ⟨0x400000#64, 0x1000#64, 1#64⟩ 4 = true
    ∧ Seg.valid ⟨0x400000#64, 0x1000#64, 3#64⟩ 4 = false ∧ Seg.valid ⟨0x3FFFFFF000#64, 0x1000#64, 3#64⟩ 3 = true
    ∧ Seg.valid ⟨0x3FFFFFF000#64, 0x1001#64, 3#64⟩ 3 = false ∧ Issues (.segget ⟨none, false, 0, 0⟩) none (Touch.of (threeRegs 0)) ready :=
  ⟨⟨rfl, rfl, rfl, rfl, rfl⟩, rfl, rfl, rfl, rfl, ⟨rfl, rfl, rfl, rfl, rfl⟩⟩
theorem wit_Segments_load : ∃ acc bs s1, Issues (.segld ⟨none, false, 3, 3⟩) none (Touch.of (regRes 3)) segMem
    ∧ Points 3 [] plainFmts (segMem.issued (.segld ⟨none, false, 3, 3⟩)) ptr64 8
    ∧ checkAcc (segMem.issued (.segld ⟨none, false, 3, 3⟩)) ptr64 (readSpec plainFmts 24 8) = .ok acc
    ∧ (readM acc false).run (segMem.issued (.segld ⟨none, false, 3, 3⟩)) = .ok (bs, s1)
    ∧ Seg.valid ⟨wordOf bs 0, wordOf bs 8, wordOf bs 16⟩ 3 = true ∧ Seg.valid ⟨wordOf bs 0, wordOf bs 8, wordOf bs 16⟩ 4 = false :=
  ⟨_, _, _, ⟨rfl, rfl, rfl, rfl, rfl⟩, ⟨rfl, rfl, rfl⟩, rfl, rfl, by decide, by decide⟩

theorem wit_MonitorOperations_call : ∃ s0 svc s1, s0 = ready.issued (.mcall ⟨none, false, 1⟩) ∧ Issues (.mcall ⟨none, false, 1⟩) none (Touch.of []) ready
    ∧ ready.inMonitor = false ∧ Quiet s0 ∧ (svcM (.mcall ⟨none, false, 1⟩) 1).run s0 = .ok (svc, s1) :=
  ⟨_, _, _, rfl, ⟨rfl, rfl, rfl, rfl, rfl⟩, rfl, ⟨rfl, rfl⟩, rfl⟩
theorem wit_MonitorOperations_ret : ∃ m s1, Issues (.mret ⟨none, false⟩) none (Touch.of []) (prefect []) ∧ (prefect []).inMonitor = true
    ∧ ((prefect []).slotAt (prefect []).cur).msave = some m ∧ m.svc = .version
    ∧ (runSvc m).run ((prefect []).issued (.mret ⟨none, false⟩)) = .ok (true, s1) := ⟨_, _, ⟨rfl, rfl, rfl, rfl, rfl⟩, rfl, rfl, rfl, rfl⟩
/-- The prefect with an invalidation that is done, and one with one to start. -/
def invalidated : State := (prefect [0x1000000000#64]).setSlot ⟨0, 0⟩ { (prefect [0x1000000000#64]).slotAt ⟨0, 0⟩ with invDone := true }
theorem wit_MonitorOperations_pages : Issues (.invpg ⟨none, false, 0, .p4k⟩) none (Touch.of (regRes 0)) invalidated ∧ invalidated.inMonitor = true
    ∧ 0x1000000000 % pageBytes .p4k = 0 ∧ (invalidated.slotAt invalidated.cur).invDone = true
    ∧ Issues (.invpg ⟨none, false, 0, .p4k⟩) none (Touch.of (regRes 0)) (prefect [0x1000000000#64])
    ∧ ((prefect [0x1000000000#64]).slotAt (prefect [0x1000000000#64]).cur).invDone = false
    ∧ ((prefect [0x1000000000#64]).cluster (prefect [0x1000000000#64]).here).invWaits.any (fun o => o.who == .grain (prefect []).cur) = false
    ∧ 8 % pageBytes .p4k ≠ 0 := ⟨⟨rfl, rfl, rfl, rfl, rfl⟩, rfl, rfl, rfl, ⟨rfl, rfl, rfl, rfl, rfl⟩, rfl, rfl, by decide⟩
def protReg (w : Word) : State := prefect [0x400000#64, 0x1000#64, w]
theorem wit_MonitorOperations_prot : Issues (.protw ⟨none, false, 15, 0⟩) none (Touch.of (threeRegs 0)) (protReg 0x20003#64)
    ∧ (0x20003#64 : Word) &&& ~~~(0x3FFF7#64) = 0#64 ∧ (0x20003#64 : Word).getLsbD 16 = false
    ∧ admittedUnder ((protReg 0x20003#64).issued (.protw ⟨none, false, 15, 0⟩)) (protReg 0x20003#64).curCore.prot[(15#4).toFin] (some 0) = false
    ∧ (0x8#64 : Word) &&& ~~~(0x3FFF7#64) ≠ 0#64 ∧ (0x30003#64 : Word) &&& ~~~(0x3FFF7#64) = 0#64 ∧ (0x30003#64 : Word).getLsbD 16 = true
    ∧ admittedUnder ((protReg 0x30003#64).issued (.protw ⟨none, false, 15, 0⟩)) ((protReg 0x30003#64).cluster 0).prot[(15#4).toFin] none = false :=
  ⟨⟨rfl, rfl, rfl, rfl, rfl⟩, rfl, rfl, rfl, by decide, rfl, rfl, rfl⟩
/-- The prefect in slot 0 and a grain in slot 2, with the address of a save area and slot 2 in g0. -/
def spilling : State := (prefect [0x400802#64]).setSlot ⟨0, 2⟩ { Slot.blank with st := .ready, grain := { Grain.blank with launch := 1, home := 2 } }
set_option maxRecDepth 100000 in
theorem wit_MonitorOperations_spill : ∃ image s1, Issues (.spill ⟨none, false, 0⟩) none (Touch.of (regRes 0)) spilling ∧ spilling.inMonitor = true
    ∧ (0x400802#64 : Word) &&& ~~~(0x3FFFFFF81F#64) = 0#64 ∧ (0x400802#64 : Word).getLsbD 4 = false
    ∧ ((0x400802#64 : Word).extractLsb' 0 4).toFin = 2 ∧ 2 ≠ spilling.cur.slot
    ∧ ((spilling.issued (.spill ⟨none, false, 0⟩)).slotAt ⟨0, 2⟩).occupied = true ∧ evictable (spilling.issued (.spill ⟨none, false, 0⟩)) ⟨0, 2⟩ = true
    ∧ (spilling.issued (.spill ⟨none, false, 0⟩)).engineIdle 0 = true ∧ ((spilling.issued (.spill ⟨none, false, 0⟩)).grainAt ⟨0, 2⟩).appendedPending = false
    ∧ (writeSaveM 0x400800 0#12 0 (slateOfSlot (spilling.issued (.spill ⟨none, false, 0⟩)) ⟨0, 2⟩)).run (spilling.issued (.spill ⟨none, false, 0⟩))
      = .ok (image, s1) :=
  ⟨_, _, ⟨rfl, rfl, rfl, rfl, rfl⟩, rfl, rfl, rfl, rfl, by decide, rfl, rfl, rfl, rfl, rfl⟩
theorem wit_MonitorOperations_spillEmpty : Issues (.spill ⟨none, false, 0⟩) none (Touch.of (regRes 0)) (prefect [0x400802#64])
    ∧ (((prefect [0x400802#64]).issued (.spill ⟨none, false, 0⟩)).slotAt ⟨0, 2⟩).st = .empty := ⟨⟨rfl, rfl, rfl, rfl, rfl⟩, rfl⟩
/-- A save area at 0x400800 that holds 1,024 zeros, whose grain is a slate. -/
def fillSlate : Slate := { grain := { Grain.blank with launch := 1, home := 2 }, tile := none, weights := [], image := List.replicate 1024 0 }
def filling : State := (prefect [0x400802#64]).setSlate 0 (saveKey 0 0x400800) fillSlate
set_option maxRecDepth 20000 in
theorem wit_MonitorOperations_fill : Issues (.fill ⟨none, false, 0⟩) none (Touch.of (regRes 0)) filling ∧ filling.inMonitor = true
    ∧ ((filling.issued (.fill ⟨none, false, 0⟩)).slotAt ⟨0, 2⟩).st = .empty ∧ (filling.issued (.fill ⟨none, false, 0⟩)).engineIdle 0 = true
    ∧ PMap.get? (saveKey 0 0x400800) (filling.cluster 0).slates = some fillSlate ∧ fillSlate.weights = [] ∧ tileFree filling 0 fillSlate = true
    ∧ readOwner (filling.issued (.fill ⟨none, false, 0⟩)) 0#12 0x400800 1024 = .value fillSlate.image :=
  ⟨⟨rfl, rfl, rfl, rfl, rfl⟩, rfl, rfl, rfl, rfl, rfl, rfl, rfl⟩
theorem wit_MonitorOperations_halt : Issues (.halt ⟨none, false⟩) none (Touch.of []) (prefect []) ∧ Quiet ((prefect []).issued (.halt ⟨none, false⟩))
    ∧ Issues (.rdsig ⟨none, false, 1⟩) none (Touch.of (regRes 1)) ready := ⟨⟨rfl, rfl, rfl, rfl, rfl⟩, ⟨rfl, rfl⟩, ⟨rfl, rfl, rfl, rfl, rfl⟩⟩

/-- The next clk serves slot 0, which last issued 8 clk before. -/
def issued8 : State := (ready.setCore 0 { ready.core 0 with cycle := 12, served := 3 }).setSlot ⟨0, 0⟩ { ready.slotAt ⟨0, 0⟩ with lastIssue := some 5 }
theorem wit_Barrel : nextSlot issued8 0 = some 0 ∧ ((issued8.core 0).slots[(0 : Fin 16)]).lastIssue = some 5
    ∧ ((4 : Fin 16).val + 15 - (issued8.core 0).served.val) % 16 < ((0 : Fin 16).val + 15 - (issued8.core 0).served.val) % 16 := ⟨rfl, rfl, by decide⟩
/-- A slice of SLICE_CYCLES cycles is over, and a grain of the class waits. -/
def expiring : State := withCore fun c => { c with cycle := 262144, runQ := [{ kind := .unstarted 0, cls := 0#2, launch := 1 }] }
/-- A grain of class 1 runs and one of class 0 waits. -/
def preempted : State :=
  (withGrain fun g => { g with cls := 1#2 }).setCore 0
    { (withGrain fun g => { g with cls := 1#2 }).core 0 with runQ := [{ kind := .unstarted 0, cls := 0#2, launch := 1 }] }
theorem wit_Spills : (expiring.slotAt ⟨0, 0⟩).occupied = true ∧ (expiring.slotAt ⟨0, 0⟩).expired = false
    ∧ (expiring.slotAt ⟨0, 0⟩).sliceEnd ≤ (expiring.core 0).cycle ∧ queuedFor expiring ⟨0, 0⟩ = true
    ∧ preempted.engineIdle 0 = true ∧ preemptVictim preempted 0 = some 0
    ∧ ((withCore fun c => { c with spilling := some 0 }).core 0).spilling = some 0
    ∧ ((withCore fun c => { c with spilling := some 0 }).grainAt ⟨0, 0⟩).appendedPending = false := ⟨rfl, rfl, by decide, rfl, rfl, rfl, rfl, rfl⟩
/-- Slot 2 is being filled with the given entry; slate 7 of the core's pool holds its bytes. -/
def entry (k : RunKind) : RunEntry := { kind := k, cls := 0#2, launch := 1 }
def filled (k : RunKind) : State :=
  let s := withCore fun c => { c with filling := some (2, entry k) }
  s.setSlate 0 7 { fillSlate with image := [] }
theorem wit_Fills : ∃ x, ((filled (.spilled 7)).core 0).filling = some (2, entry (.spilled 7)) ∧ ((filled (.spilled 7)).core 0).sliceCycles ≠ 0#32
    ∧ PMap.get? 7 ((filled (.spilled 7)).cluster (coreCluster 0)).slates = some x ∧ poolIntact (filled (.spilled 7)) 7 x = true
    ∧ ((filled (.unstarted 3)).core 0).filling = some (2, entry (.unstarted 3))
    ∧ ((filled (.arrived ready.grain)).core 0).filling = some (2, entry (.arrived ready.grain)) := ⟨_, rfl, by decide, rfl, rfl, rfl, rfl⟩
/-- Context 1 is live with its directory at the start of the SRAM; its tree maps the first 512 MiB of the HBM window if `leaf` says so. -/
def mapped (leaf : Bool) : State :=
  let s := ready.setPkg 0 { ready.pkg 0 with ctxs := [(1, { Context.reset with st := .live, dirBase := 0x400000#64 })] }
  { s with
    mem := ((s.mem.writeBytes 0x400000 (leBytes 8 0x10001)).writeBytes (spaceKey .hbm 0 0x10000 + 1024) (leBytes 8 (if leaf then 3 else 0))) }
set_option maxRecDepth 100000 in
theorem wit_Walks : ∃ e n, translated (0x1000000000#38).toNat = true ∧ (1#12 : BitVec 12) ≠ 0#12 ∧ ctxLive (mapped true) 0 1#12 = true
    ∧ tlbLookup (mapped true) 1#12 0 0x1000000000 = none ∧ pageRecorded (mapped true) 1#12 0 0x1000000000 = false
    ∧ walk (mapped true) 1#12 0 0x1000000000 = .ok (e, n) ∧ walk (mapped false) 1#12 0 0x1000000000 = .error 0
    ∧ tlbLookup (mapped false) 1#12 0 0x1000000000 = none ∧ pageRecorded (mapped false) 1#12 0 0x1000000000 = false :=
  ⟨_, _, rfl, by decide, rfl, rfl, rfl, rfl, rfl, rfl, rfl⟩

/-- A grain whose watch 1 waits for the first word of the sequence area to reach 5; `v` is the word. -/
def watching (v : Nat) : State :=
  let s := withGrain fun g => { g with watches := g.watches.set 1 { Watch.off with armed := true, addr := 0x800000, thr := 5#64 } }
  { s with mem := s.mem.writeBytes 0x800000 (leBytes 8 v) }
theorem wit_Watches : ∃ g, grainOf (watching 5) ⟨0, 0⟩ = some g ∧ (g.watches[(1 : Fin 5)]).armed = true ∧ (g.watches[(1 : Fin 5)]).fired = false
    ∧ (∀ p ∈ g.pend, p.kind ≠ .watch 1) ∧ (watching 5).reachable (g.watches[(1 : Fin 5)]).addr = true
    ∧ (g.watches[(1 : Fin 5)]).thr.toNat ≤ (seqValue (watching 5) (g.watches[(1 : Fin 5)]).addr).toNat
    ∧ (seqValue (watching 4) (g.watches[(1 : Fin 5)]).addr).toNat < (g.watches[(1 : Fin 5)]).thr.toNat :=
  ⟨_, rfl, rfl, rfl, fun _ h => absurd h List.not_mem_nil, rfl, by decide, by decide⟩
/-- A full owner table, and a watch that polls. -/
def watchFull : State := (watching 4).setCluster 0 { (watching 4).cluster 0 with watchTab := List.replicate 256 ⟨0, 0#64, ⟨1, 0⟩, 0, 0#12, 1⟩ }
set_option maxRecDepth 20000 in
theorem wit_Watches_full : 256 ≤ ((watchFull.cluster 0).watchTab.filter (fun e => !(e.waiter == ⟨0, 0⟩ && e.reg == 1))).length := by decide
def polling : State := withGrain fun g => { g with watches := g.watches.set 1 { Watch.off with armed := true, addr := 0x800000, thr := 5#64, polling := true } }
theorem wit_Watches_poll : ∃ g, grainOf polling ⟨0, 0⟩ = some g ∧ (g.watches[(1 : Fin 5)]).polling = true := ⟨_, rfl, rfl⟩
/-- A core's group that has arrived whole. -/
def arrived : State := ready.setLaunch 1 { ready.launch 1 with barriers := [{ sc := .core, unit := 0, epoch := 0, arrived := [0], releasedTo := [], places := [0], resumeAt := [] }] }
theorem wit_Watches_resume : ∃ b, (arrived.launch 1).barriers = [b] ∧ PMap.get? 0 b.resumeAt = none ∧ b.sc = .core
    ∧ groupComplete (arrived.launch 1) (b.unit % 4) b.sc (b.unit / 4) b.arrived = true ∧ 0 ∈ groupCores (arrived.launch 1) (b.unit % 4) b.sc (b.unit / 4)
    ∧ 0 ∉ b.releasedTo := ⟨_, rfl, rfl, rfl, rfl, by decide, by decide⟩
theorem wit_Watches_resumeAt : PMap.get? 0 ({ sc := .core, unit := 0, epoch := 0, arrived := [0], releasedTo := [], places := [0], resumeAt := [(0, 3)] } : BarGroup).resumeAt = some 3
    ∧ (arrived.core 0).cycle < 3 := ⟨rfl, by decide⟩
/-- A core whose SLICE and watchdog registers are at their defaults, at cycle `n`, with a SEND of slot 0 to its own channel 2 on the way. -/
def sending (n : Nat) : State :=
  let s := withGrain fun g => { g with nextOp := 1, pend := [⟨1, 0#64, .send 0 2 1048576⟩] }
  s.setCurCore { s.curCore with cycle := n, chans := s.curCore.chans.set 2 ⟨[], [], [(⟨5#64, 0#12, 1, 0, 0, false, 0, Grain.blank.key⟩, ⟨0, 0⟩, 1)], []⟩ }
/-- The same with sixteen flits in the channel. -/
def sendFull : State :=
  (sending 0).setCurCore { (sending 0).curCore with
    chans := (sending 0).curCore.chans.set 2 ⟨List.replicate 16 ⟨5#64, 0#12, 1, 0, 0, false, 0, Grain.blank.key⟩, [], [(⟨6#64, 0#12, 1, 0, 0, false, 0, Grain.blank.key⟩, ⟨0, 0⟩, 1)], []⟩ }
theorem wit_Flits : ∃ p, (((sending 0).core 0).chans[(2#3).toFin]).inFlight ≠ [] ∧ (((sending 0).core 0).chans[(2#3).toFin]).waiting = []
    ∧ (((sending 0).core 0).chans[(2#3).toFin]).flits.length < 16 ∧ 16 ≤ ((sendFull.core 0).chans[(2#3).toFin]).flits.length
    ∧ pendAt (sending 1048576) ⟨0, 0⟩ 1 = some p ∧ p.kind = .send 0 2 1048576 ∧ sendHeld (sending 1048576) ⟨0, 0⟩ 1 0 2 = true
    ∧ 1048576 ≤ ((sending 1048576).core 0).cycle ∧ ((sending 1048575).core 0).cycle < 1048576 :=
  ⟨_, by decide, rfl, by decide, by decide, rfl, rfl, rfl, by decide, by decide⟩
/-- A grain that waits for a tile, or with a push on its way, since cycle 0, at cycle `n`. -/
def tileWaiting (n : Nat) : State :=
  (ready.setSlot ⟨0, 0⟩ { ready.slotAt ⟨0, 0⟩ with st := .parked .tile, grain := { ready.grain with tileWait := some 0 } }).setCurCore
    { (ready.setSlot ⟨0, 0⟩ { ready.slotAt ⟨0, 0⟩ with st := .parked .tile, grain := { ready.grain with tileWait := some 0 } }).curCore with cycle := n }
def pushing (n : Nat) : State :=
  let s := (netting []).setGrain { (netting []).grain with nextOp := 1, pend := [⟨1, 0#64, .push 0#64 4#64 1048576⟩] }
  s.setCurCore { s.curCore with cycle := n }
theorem wit_Flits_watchdogs : ∃ p, ((tileWaiting 1048576).grainAt ⟨0, 0⟩).tileWait = some 0 ∧ ((tileWaiting 1048576).slotAt ⟨0, 0⟩).st = .parked .tile
    ∧ 0 + ((tileWaiting 1048576).core 0).chanWatchdog.toNat ≤ ((tileWaiting 1048576).core 0).cycle
    ∧ ((tileWaiting 1048575).core 0).cycle < 0 + ((tileWaiting 1048575).core 0).chanWatchdog.toNat
    ∧ pendAt (pushing 1048576) ⟨0, 0⟩ 1 = some p ∧ pushUntil p.kind = some 1048576
    ∧ 1048576 ≤ ((pushing 1048576).core 0).cycle := ⟨_, rfl, rfl, by decide, by decide, rfl, rfl, by decide⟩

/-- The CAS of slot 0 at a bursar slot. -/
def bursared : State :=
  let s := withGrain fun g => { g with nextOp := 1, pend := [⟨1, 0#64, .atomic casReq 1 true none⟩] }
  s.setDie 0 { s.die 0 with bursar := (s.die 0).bursar.set 3 [⟨casReq, some ⟨0, 0⟩, 1, none⟩] }
theorem wit_OwnerEvents : ∃ o p, (bursared.die 0).bursar[(3 : Fin 16)] = [o] ∧ o.loc = some ⟨0, 0⟩ ∧ pendAt bursared ⟨0, 0⟩ o.id = some p
    ∧ p.kind = .atomic casReq 1 true none ∧ casReq.apply ((9#64 : Word).toNat % 2 ^ (8 * casReq.acc.size)) = (9, false, 0#5) :=
  ⟨_, _, rfl, rfl, rfl, rfl, rfl⟩
/-- An update and a far free that wait at cluster 0. -/
def update : Update := ⟨{ casReq with op := .add, x := 3#64 }, ⟨0, 0⟩, 0, false, false, 0#64⟩
def updating : State := ready.setCluster 0 { ready.cluster 0 with updates := [update] }
theorem wit_OwnerEvents_update : ∃ r s1, ((admitUpdate updating 0).cluster 0).updates = [update] ∧ ((admitUpdate updating 0).cluster 0).farFrees = []
    ∧ update.ext = false ∧ bufferedStore ((admitUpdate updating 0).core 0) 0#12 0x400000 8 = none ∧ viaBursar (admitUpdate updating 0) update.req = none
    ∧ applyAtomic (admitUpdate updating 0) update.req = .done r s1 := ⟨_, _, rfl, rfl, rfl, rfl, rfl, rfl⟩
/-- The CAS at the bursar is performed. -/
theorem wit_OwnerEvents_done : ∃ u, performAtomic bursared ⟨0, 0⟩ ⟨1, 0#64, .atomic casReq 1 true none⟩ casReq 1 true (.bursarAtomic 0 3) = (u, true)
    ∧ ∃ x s1, bursarApply bursared casReq = .done x s1 := ⟨_, rfl, _, _, rfl⟩
/-- An update of a line in host memory, which goes to the bursar: context 1 maps the page there. -/
def outUpdate : Update :=
  ⟨{ casReq with op := .add, x := 3#64, acc := { sramAcc with addr := 0x2000000000, ctx := 1#12 } }, ⟨0, 0⟩, 0, false, false, 0#64⟩
def outside : State :=
  let s := ready.setPkg 0 { ready.pkg 0 with ctxs := PMap.set 1 { Context.reset with st := .live } (ready.pkg 0).ctxs }
  s.setCluster 0 { s.cluster 0 with updates := [outUpdate], tlb := [{ ctx := 1#12, cl := 0, base := 0x2000000000, size := 4096, space := .host, phys := 0 }] }
theorem wit_OwnerEvents_outside : ((admitUpdate outside 0).cluster 0).updates = [outUpdate] ∧ ((admitUpdate outside 0).cluster 0).farFrees = []
    ∧ bufferedStore ((admitUpdate outside 0).core 0) 1#12 0x2000000000 8 = none ∧ viaBursar (admitUpdate outside 0) outUpdate.req = some 0
    ∧ ∀ o ∈ ((admitUpdate outside 0).die 0).bursar[(0 : Fin 16)], o.upd ≠ some outUpdate := ⟨rfl, rfl, rfl, by decide +kernel, by decide +kernel⟩
/-- The result of a partner's CAS comes to the grain's place. -/
def partnered : State :=
  ((casing none).setGrain { (casing none).grain with pend := [⟨1, 0#64, .atomic { casReq with tag := some 0 } 1 false none⟩] }).setLaunch 1
    { (casing none).launch 1 with reps := { ((casing none).launch 1).reps with live := [0, 1], count := 2 } }
theorem wit_OwnerEvents_partner : ∃ l g p, ((partnered.launch 1).st = .running ∧ 0 ∈ (partnered.launch 1).reps.live)
    ∧ partnered.grainPlaces.find? (fun x => ((grainOf partnered x).map Grain.key) == some partnered.grain.key) = some l ∧ grainOf partnered l = some g
    ∧ g.pend.find? (fun p => p.kind.tag == some 0) = some p ∧ p.kind = .atomic { casReq with tag := some 0 } 1 false none := ⟨_, _, _, ⟨rfl, by decide⟩, rfl, rfl, rfl, rfl⟩
/-- A far free of node 3. -/
def far3 : FarFree := ⟨0x410060, true, 1, 0x60, 0, 0#64⟩
def freeing : State := (netting []).setCluster 0 { (netting []).cluster 0 with farFrees := [far3] }
theorem wit_OwnerEvents_free : ∃ bs s1, ((admitUpdate freeing 0).cluster 0).updates = [] ∧ ((admitUpdate freeing 0).cluster 0).farFrees = [far3]
    ∧ (admitUpdate freeing 0).alive 0 = true ∧ far3.good = true ∧ (freeing.launch 1).nodeAt far3.addr = some 3 ∧ (freeing.netCl 0 1).retire.length < 4096
    ∧ engineHolds (admitUpdate freeing 0) 0#12 ((freeing.launch 1).nodeAddr 0 3 + 8) 8 = false
    ∧ serveOwner (admitUpdate freeing 0) (freeing.launch 1).ctx ((freeing.launch 1).nodeAddr 0 3 + 8) 8 = .value bs s1
    ∧ nodeFreed (freeing.netCl 0 1) 3 (wordOf bs 0) = false := ⟨_, _, rfl, rfl, rfl, rfl, rfl, by decide, rfl, rfl, rfl⟩

/-- The array's head waits for its first clk at cycle `n`, in a package of duty 1. -/
def starting (n : Nat) : State :=
  let s := arrayed.setPkg 0 { arrayed.pkg 0 with duty := 1 }
  s.setCore 0 { s.core 0 with cycle := n, arrayQ := [{ arrayOp with started := false }] }
theorem wit_UnitEvents : (((starting 0).core 0).arrayQ = [{ arrayOp with started := false }]) ∧ (((starting 0).core 0).wslot 0).st = .valid
    ∧ arrayStep (starting 0) 0 = true ∧ arrayStep (starting 1) 0 = false := ⟨rfl, rfl, rfl, rfl⟩
/-- Weight slot 2 is reloaded from the SRAM. -/
def reloading : State :=
  imaged.setCore 0 { imaged.core 0 with
    wslots := (imaged.core 0).wslots.set 2 { WSlot.empty with st := .invalidated, source := 0x400000, length := 64, reload := [0] } }
theorem wit_UnitEvents_reload : ∃ x bs s1, x = (reloading.core 0).wslots[(2 : Fin 8)] ∧ x.st = .invalidated ∧ x.reload ≠ []
    ∧ x.sourceNow reloading ⟨0, 0⟩ = x.source ∧ sourceAdmitted reloading 0 x = true
    ∧ serveLoad reloading 0 x.ctx (x.source / 2 ^ 38) x.source x.length false false = .value bs s1 := ⟨_, _, _, rfl, rfl, by decide, rfl, rfl, rfl⟩
theorem wit_UnitEvents_fetch : ∃ st bs s1, st = ((withStream inStream64).grainAt ⟨0, 0⟩).streams[(1 : Fin 4)]
    ∧ ((withStream inStream64).slotAt ⟨0, 0⟩).occupied = true ∧ st.bound = true ∧ st.output = false ∧ st.walked < st.total ∧ st.fetched.length < st.room
    ∧ engineHolds (withStream inStream64) 0#12 (st.elemAt (withStream inStream64) ⟨0, 0⟩ st.walked) (etBytes st.fmt) = false
    ∧ ((withStream inStream64).core 0).storesOf 0 = []
    ∧ serveOwner (withStream inStream64) ((withStream inStream64).grainAt ⟨0, 0⟩).ctx (st.elemAt (withStream inStream64) ⟨0, 0⟩ st.walked) (etBytes st.fmt) = .value bs s1 :=
  ⟨_, _, _, rfl, rfl, rfl, rfl, by decide, by decide, rfl, rfl, rfl⟩
/-- An output stream that holds the element of position 0. -/
def writing : State := withStream { inStream64 with output := true, pos := 1, appended := [5#64] }
theorem wit_UnitEvents_write : ∃ st s1, st = (writing.grainAt ⟨0, 0⟩).streams[(1 : Fin 4)] ∧ (writing.slotAt ⟨0, 0⟩).occupied = true ∧ st.output = true
    ∧ st.appended ≠ [] ∧ engineHolds writing 0#12 (st.elemAddr (st.pos - st.appended.length) / 32 * 32) 32 = false
    ∧ writing.reachable (st.elemAddr (st.pos - st.appended.length)) = true
    ∧ writeElems writing (writing.grainAt ⟨0, 0⟩).ctx st (st.pos - st.appended.length) (st.appended.take st.firstLine) = .ok s1 :=
  ⟨_, _, rfl, rfl, rfl, by decide, rfl, rfl, rfl⟩

/-- A core whose last value came at cycle 0, at cycle `n`. -/
def valued (n : Nat) : State := withCore fun c => { c with cycle := n, randAt := some 0 }
theorem wit_ReplicaTraffic : (∀ n, ((valued 16).core 0).randAt = some n → n + 16 ≤ ((valued 16).core 0).cycle) ∧ ((valued 16).core 0).randReady = none
    ∧ ((valued 15).core 0).randAt = some 0 ∧ ((valued 15).core 0).cycle < 0 + 16 :=
  ⟨fun n h => by obtain rfl : 0 = n := Option.some.inj h; decide, rfl, rfl, by decide⟩
theorem wit_ReplicaTraffic_place : ∃ l g, forwarded.grainPlaces.find? (fun x => ((grainOf forwarded x).map Grain.key) == some forwarded.grain.key) = some l
    ∧ grainOf forwarded l = some g := ⟨_, _, rfl, rfl⟩

theorem wit_NetEvents : (∃ x ∈ pushesTo (pushing 0) 0, pushReady (pushing 0) x.1 x.2 = true) ∧ (((netting []).setSlot ⟨0, 0⟩ { (netting []).slotAt ⟨0, 0⟩ with st := .parked .pair }).slotAt ⟨0, 0⟩).st = .parked .pair :=
  ⟨by decide, rfl⟩
theorem wit_NetEvents_sweep : ((swept [[(0, 0)]]).launch 1).net = true ∧ ((swept [[(0, 0)]]).launch 1).st = .running
    ∧ ((swept [[(0, 0)]]).launch 1).finished = false ∧ sweepQuiet (swept [[(0, 0)]]) ((swept [[(0, 0)]]).launch 1) 1 = true
    ∧ ((swept [[(0, 0)]]).launch 1).sweeps = [sweepCounts (swept [[(0, 0)]]) ((swept [[(0, 0)]]).launch 1) 1]
    ∧ ((swept []).launch 1).sweeps ≠ [sweepCounts (swept []) ((swept []).launch 1) 1] ∧ sweepQuiet (netting []) ((netting []).launch 1) 1 = false :=
  ⟨rfl, rfl, rfl, rfl, rfl, by decide, rfl⟩
/-- The launch's epoch is ahead of its cluster's. -/
def ahead : State := (swept []).setLaunch 1 { (swept []).launch 1 with epoch := 1 }
theorem wit_NetEvents_epoch : (ahead.launch 1).net = true ∧ (ahead.netCl 0 1).epoch ≤ 1 ∧ 1 ≤ (ahead.launch 1).epoch
    ∧ ∀ x ∈ (ahead.netCl 0 1).retire.head?, 1 < x.stamp + 2 := ⟨rfl, by decide, by decide, fun _ h => nomatch h⟩

/-- Package 0 after boot, with context 1 live as given and queue 5 bound to it as given. -/
def booted (c : Context) (q : Queue) : State :=
  let p := ready.pkg 0
  ready.setPkg 0 { p with boot := 7, ctxs := PMap.set 1 c p.ctxs, queues := [(5, q)] }
def ctx1 : Context := { Context.reset with st := .live }
/-- A queue of 16 records, bound to context 1; enabled with one record posted. -/
def queue5 : Queue := { Queue.reset with ringLog2 := 4#64, context := 0x1001#64, ringBase := 0x10000#64, compBase := 0x20000#64 }
def posted5 : Queue := { queue5 with enabled := true, tail := 1#64 }
theorem wit_QueueWrites : ((booted ctx1 posted5).pkg 0).up = true ∧ (booted ctx1 posted5).queueAt 0 5 = posted5
    ∧ (posted5.head.toNat ≤ (16#64 : Word).toNat ∧ (16#64 : Word).toNat ≤ posted5.head.toNat + posted5.size ∧ posted5.tail.toNat ≤ (16#64 : Word).toNat)
    ∧ ¬((17#64 : Word).toNat ≤ posted5.head.toNat + posted5.size)
    ∧ queue5.enabled = false ∧ queue5.bound = true ∧ ((booted ctx1 queue5).ctxOf 0 queue5.ctx).valid = true ∧ queue5.ctx ≠ 0#12
    ∧ 4 ≤ queue5.ringLog2.toNat ∧ queue5.ringLog2.toNat ≤ 16 ∧ posted5.enabled = true :=
  ⟨rfl, rfl, by decide, by decide, rfl, rfl, rfl, by decide, by decide, by decide, rfl⟩

theorem wit_LaunchEvents : ((booted ctx1 posted5).pkg 0).up = true ∧ posted5.idle = true ∧ posted5.head.toNat < posted5.tail.toNat
    ∧ ckHeld (booted ctx1 posted5) 0 posted5.ctx = false := ⟨rfl, rfl, by decide, rfl⟩
/-- The first half of the record's read is over. -/
def reading : State :=
  let s := (booted ctx1 { posted5 with running := some 1 })
  s.setLaunch 1 { Launch.none with st := .fetching, seqNo := 0, record := List.replicate 512 0 }
set_option maxRecDepth 20000 in
theorem wit_LaunchEvents_read : (reading.queueAt 0 5).running = some 1 ∧ (reading.launch 1).st = .fetching
    ∧ (reading.launch 1).record.length = 512 := ⟨rfl, rfl, by decide⟩
/-- The read of an enabled queue's record goes on, or none does (R362). -/
theorem wit_QueueWrites_reading : readingOf reading (reading.queueAt 0 5) = some 1 ∧ readingOf (booted ctx1 queue5) queue5 = none := ⟨rfl, rfl⟩
/-- A launch record of a code object at the start of the SRAM, with sg0 over its text; `ver` is the record's version. -/
def record (ver : Nat) : List Byte :=
  leBytes 8 ver ++ leBytes 8 0x400000 ++ List.replicate 112 0 ++ leBytes 8 0x400400 ++ leBytes 8 0x100 ++ leBytes 8 5 ++ List.replicate 360 0
/-- Launch 1 with that record, read; the SRAM holds a descriptor of one grain whose entry PC is 0. -/
def checking (ver : Nat) : State :=
  let s := ready.setLaunch 1 { Launch.none with st := .reading, code := 0x400000, record := record ver }
  { s with
    mem := s.mem.writeBytes 0x400000 (leBytes 4 0x40001 ++ leBytes 4 0 ++ leBytes 8 0x01010101 ++ leBytes 8 0x0800000000000000) }
set_option maxRecDepth 100000 in
theorem wit_LaunchEvents_checked : ∃ d obj, ((checking 1).launch 1).st = .reading ∧ fieldOf ((checking 1).launch 1).record 2 2 / 16 % 2 = 0
    ∧ fieldOf ((checking 1).launch 1).record 2 2 / 8 % 2 = 0 ∧ readHead (checking 1) 1 0x400000 1024 (.launchPlace 1) = .value d
    ∧ refusalOf (checking 1) { describe ((checking 1).launch 1) ((checking 1).launch 1).record d with origins := [] } ((checking 1).launch 1).record d = none
    ∧ (describe ((checking 1).launch 1) ((checking 1).launch 1).record d).objectLen = 1024
    ∧ readHead (checking 1) 1 0x400000 1024 (.launchPlace 1) = .value obj
    ∧ (describe ((checking 1).launch 1) ((checking 1).launch 1).record d).code = 0x400000 ∧ headTouch (checking 1) 1 0x400000 1024 = checking 1 :=
  ⟨_, _, rfl, by decide, by decide, rfl, by decide, by decide, rfl, by decide, rfl⟩
set_option maxRecDepth 100000 in
theorem wit_LaunchEvents_refused : ∃ d, readHead (checking 2) 1 0x400000 1024 (.launchPlace 1) = .value d
    ∧ refusalOf (checking 2) { describe ((checking 2).launch 1) ((checking 2).launch 1).record d with origins := [] } ((checking 2).launch 1).record d = some 2
    ∧ headTouch (checking 2) 1 0x400000 1024 = checking 2 :=
  ⟨_, rfl, by decide, rfl⟩
/-- A launch that is granted, without arguments. -/
def granted : State :=
  ready.setLaunch 1 { placedLaunch with st := .granted, segs := placedLaunch.segs.set 0 ⟨0x400000#64, 32#64, 7#64⟩ }
theorem wit_LaunchEvents_granted : ∃ args, (granted.launch 1).st = .granted ∧ (granted.launch 1).net = false
    ∧ readHead granted 1 (pointerAt (granted.launch 1) 0 (granted.launch 1).args).1 (min 4096 (pointerAt (granted.launch 1) 0 (granted.launch 1).args).2)
        (.launchPlace 1) = .value args := ⟨_, rfl, rfl, rfl⟩
/-- A launch of one grain waits in class 0 of package 0, whose core 1 of cluster 0 runs. -/
def waiting : State :=
  let p := State.reset.pkg 0
  let s := State.reset.setPkg 0 { p with boot := 7, ctxs := PMap.set 1 { ctx1 with params := 1#64 } p.ctxs }
  let s := (s.setCore 0 { Core.reset with status := .running }).setLaunch 1 { placedLaunch with st := .waiting, ctx := 1#12, allot := [], cores := [] }
  s
set_option maxRecDepth 100000 in
theorem wit_LaunchEvents_round : (waiting.pkg 0).up = true ∧ classPlaceable waiting 0 0 = true
    ∧ (∀ b : BitVec 2, b.toNat < (0#2 : BitVec 2).toNat → classPlaceable waiting 0 b = false) := ⟨rfl, by decide, by decide⟩
/-- A graph of two nodes, the second after the first, which ended with the given outcome. -/
def graphing (o : Nat) : State :=
  let table := List.replicate 576 0 ++ leBytes 64 (2 ^ 512 - 1) ++ List.replicate 512 0 ++ leBytes 8 0 ++ leBytes 56 (2 ^ 448 - 1)
  let p := ready.pkg 0
  ready.setPkg 0 { p with queues := [(5, { posted5 with graph := some 0 })], graphs := [(5, ⟨0#12, 0, 0, table, [.ended o 0, .waiting]⟩)] }
set_option maxRecDepth 100000 in
theorem wit_LaunchEvents_graph : ∃ g, graphOf (graphing 0) 0 5 = some g ∧ g.ready 1 = true ∧ ((graphing 0).queueAt 0 5).graph = some g.seqNo
    ∧ ∀ k ∈ g.preds 1, (g.nodes.getD k .waiting).outcome = some 0 := ⟨_, rfl, by decide +kernel, rfl, by decide +kernel⟩
set_option maxRecDepth 100000 in
theorem wit_LaunchEvents_cancelled : ∃ g, graphOf (graphing 1) 0 5 = some g ∧ g.ready 1 = true ∧ 0 ∈ g.preds 1
    ∧ (g.nodes.getD 0 .waiting).outcome ≠ some 0 := ⟨_, rfl, by decide, by decide, by decide⟩

/-- A report of launch 1 is on its way. -/
def reported (l : Launch → Launch) : State :=
  let p := ready.pkg 0
  ((withLaunch l).setPkg 0 { p with reports := [⟨1, .segBounds, 5#64, 0, 0, 0, 0#64, false⟩] })
theorem wit_LaunchEnds : ((reported id).pkg 0).reports ≠ [] ∧ ((reported id).launch 1).st = .running
    ∧ ((reported fun l => { l with st := .stopping }).launch 1).st = .stopping := ⟨by decide, rfl, rfl⟩
def stopping : State := withLaunch fun l => { l with st := .stopping, stops := [0], outcome := 1 }
def emptied : State := withLaunch fun l => { l with live := 0 }
theorem wit_LaunchEnds_complete : (stopping.launch 1).st = .stopping ∧ 0 ∈ (stopping.launch 1).stops
    ∧ (emptied.launch 1).st = .running ∧ (emptied.launch 1).live = 0 ∧ (emptied.launch 1).cores ≠ [] ∧ (emptied.launch 1).net = false
    ∧ (∀ e ∈ emptied.clusters, (∀ u ∈ e.2.allUpdates, u.req.launch ≠ 1) ∧ (∀ p ∈ e.2.packets, p.grain.launch ≠ 1)
        ∧ (∀ c ∈ e.2.cmds, c.launch = 1 → c.st = .done) ∧ ∀ f ∈ e.2.farFrees, f.launch ≠ 1) :=
  ⟨rfl, by decide, rfl, rfl, by decide, rfl, fun _ h => absurd h List.not_mem_nil⟩
/-- A refused launch of queue 5 in context 1. -/
def refused : State :=
  (booted ctx1 { posted5 with running := some 1, head := 1#64 }).setLaunch 1
    { Launch.none with st := .ended, outcome := 2, status := 2#64, queue := 5, ctx := 1#12 }
theorem wit_LaunchEnds_write : (refused.launch 1).st = .ended ∧ (refused.pkg (refused.launch 1).node).failed = false
    ∧ (refused.launch 1).graphNode = none ∧ (refused.launch 1).outcome = 2 ∧ recordFirst refused (refused.launch 1) = true ∧ refused.Inv :=
  ⟨rfl, rfl, rfl, rfl, rfl, rfl⟩
/-- Launch 2 of the same context was ready before launch 1. -/
def overtaken : State :=
  (refused.setLaunch 1 { refused.launch 1 with ready := 9 }).setLaunch 2 { refused.launch 1 with ready := 8 }
theorem wit_LaunchEnds_order : (overtaken.launch 1).st = .ended ∧ ∃ e ∈ overtaken.launches, e.2.st = .ended ∧ e.2.node = (overtaken.launch 1).node
    ∧ e.2.ctx = (overtaken.launch 1).ctx ∧ e.2.ready < (overtaken.launch 1).ready := ⟨rfl, (2, { refused.launch 1 with ready := 8 }), by decide, rfl, rfl, rfl, by decide⟩
def aborting (st : LaunchSt) : State :=
  (booted ctx1 { posted5 with running := some 1, head := 1#64 }).setLaunch 1 { (ready.launch 1) with st, queue := 5 }
theorem wit_LaunchEnds_abort : ((aborting .waiting).pkg 0).up = true ∧ ((aborting .waiting).queueAt 0 5).graph = none
    ∧ ((aborting .waiting).queueAt 0 5).running = some 1 ∧ ((aborting .waiting).launch 1).st = .waiting
    ∧ ((aborting .fetching).launch 1).st = .fetching ∧ ((aborting .running).launch 1).st = .running := ⟨rfl, rfl, rfl, rfl, rfl, rfl⟩

/-- A context whose fields are in range, free or live; and one with a page to invalidate or move. -/
def block : Context := { Context.reset with st := .free, params := 1#64, faultLog2 := 4#64, errLog2 := 4#64 }
def early : State := ready.setPkg 0 { ready.pkg 0 with boot := 3 }
theorem wit_ContextCommands : commandTaken early 0 1#12 1#3 = true ∧ (early.pkg 0).boot ≠ 7 ∧ commandTaken (booted block queue5) 0 1#12 1#3 = true
    ∧ ((booted block queue5).pkg 0).boot = 7 ∧ ((booted block queue5).ctxOf 0 1#12).st = .free ∧ block.inRange = true
    ∧ Context.inRange { block with params := 0#64 } = false
    ∧ commandTaken (booted ctx1 queue5) 0 1#12 2#3 = true ∧ ((booted ctx1 queue5).ctxOf 0 1#12).st = .live :=
  ⟨rfl, by decide, rfl, rfl, rfl, rfl, rfl, rfl, rfl⟩
def destroying : State := booted { ctx1 with st := .busy, lastCmd := 2#3 } queue5
theorem wit_ContextCommands_destroy : (destroying.ctxOf 0 1#12).st = .busy ∧ (destroying.ctxOf 0 1#12).lastCmd = 2#3
    ∧ ctxBusy destroying 0 1#12 = false ∧ ctxBusy (destroying.setLaunch 1 { destroying.launch 1 with ctx := 1#12 }) 0 1#12 = true :=
  ⟨rfl, rfl, rfl, rfl⟩
/-- The page at the start of the HBM window of cluster 0, which context 1 maps by a leaf of 4 KiB; `arg` is the new leaf. -/
def paged (arg : Word) : State :=
  let s := booted { ctx1 with dirBase := 0x400000#64, opAddr := 0x1000000000#64, opArg := arg } queue5
  let m := (((s.mem.writeBytes 0x400000 (leBytes 8 0x10001)).writeBytes (spaceKey .hbm 0 0x10000 + 1024) (leBytes 8 0x11001)).writeBytes
    (spaceKey .hbm 0 0x11000) (leBytes 8 0x12001)).writeBytes (spaceKey .hbm 0 0x12000) (leBytes 8 0x13001)
  { s with mem := (m.writeBytes (spaceKey .hbm 0 0x13000) (leBytes 8 0x14001)).writeBytes (spaceKey .hbm 0 0x14000) (leBytes 8 0x20003) }
/-- A result that the kernel evaluates. -/
theorem ok_of_toOption {ε α : Type} {x : Except ε α} {a : α} (h : x.toOption = some a) : x = .ok a := by
  cases x with
  | error _ => cases h
  | ok _ => cases h; rfl
/-- The leaf that maps the page. -/
def pageEntry : TlbEntry := { ctx := 1#12, cl := 0, base := 0x1000000000, size := 4096, space := .hbm, phys := 0x20000 }
theorem walk_paged : walk (paged 0x30003#64) 1#12 0 0x1000000000 = .ok (pageEntry, spaceKey .hbm 0 0x14000) := ok_of_toOption (by decide +kernel)
theorem wit_ContextCommands_page : opTarget 0 ((paged 0x30003#64).ctxOf 0 1#12) = some (0, 0x1000000000, 4096) ∧ 0x1000000000 % 4096 = 0
    ∧ translated 0x1000000000 = true ∧ (0x30003#64 : Word).toNat % 2 = 1 ∧ leafOk (0x30003#64 : Word).toNat (log2Size 4096) = true
    ∧ walk (paged 0x30003#64) 1#12 0 0x1000000000 = .ok (pageEntry, spaceKey .hbm 0 0x14000) ∧ pageEntry.size = 4096
    ∧ (paged 0x30003#64).alive 0 = true ∧ ((paged 0x30003#64).cluster 0).move = none ∧ commandTaken (paged 0x30003#64) 0 1#12 3#3 = true :=
 
  ⟨by decide, by decide, by decide, by decide, by decide, walk_paged, rfl, by decide, by decide, by decide⟩
theorem wit_ContextCommands_none : opTarget 0 { ctx1 with opAddr := 0x8000000000000#64 } = none := rfl
/-- An invalidation of a page that waits for nothing, and a reassignment at the time `n` of its leases. -/
def invOp (re : Bool) : InvOp := { who := .command 0 1#12, ctx := 1#12, va := 0x1000000000, size := 4096, reassign := re, leases := re, since := 0 }
def invWaiting (re : Bool) (n : Nat) : State :=
  let s := ready.setCore 0 { ready.core 0 with cycle := n }
  s.setCluster 0 { s.cluster 0 with invWaits := [invOp re] }
theorem wit_ContextCommands_done : invOf (invWaiting false 0) (.command 0 1#12) = some (0, invOp false)
    ∧ invOf (invWaiting true 65536) (.command 0 1#12) = some (0, invOp true) ∧ 0 + 65536 ≤ ((invWaiting true 65536).core (0 * 32)).cycle
    ∧ ((invWaiting true 65535).core (0 * 32)).cycle < 0 + 65536 := ⟨rfl, rfl, by decide, by decide⟩

/-- A move of the page of `paged`, in its first or its final pass. -/
def pageMove (final : Bool) (dirty : List Nat) : PageMove :=
  { ctx := 1#12, va := 0x1000000000, size := 4096, leafKey := spaceKey .hbm 0 0x14000, newLeaf := 0x30003#64, oldSpace := .hbm, oldPhys := 0x20000,
    dirty, final }
def moving (final : Bool) : State :=
  let s := paged 0x30003#64
  let s := s.setCtx 0 1#12 { s.ctxOf 0 1#12 with st := .busy, lastCmd := 4#3, migrating := some 0 }
  s.setCluster 0 { s.cluster 0 with move := some (pageMove final []) }
/-- The same with a poisoned granule in the page, and with the cluster lost. -/
def movePoisoned : State := { moving false with poison := [spaceKey .hbm 0 0x20000 / 32] }
def moveLost (final : Bool) : State := (moving final).setCluster 0 { (moving final).cluster 0 with status := .failed }
/-- Whether a place outside the system answers (reason 5) is free: no state shows either answer (notes/assumptions/81.md). -/
theorem wit_ContextCommands_move : moveOf (moving false) 0 1#12 = some (0, pageMove false []) ∧ moveOf (moving true) 0 1#12 = some (0, pageMove true [])
    ∧ (moving false).alive 0 = true ∧ (∀ i, i < (pageMove false []).size / 4096 → subPoisoned (moving false) 0 (pageMove false []) i = false)
    ∧ subPoisoned movePoisoned 0 (pageMove false []) 0 = true ∧ moveOf movePoisoned 0 1#12 = some (0, pageMove false [])
    ∧ (moveLost false).alive 0 = false ∧ moveOf (moveLost true) 0 1#12 = some (0, pageMove true [])
    ∧ (∀ i, i < (pageMove false []).size / 4096 → subAnswers (moving false) 0 (pageMove false []) i = true)
    ∧ commandTaken (moving false) 0 1#12 2#3 = true ∧ ((moving false).ctxOf 0 1#12).moving = true ∧ ((moving false).ctxOf 0 1#12).migrating = some 0 :=
  ⟨rfl, rfl, rfl, fun i _ => List.any_eq_false.mpr fun _ _ => Bool.false_ne_true, by decide +kernel, rfl, rfl, rfl, fun _ _ => rfl, rfl, rfl, rfl⟩
/-- Entry 3 of cluster 0's fault buffer is a recorded page of context 1, which the tree maps or not. -/
def faulted (leaf : Word) : State :=
  let s := paged 0#64
  let s := { s with mem := s.mem.writeBytes (spaceKey .hbm 0 0x14000) (leBytes 8 leaf.toNat) }
  s.setCluster 0 { s.cluster 0 with
    faults := [{ idx := 3, ctx := 1#12, page := 0x1000000, addr := 0x1000000000, access := 0, reason := 0, passed := true, recorded := true, waiters := [] }] }
theorem error_of_isOk {ε α : Type} {x : Except ε α} {e : ε} [DecidableEq ε]
    (h : (match x with | .error e' => decide (e' = e) | .ok _ => false) = true) : x = .error e := by
  cases x with
  | error _ => exact congrArg _ (of_decide_eq_true h)
  | ok _ => cases h
theorem wit_ContextCommands_resolve : ∃ e, ((faulted 0x20003#64).pkg 0).up = true ∧ (3#16).toNat / 32 < 384 ∧ clusterOfIndex 0 ((3#16).toNat / 32) = 0
    ∧ ((faulted 0x20003#64).cluster 0).faults.find? (fun e => e.idx == (3#16).toNat % 32 && e.ctx == 1#12 && e.recorded) = some e
    ∧ walk (faulted 0x20003#64) 1#12 0 e.addr = .ok (pageEntry, spaceKey .hbm 0 0x14000) ∧ walk (faulted 0#64) 1#12 0 e.addr = .error 0 :=
  ⟨_, rfl, by decide, rfl, rfl, ok_of_toOption (by decide +kernel), error_of_isOk (by decide +kernel)⟩

/-- A context with a checkpoint key and a checkpoint block of one empty segment, whose list and target are in the SRAM. -/
def checkpointing (f : Checkpoint → Checkpoint) : State :=
  let s := booted { ctx1 with ckKey := some 5#256 } queue5
  let s := setCk s 0 1#12 (f { Checkpoint.reset with epoch := 2#64, segList := 0x402000#64, segCount := 1#64, targets := [0x410000#64, 0#64, 0#64, 0#64] })
  { s with mem := s.mem.writeBytes 0x402000 (leBytes 8 0x1000000000) }
theorem wit_Checkpoints : ∃ list, ((checkpointing id).pkg 0).up = true ∧ (ckOf (checkpointing id) 0 1#12).st = .idle
    ∧ ((checkpointing id).ctxOf 0 1#12).valid = true ∧ (ckOf (checkpointing id) 0 1#12).lastEpoch.toNat < (ckOf (checkpointing id) 0 1#12).epoch.toNat
    ∧ ckList (setCk (checkpointing id) 0 1#12 { ckOf (checkpointing id) 0 1#12 with lastCmd := 1#2 }) 0 1#12 (.checkpointTake 0 1#12) = .ok list
    ∧ ((checkpointing id).ctxOf 0 1#12).ckKey.isSome = true
    ∧ (ckOf (checkpointing fun x => { x with lastEpoch := 2#64 }) 0 1#12).epoch.toNat
        ≤ (ckOf (checkpointing fun x => { x with lastEpoch := 2#64 }) 0 1#12).lastEpoch.toNat
    ∧ (ckOf (checkpointing fun x => { x with st := .stopping }) 0 1#12).st = .stopping
    ∧ ctxRuns (checkpointing fun x => { x with st := .stopping }) 0 1#12 = false :=
  ⟨_, rfl, rfl, rfl, by decide, rfl, rfl, by decide, rfl, rfl⟩
def ckPulling : State := checkpointing fun x => { x with st := .pulling }
set_option maxRecDepth 100000 in
theorem wit_Checkpoints_pull : ∃ s0 list s1 s2, (ckOf ckPulling 0 1#12).st = .pulling
    ∧ s0 = setCk ckPulling 0 1#12 { ckOf ckPulling 0 1#12 with stopUs := 9#64 } ∧ ckList s0 0 1#12 (.checkpointComplete 0 1#12 9#64) = .ok list
    ∧ pullSegments 0 1#12 (ckSegs list) (.checkpointComplete 0 1#12 9#64) (ckSegs list).zipIdx s0 = .ok s1
    ∧ pullManifests s1 0 1#12 list (.checkpointComplete 0 1#12 9#64) = .ok s2 := ⟨_, _, _, _, rfl, rfl, rfl, rfl, rfl⟩
theorem wit_Checkpoints_restore : ∃ s0 list, (1#12 : BitVec 12) ≠ 0#12 ∧ ctxRuns (checkpointing id) 0 1#12 = false
    ∧ s0 = setCk (checkpointing id) 0 1#12 { ckOf (checkpointing id) 0 1#12 with st := .restoring, lastCmd := 2#2 }
    ∧ noSpareLeft s0 0 1#12 = false ∧ fillWaits s0 0 1#12 = false ∧ ckList s0 0 1#12 (.checkpointRestore 0 1#12) = .ok list :=
  ⟨_, _, by decide, rfl, rfl, rfl, rfl, rfl⟩
/-- The same with a unit that waits for its repair or its fill. -/
def restoring (f : Fill) : State := (checkpointing id).setPkg 0 { (checkpointing id).pkg 0 with fills := [f] }
theorem wit_Checkpoints_spares : ctxRuns (restoring ⟨.die 0, 0, [1#12], false, false⟩) 0 1#12 = false
    ∧ noSpareLeft (setCk (restoring ⟨.die 0, 0, [1#12], false, false⟩) 0 1#12
        { ckOf (restoring ⟨.die 0, 0, [1#12], false, false⟩) 0 1#12 with st := .restoring, lastCmd := 2#2 }) 0 1#12 = true
    ∧ noSpareLeft (setCk (restoring ⟨.cluster 0, 0, [1#12], true, false⟩) 0 1#12
        { ckOf (restoring ⟨.cluster 0, 0, [1#12], true, false⟩) 0 1#12 with st := .restoring, lastCmd := 2#2 }) 0 1#12 = false
    ∧ fillWaits (setCk (restoring ⟨.cluster 0, 0, [1#12], true, false⟩) 0 1#12
        { ckOf (restoring ⟨.cluster 0, 0, [1#12], true, false⟩) 0 1#12 with st := .restoring, lastCmd := 2#2 }) 0 1#12 = true := ⟨rfl, rfl, rfl, rfl⟩

/-- Cluster 0 with its site 17 in use, as given, or with its die's spares used up. -/
def spared (st : ClStatus) (used : Nat) : State :=
  let s := ready.setCluster 0 { ready.cluster 0 with status := st }
  s.setDie 0 { s.die 0 with sparesUsed := used }
theorem wit_Failures : (ready.core 3).status ≠ .failed ∧ (ready.cluster (coreCluster 3)).status ≠ .failed ∧ (ready.cluster (coreCluster 3)).site17 = none
    ∧ (ready.cluster (coreCluster 3)).failedCores = []
    ∧ ((ready.setCluster 0 { ready.cluster 0 with site17 := some 2 }).cluster (coreCluster 3)).site17.isSome = true
    ∧ ((ready.setCluster 0 { ready.cluster 0 with failedCores := [2] }).cluster (coreCluster 3)).failedCores ≠ []
    ∧ 0 % 128 < 96 ∧ sparesTaken ready (clusterDie 0) < 4 ∧ 4 ≤ sparesTaken (spared .enabled 4) (clusterDie 0)
    ∧ ((spared .enabled 4).cluster 0).status ≠ .failed ∧ 0 ∈ unitClusters (.die 0) ∧ (ready.pkg 0).failed = false ∧ 0 ∈ ready.present :=
  ⟨by decide, by decide, rfl, rfl, rfl, by decide, by decide, by decide, by decide, by decide, by decide, rfl, by decide⟩
/-- Core 3 found failed. -/
def coreFailed : State := ready.setCore 3 { ready.core 3 with status := .failed }
/-- A quarantined cluster 0. -/
def quarantined : State := spared .quarantined 0
/-- Cluster 0 was repaired and waits to be filled. -/
def filling0 : Fill := { unit := .cluster 0, order := 0, ctxs := [1#12], repaired := true, running := false }
def spareFilling (f : Fill) : State := ready.setPkg 0 { ready.pkg 0 with fills := [f] }
/-- Core 0 closing, with its grain or without. -/
def closingFull : State := withCore fun c => { c with status := .closing }
def closingEmpty : State := closingFull.setSlot ⟨0, 0⟩ Slot.blank
theorem wit_Repairs : coreFailed.Inv ∧ (coreFailed.core 3).status = .failed ∧ (coreFailed.cluster (coreCluster 3)).status = .enabled
    ∧ (coreFailed.cluster (coreCluster 3)).site17 = none ∧ ((spared .failed 0).cluster 0).status = .failed
    ∧ ((spared .failed 3).die (clusterDie 0)).sparesUsed < 4 ∧ (ready.pkg (clusterNode 0)).failed = false
    ∧ (∀ m ∈ ready.present, (ready.pkg m).aliases.length < 256 ∨ (PMap.get? 9 (ready.pkg m).aliases).isSome = true)
    ∧ (quarantined.cluster 0).status = .quarantined ∧ (quarantined.cluster 0).quarantines.length ≤ 1
    ∧ (∀ f, (f = filling0 ∨ f = { filling0 with ctxs := [] }) →
        ((spareFilling f).pkg (0 / 4)).fills.find? (fun g => g.onDie 0 && g.repaired && !g.running && fillMayRun (spareFilling f) (0 / 4) g) = some f)
    ∧ sparesTaken quarantined (clusterDie 0) < 4
    ∧ (closingEmpty.core 0).status = .closing ∧ (∀ i : Fin 16, ((closingEmpty.core 0).slots[i]).st = .empty ∨ ((closingEmpty.core 0).slots[i]).st = .halted)
    ∧ (closingEmpty.core 0).runQ = [] ∧ (closingEmpty.core 0).filling = none ∧ (closingEmpty.core 0).buffer = []
    ∧ ((closingFull.core 0).slots[(0 : Fin 16)]).st ≠ .empty ∧ ((closingFull.core 0).slots[(0 : Fin 16)]).st ≠ .halted :=
  ⟨rfl, rfl, rfl, rfl, rfl, by decide, rfl, fun m _ => .inl (by
    have : ∀ m, (ready.pkg m).aliases.length < 256 := fun m => by
      show ((PMap.get? m ready.pkgs).getD Pkg.reset).aliases.length < 256
      have h : ready.pkgs = [] := rfl
      rw [h]; exact (by decide : Pkg.reset.aliases.length < 256)
    exact this m), rfl, by decide, fun f h => by obtain rfl | rfl := h <;> rfl, by decide, rfl, by decide, rfl, rfl, rfl, by decide, by decide⟩

/-- A flit that came from the west, at its target's router or one hop away. -/
def flit0 : TorusFlit := { target := 0, src := 3, age := 4095, type := .request, ctx := 1#12, core := 0#5, slot := 0#4, tag := 1#64, payload := 0#256, inPort := some .west }
def flitting (at_ : Nat) : State := ready.setCluster at_ { ready.cluster at_ with flits := [flit0] }
/-- Port 0 of package 0 with flits of tiers 0 and 2, the latter starved. -/
def ported (p : Port) : State := ready.setPkg 0 { ready.pkg 0 with ports := (ready.pkg 0).ports.set 0 p }
def port0 : Port := { lanes := 24, up := true, waited := #v[0, 0, 1024], queued := #v[1, 0, 1], sent := #v[0, 0, 0], authFails := 15, resends := 0 }
/-- A load from another package is outstanding, resent `n` times. -/
def resending (n : Nat) : State :=
  withGrain fun g => { g with nextOp := 1, resent := [(1, n)], pend := [⟨1, 0#64, .load { sramAcc with addr := 2 ^ 47 } .sign 1 .none true none⟩] }
theorem wit_Fabric : ((flitting 0).cluster 0).flits = [flit0] ∧ flit0.inPort = some .west ∧ productive 0 flit0.target = none
    ∧ productive 1 flit0.target = some .west ∧ ((flitting 1).cluster 1).flits = [flit0]
    ∧ (((ported port0).pkg 0).ports[(0 : Fin 6)]).up = true ∧ (((ported port0).pkg 0).ports[(0 : Fin 6)]).nextTier (fun _ => true) = some 2
    ∧ (((ported port0).pkg 0).ports[(0 : Fin 6)]).nextTier (fun _ => false) = none
    ∧ (((ported port0).pkg 0).ports[(0 : Fin 6)]).lanes = 24 ∧ (((ported port0).pkg 0).ports[(0 : Fin 6)]).authFails = 15 := by decide
theorem wit_Fabric_resend : ∃ p i, pendAt (resending 2) ⟨0, 0⟩ 1 = some p ∧ p.kind.owner = some (2 ^ 47)
    ∧ requestPort (resending 2) (clusterNode (coreCluster 0)) (2 ^ 47) = some i ∧ (PMap.get? 1 ((resending 2).grainAt ⟨0, 0⟩).resent).getD 0 < 3
    ∧ 3 ≤ (PMap.get? 1 ((resending 3).grainAt ⟨0, 0⟩).resent).getD 0 := ⟨_, 0, rfl, rfl, by decide, by decide, by decide⟩
/-- The first link of the route is up, or down before the fall-back. -/
def routed (up : Bool) : State :=
  let s := { resending 2 with present := [0, 1] }
  s.setPkg 0 { s.pkg 0 with ports := (s.pkg 0).ports.map fun p => { p with up } }
theorem wit_Fabric_answer : unanswered (routed true) 0 (2 ^ 47) 0 = false ∧ unanswered (routed false) 0 (2 ^ 47) 0 = true := by decide +kernel
/-- A window towards package 1 that a notice halved since the last growth, or not. -/
def windowTo (quiet : Bool) : State := ready.setPkg 0 { ready.pkg 0 with windows := [⟨1, 0, 128, quiet⟩] }
theorem wit_Fabric_window : (((windowTo true).pkg 0).windows.find? fun w => w.target == 1 && w.tier == 0).all (·.quiet) = true
    ∧ (((windowTo false).pkg 0).windows.find? fun w => w.target == 1 && w.tier == 0).all (·.quiet) = false := by decide

/-- The key slots of context 1 at port 2 of package 0. -/
def keyed (ks : Vector KeySlot 4) : State := ready.setPkg 0 { ready.pkg 0 with keys := [(keyIndex 2 1#12, ks)] }
def slotOf (st : KeySt) : KeySlot := { KeySlot.empty with st }
/-- Whether the last posted flit is acknowledged is free: no state shows either answer (notes/assumptions/26.md). -/
theorem wit_LinkKeys : slotIn (ready.pkg 0) (keyIndex 2 1#12) .empty = some 0
    ∧ slotIn ((keyed (Vector.replicate 4 (slotOf .ready))).pkg 0) (keyIndex 2 1#12) .empty = none
    ∧ ((keySlots ((keyed #v[slotOf .active, slotOf .ready, slotOf .draining, slotOf .empty]).pkg 0) (keyIndex 2 1#12))[(1 : Fin 4)]).st = .ready
    ∧ slotIn ((keyed #v[slotOf .active, slotOf .ready, slotOf .draining, slotOf .empty]).pkg 0) (keyIndex 2 1#12) .active = some 0
    ∧ ((keySlots ((keyed #v[slotOf .active, slotOf .ready, slotOf .draining, slotOf .empty]).pkg 0) (keyIndex 2 1#12))[(2 : Fin 4)]).st = .draining
    ∧ ((keySlots ((keyed #v[slotOf .active, slotOf .ready, slotOf .draining, slotOf .empty]).pkg 0) (keyIndex 2 1#12))[(2 : Fin 4)]).requests = []
    ∧ ((keyed #v[slotOf .active, slotOf .ready, slotOf .draining, slotOf .empty]).pkg 0).pendingKeys = [] := by decide

/-- Package 0 with its part of the power control as given. -/
def powered (f : Pkg → Pkg) : State := ready.setPkg 0 (f (ready.pkg 0))
def image : FlashImage := { version := 3#64, digest := 0, sigOk := true, minima := [] }
/-- A package that is off, with an accepted copy of every region, or with none of the head firmware. -/
def flashed (hw : Bool) : State :=
  powered fun p => { p with boot := 0, flash := (List.range 7).filterMap fun r => if r = 0 && !hw then none else some (r, ⟨some image, none⟩) }
/-- The limit is 2,400 W whatever the package's form. -/
theorem wit_Power_limit : plimOf (powered fun p => { p with plim := 2400 }) 0 = 2400 := by
  unfold plimOf; split <;> rfl
theorem wit_Power : ((powered fun p => { p with boot := 7 }).pkg 0).up = true ∧ (ready.pkg 0).up = false ∧ 2400 < 2401
    ∧ 100 * 2279 < 95 * 2400 ∧ 95 * 2400 ≤ 100 * 2280 ∧ 1000 ≤ ((powered fun p => { p with overFor := 1000 }).pkg 0).overFor
    ∧ clusterNode (coreCluster 0) = 0 ∧ (PMap.get? 0 ready.cores).isSome = true ∧ clusterDie (coreCluster 0) = 0
    ∧ ((powered fun p => { p with boot := 7 }).pkg (0 / 4)).failed = false ∧ ((powered fun p => { p with boot := 7 }).pkg (0 / 4)).boot ≠ 0 :=
  ⟨rfl, rfl, by decide, by decide, by decide, by decide, rfl, rfl, rfl, rfl, by decide⟩
theorem wit_Boot : 0 ∈ (flashed true).present ∧ ((flashed true).pkg 0).boot = 0 ∧ (∀ r, (acceptedCopy ((flashed true).pkg 0) r).isSome = true)
    ∧ acceptedCopy ((flashed false).pkg 0) .headFw = none ∧ acceptedCopy ((flashed true).pkg 0) .deviceCert = some image :=
  ⟨by decide, rfl, fun r => by cases r <;> rfl, rfl, rfl⟩
/-- The flash of a package in service. -/
def served : State := powered fun p => { p with boot := 7, flash := ((flashed true).pkg 0).flash }
theorem wit_Boot_update : (served.pkg 0).boot ≠ 0 ∧ acceptedCopy (served.pkg 0) .headFw = some image := ⟨by decide, rfl⟩
/-- A booted package with one record in its log. -/
def logged : State :=
  powered fun p => { p with boot := 7, log := { LifeLog.reset with next := 5, records := [⟨4, LifeLog.reset.toLogCounters, true⟩] } }
theorem wit_Boot_log : (logged.pkg 0).boot = 7 ∧ ((logged.pkg 0).log.records.filter (·.crcOk)).find? (fun r => r.seq == (4#64 : Word).toNat) = some ⟨4, LifeLog.reset.toLogCounters, true⟩
    ∧ ((logged.pkg 0).log.records.filter (·.crcOk)).find? (fun r => r.seq == (1#64 : Word).toNat) = none ∧ (1#64 : Word).toNat < (logged.pkg 0).log.next :=
  ⟨rfl, rfl, rfl, by decide⟩

/-- A booted package whose connection is in a state, with sessions. -/
def connected (st : SpdmSt) (xs : List Session) : State := powered fun p => { p with boot := 7, spdm := st, sessions := xs }
def offer : AlgOffer := ⟨true, true, true, true⟩
theorem wit_Attestation : ((connected .start []).pkg 0).answers = true ∧ ((connected .version []).pkg 0).spdm = .version
    ∧ ((connected .capabilities []).pkg 0).spdm = .capabilities ∧ (offer.sha384 && offer.p384 && offer.secp384r1 && offer.aes256gcm) = true
    ∧ ((connected .negotiated []).pkg 0).spdm = .negotiated ∧ ((connected .version []).pkg 0).spdm ≠ .negotiated
    ∧ measured ((connected .negotiated []).pkg 0) 0 = some [] ∧ measured ((connected .negotiated []).pkg 0) 16 = some [List.replicate 48 0#8] :=
  ⟨rfl, rfl, rfl, rfl, rfl, by decide, rfl, by decide⟩
/-- An open session of context 1 and a finished one of context 2. -/
def session0 : Session := ⟨0, .tenant 1#12, false⟩
def session1 : Session := ⟨1, .tenant 2#12, true⟩
theorem wit_Sessions : ((connected .negotiated [session0, session1]).pkg 0).sessions.length < 8
    ∧ (∀ x ∈ ((connected .negotiated [session0, session1]).pkg 0).sessions, x.owner ≠ .fabricManager)
    ∧ session0 ∈ ((connected .negotiated [session0, session1]).pkg 0).sessions ∧ session0.finished = false ∧ session1.finished = true
    ∧ ((connected .negotiated [session0, session1]).pkg 0).sessions.find? (fun x => x.id == 1 && x.finished) = some session1
    ∧ mayInstall session1.owner (.data 2#12 5) = true ∧ mayInstall session1.owner (.data 1#12 5) = false :=
  ⟨by decide, by decide, by decide, rfl, rfl, rfl, rfl, rfl⟩
/-- Context 1's interface in a state, locked by requester 7. -/
def tdisp (st : Tdisp) : State :=
  (connected .start []).setCtx 0 1#12 { Context.reset with tdisp := st, tdispOwner := 7 }
theorem wit_Sessions_tdisp : ((tdisp .config).pkg 0).up = true ∧ ((tdisp .run).ctxOf 0 1#12).tdisp = .run ∧ ((tdisp .run).ctxOf 0 1#12).tdispOwner = 7
    ∧ ((tdisp .config).ctxOf 0 1#12).tdisp = .config ∧ ((tdisp .locked).ctxOf 0 1#12).tdisp = .locked
    ∧ ((tdisp .locked).ctxOf 0 1#12).tdispOwner = 7 ∧ ((tdisp .locked).ctxOf 0 1#12).tdispOwner ≠ 8 ∧ ((tdisp .locked).pkg 0).answers = true :=
  ⟨rfl, rfl, rfl, rfl, rfl, rfl, by decide, rfl⟩

/-- Instructions of one, five and six words. -/
def longLi : Instr := .li ⟨some ⟨3, true⟩, true, 0, ⟨[1, 2, 3], 4⟩⟩
theorem wit_DecodeEncode : (Instr.add ⟨none, .bare, 3, 5⟩).wf = true ∧ (encodeParts (.add ⟨none, .bare, 3, 5⟩)).isSome = true
    ∧ (encode (.add ⟨none, .bare, 3, 5⟩)).length ≤ 5 ∧ longLi.wf = true ∧ (encodeParts longLi).isSome = true ∧ 5 < (encode longLi).length
    ∧ decodeWords [0x0351#16, 0xFFFF#16] = .instr (.add ⟨none, .bare, 3, 5⟩) 1 := by decide
/-- ADD g3, g5 placed for the next step. -/
def adding : State := placed State.reset [0x0351#16]
theorem wit_StepRunsDecoded : ∃ t, adding.chosen = some (.issue 0) ∧ nextSlot adding.ticked 0 = some 0 ∧ (adding.ticked.grainAt ⟨0, 0⟩).skip = 0
    ∧ t = barrelClk adding.ticked 0 ∧ turnStop t = none ∧ t.inMonitor = false ∧ fetch t = .ok (.add ⟨none, .bare, 3, 5⟩)
    ∧ ∃ u, exec (.add ⟨none, .bare, 3, 5⟩) t = .next u ∧ Sys2Proof.Machine.waiting t.grain.pc ((u.core 0).slots[(0 : Fin 16)]) = false :=
  ⟨_, by decide, rfl, rfl, rfl, rfl, rfl, rfl, _, rfl, rfl⟩
/-- A grain past its window, and an instruction that parks: RECV's slot is gated once its two positions are used. -/
theorem wit_StepRunsDecoded_park : turnStop (withGrain fun g => { g with windows := [⟨1, [], 2, 2⟩], pend := [⟨1, 0#64, .recv 1 7 none⟩] })
    = some (.park .channel []) := rfl
theorem wit_StepRunsDecoded_fetch : (∀ (j : Nat) (h : j < [0x0351#16].length), fetchWord adding adding.grain.pc (pcAdd adding.grain.pc (2 * j)) = .ok [0x0351#16][j])
    ∧ decodeWords [0x0351#16] = .instr (.add ⟨none, .bare, 3, 5⟩) 1
    ∧ (∀ (j : Nat) (h : j < [0xF061#16, 0x0351#16].length), fetchWord (placed State.reset [0xF061#16, 0x0351#16]) 0#64 (pcAdd 0#64 (2 * j)) = .ok [0xF061#16, 0x0351#16][j])
    ∧ decodeWords [0xF061#16, 0x0351#16] = .bad .reservedField 0x0351#16 1 :=
  ⟨fun j h => by match j, h with | 0, _ => rfl, rfl,
    fun j h => by match j, h with | 0, _ => rfl | 1, _ => rfl, by decide⟩
theorem wit_InvKept : ∃ t u, adding.Inv ∧ exec (.add ⟨none, .bare, 3, 5⟩) adding = .next t ∧ runEvent (.storePerformed ⟨0, 0⟩) stored = .next u ∧ stored.Inv :=
  ⟨_, _, rfl, rfl, rfl, rfl⟩
theorem wit_InvKept_step : ∃ t, step adding = .next t := ⟨_, rfl⟩
theorem wit_TakingAFault : ∃ t, finish ready (.error (.trap .segBounds 5#64)) = .next t ∧ (ready.slotAt ready.cur).occupied = true := ⟨_, rfl, rfl⟩
/-- A grain with the given windows and outstanding results. -/
def windowed (ws : List Window) (n : Nat) : State :=
  withGrain fun g => { g with windows := ws, pend := (List.range n).map fun i => ⟨i + 1, 0#64, .load sramAcc .sign 1 .none true none⟩ }
theorem wit_IssueRules : ready.pageFaulted ready.cur = false ∧ ready.arrayBusy ready.cur = false ∧ ready.grain.vloop = none
    ∧ ready.grain.windows = [] ∧ ready.grain.seq = [] ∧ ready.grain.blocked = false ∧ (Instr.add, fun x y : Word => x + y) ∈ binaryFn
    ∧ predOf ready.grain.pw (3#5) = false
    ∧ (windowed [⟨1, [.g 1#4], 2, 2⟩] 1).grain.blocked = true ∧ (windowed [⟨1, [.g 1#4], 2, 1⟩] 1).grain.blocked = false
    ∧ (∃ w ∈ (windowed [⟨1, [.g 1#4], 2, 1⟩] 1).grain.windows, w.pos < w.k ∧ ∃ r ∈ w.dst, r ∈ aluRegs ⟨none, .bare, 1, 2⟩)
    ∧ (windowed [] 4).grain.blocked = false ∧ 4 ≤ (windowed [] 4).grain.pend.length ∧ (Instr.ld, none, false) ∈ loads := by
  refine ⟨rfl, rfl, rfl, rfl, rfl, rfl, by simp [binaryFn], rfl, rfl, rfl, ⟨_, List.mem_singleton_self _, by decide, _, List.mem_singleton_self _, by decide⟩, rfl, by decide, by simp [loads]⟩
theorem wit_RegisterFrames : RegisterForm (.add ⟨none, .bare, 3, 5⟩) none (Touch.of (aluRegs ⟨none, .bare, 3, 5⟩)) [3, 5, 5] 3
    ∧ RegisterForm (.li ⟨none, false, 14, ⟨[], 5⟩⟩) none (Touch.of (regRes 14)) [14] 14
    ∧ Issues (.add ⟨none, .bare, 3, 5⟩) none (Touch.of (aluRegs ⟨none, .bare, 3, 5⟩)) ready ∧ (∀ r ∈ ([3, 5, 5] : List Reg), streamOf r = none) :=
  ⟨.binary (Instr.add, fun x y => x + y) (by simp [binaryFn]) ⟨none, .bare, 3, 5⟩ 5 (.inr ⟨rfl, fun _ h => nomatch h⟩), .li _,
    ⟨rfl, rfl, rfl, rfl, rfl⟩, by decide⟩
theorem wit_RegisterFrames_compare : (Instr.ceq, fun x y : Word => decide (x = y)) ∈ compareFn
    ∧ Issues (.ceq ⟨none, none, 3, 5⟩) none (Touch.predsOf (regRes 3 ++ regRes 5 ++ predRes 0#5)) ready ∧ streamOf 3 = none ∧ streamOf 5 = none :=
  ⟨by simp [compareFn], ⟨rfl, rfl, rfl, rfl, rfl⟩, rfl, rfl⟩
theorem wit_AccessFrames : ∃ t u, Issues (.ld ⟨none, false, 1, 0, 2, []⟩) none (Touch.longOf (regRes 1 ++ regRes 0)) (withRegs [ptr64])
    ∧ exec (.ld ⟨none, false, 1, 0, 2, []⟩) (withRegs [ptr64]) = .next t
    ∧ Issues (.sti ⟨none, false, 1, 0, []⟩) none (Touch.of (regRes 1 ++ regRes 0)) (withRegs [ptr64]) ∧ streamOf 1 = none
    ∧ exec (.sti ⟨none, false, 1, 0, []⟩) (withRegs [ptr64]) = .next u := ⟨_, _, ⟨rfl, rfl, rfl, rfl, rfl⟩, rfl, ⟨rfl, rfl, rfl, rfl, rfl⟩, rfl, rfl⟩

/-! ### One instruction each, with results worked out by hand from the rules -/

/-- The grain after an instruction. -/
def after (i : Instr) (s : State) : Option Grain := match exec i s with | .next t => some t.grain | _ => none

/-- R108, the table of examples: f32, segment 1, offset 0x40, stepped by 3. -/
theorem test_addp : (after (.addp alu01) (withRegs [0x2810000000000040, 3])).map (·.reg 0) = some 0x281000000000004C := by decide
/-- R108, the table of examples: the offset wraps in 52 bits. -/
theorem test_subp : (after (.subp alu01) (withRegs [0x2810000000000040, 0x20])).map (·.reg 0) = some 0x281FFFFFFFFFFFC0 := by decide
/-- R108, the table of examples: q8 with block_log 3 steps by blocks of 288 bytes. -/
theorem test_addp_blocks : (after (.addp alu01) (withRegs [0x4180000000000000, 2])).map (·.reg 0) = some 0x4180000000000240 := by
  decide
/-- R106: addition wraps; d is also the first source. -/
theorem test_add_wraps : (after (.add alu01) (withRegs [0xFFFFFFFFFFFFFFFF, 2])).map (·.reg 0) = some 1 := by decide
/-- R83: the three-address form leaves its sources. -/
theorem test_sub_three : (after (.sub ⟨none, .three 2, 0, 1⟩) (withRegs [9, 5, 7])).map (fun g => (g.reg 0, g.reg 1, g.reg 2))
    = some (0xFFFFFFFFFFFFFFFE, 5, 7) := by decide
/-- R106: the high half of a signed product. -/
theorem test_mulh : (after (.mulh alu01) (withRegs [0x8000000000000000, 2])).map (·.reg 0) = some 0xFFFFFFFFFFFFFFFF := by decide
/-- R110: eight bits from bit 16. -/
theorem test_bfx : (after (.bfx ⟨none, 3, 2, 7, 16⟩) (withRegs [0, 0, 0x0000000012AB5678])).map (·.reg 3) = some 0xAB := by decide
/-- R85: a lane is replaced and the others stay. -/
theorem test_liLane : (after (.liLane ⟨none, 1, 0, ⟨[], 0x55⟩⟩) (withRegs [0xFFFFFFFFFFFFFFFF])).map (·.reg 0) = some 0xFFFFFFFF0055FFFF := by
  decide
/-- R112: the signed order. -/
theorem test_clt : (after (.clt ⟨none, none, 0, 1⟩) (withRegs [0xFFFFFFFFFFFFFFFF, 1])).map (fun g => (g.pw.getLsbD 0, g.reg 0))
    = some (true, 0xFFFFFFFFFFFFFFFF) := by decide
/-- R112: the unsigned order. -/
theorem test_cltn : (after (.cltn ⟨none, none, 0, 1⟩) (withRegs [0xFFFFFFFFFFFFFFFF, 1])).map (·.pw.getLsbD 0) = some false := by
  decide

end Sys2Proof.Tests
end

section
/-! SUPPORT. Issued instructions, faults and accesses: what the shared operations leave in the grain whose turn it is. -/

namespace Sys2Proof.Machine

/-! ### The grain past its instruction (R39, R73, R195) -/

@[simp] theorem State.issued_grain (s : State) (i : Instr) : (s.issued i).grain = s.grain.issued i := State.grain_setGrain s _
@[simp] theorem Grain.issued_reg (g : Grain) (i : Instr) (n : Nat) : (g.issued i).reg n = g.reg n := rfl
@[simp] theorem Grain.issued_sg (g : Grain) (i : Instr) : (g.issued i).sg = g.sg := rfl
@[simp] theorem Grain.issued_seg (g : Grain) (i : Instr) (n : Nat) : (g.issued i).seg n = g.seg n := rfl
@[simp] theorem Grain.setReg_sg (g : Grain) (n : Nat) (x : Word) : (g.setReg n x).sg = g.sg := by
  unfold Grain.setReg; split <;> rfl

/-! ### The grain after a fault (R259) -/

@[simp] theorem State.stopFaulted_cur (s : State) (l : Loc) : (s.stopFaulted l).cur = s.cur := by
  simp only [State.stopFaulted]
  split <;> rfl
@[simp] theorem State.grainAt_stopFaulted (s : State) (l : Loc) : (s.stopFaulted l).grainAt l = s.grainAt l := by
  simp only [State.stopFaulted]
  split
  · simp [State.grainAt]
  · simp [State.grainAt, State.slotAt]
@[simp] theorem State.sendReport_cur (s : State) (node : Nat) (r : Report) : (s.sendReport node r).cur = s.cur := rfl
@[simp] theorem State.grainAt_sendReport (s : State) (node : Nat) (r : Report) (l : Loc) :
    (s.sendReport node r).grainAt l = s.grainAt l := rfl
/-- The trap registers of a core are no part of its grains. -/
@[simp] theorem State.grainAt_setCore_trap (s : State) (l : Loc) (c : Cause) (slot : Nat) (info : Word) :
    (s.setCore l.core ((s.core l.core).trap c slot info)).grainAt l = s.grainAt l := by
  simp [State.grainAt, State.slotAt, Core.trap]

@[simp] theorem State.raiseFrom_cur (s : State) (l : Loc) (pc : Word) (c : Cause) (info : Word) (imprecise : Bool) :
    (s.raiseFrom l pc c info imprecise).cur = s.cur := by
  simp [State.raiseFrom]
/-- A fault leaves the grain as it was but for Ganged, which it clears (R23, R259). -/
@[simp] theorem State.grainAt_raiseFrom_self (s : State) (l : Loc) (pc : Word) (c : Cause) (info : Word) (imprecise : Bool) :
    (s.raiseFrom l pc c info imprecise).grainAt l = { s.grainAt l with pw := setBit (s.grainAt l).pw 46 false } := by
  simp [State.raiseFrom]
@[simp] theorem State.raise_grain (s : State) (c : Cause) (info : Word) :
    (s.raise c info).grain = { s.grain with pw := setBit s.grain.pw 46 false } := by
  simp [State.raise, State.raiseAt, State.grain]

/-! ### Steps of a meaning -/

@[simp] theorem run_reservedWhen_true (i : Instr) (s : State) :
    (reservedWhen true i).run s = .error (.trap .reservedField (infoOfInstr i)) := rfl
@[simp] theorem run_reservedWhen_false (i : Instr) (s : State) : (reservedWhen false i).run s = .ok ((), s) := rfl

theorem run_ptrM_of_points {r : Reg} {off : List Chunk} {ok : List Nat} {s : State} {p : Word} {step : Nat}
    (h : Points r off ok s p step) : (ptrM r off ok).run s = .ok ((p, step), s) := by
  obtain ⟨hfmt, hstep, rfl⟩ := h
  simp only [ptrM, run_bind', run_grainM, hstep, hfmt, if_true, run_pure']

theorem run_accM_of_ok {s : State} {p : Word} {a : AccSpec} {acc : Acc} (h : checkAcc s p a = .ok acc) :
    (accM p a).run s = .ok (acc, s) := by
  simp only [accM, run_bind', run_get', h, run_pure']

end Sys2Proof.Machine
end

section
/-! Segment registers (R30, R31, R233). -/

namespace Sys2Proof.Machine

/-! ### Writing a segment register -/

/-- The grain after a write of a descriptor to a segment register, where it becomes private (R233). -/
def Grain.writeSeg (g : Grain) (n : BitVec 3) (d : Seg) : Grain := { g with sg := g.sg.set n.toFin d.setPriv }

@[simp] theorem Grain.seg_writeSeg_self (g : Grain) (n : BitVec 3) (d : Seg) : (g.writeSeg n d).seg n.toNat = d.setPriv := by
  simp [Grain.seg, Grain.writeSeg, n.isLt]

theorem run_setSegM_of_valid {n : BitVec 3} {d : Seg} (h : d.valid n.toNat = true) (i : Instr) (s : State) :
    (setSegM i n d).run s = .ok ((), s.setGrain (s.grain.writeSeg n d)) := by
  simp only [setSegM, h, Bool.not_true, run_bind', run_reservedWhen_false, run_onGrain, Grain.writeSeg]

theorem run_setSegM_of_invalid {n : BitVec 3} {d : Seg} (h : d.valid n.toNat = false) (i : Instr) (s : State) :
    (setSegM i n d).run s = .error (.trap .reservedField (infoOfInstr i)) := by
  simp only [setSegM, h, Bool.not_false, run_bind', run_reservedWhen_true]

/-! ### The rules of a descriptor (R31) -/

/-- The zero fields of word 2 are its bits from 3 on but for the private bit. -/
theorem word2_zero_fields_iff (w : Word) : w &&& ~~~(0x107#64) = 0#64 ↔ ∀ j, 3 ≤ j → j ≠ 8 → w.getLsbD j = false := by
  have hmask : ∀ j < 64, (~~~(0x107#64)).getLsbD j = decide (3 ≤ j ∧ j ≠ 8) := by decide
  constructor
  · intro h j h3 h8
    by_cases hj : j < 64
    · have hbit := congrArg (·.getLsbD j) h
      simpa only [BitVec.getLsbD_and, hmask j hj, h3, h8, ne_eq, not_false_eq_true, and_self, decide_true, Bool.and_true,
        BitVec.getLsbD_zero] using hbit
    · exact BitVec.getLsbD_of_ge w j (Nat.le_of_not_lt hj)
  · intro h
    refine BitVec.eq_of_getLsbD_eq fun j hj => ?_
    rw [BitVec.getLsbD_and, hmask j hj, BitVec.getLsbD_zero]
    by_cases hz : 3 ≤ j ∧ j ≠ 8
    · simp [h j hz.1 hz.2]
    · simp [hz]

theorem Seg.valid_iff (d : Seg) (n : Nat) :
    d.valid n = true ↔ (4 ≤ n → d.w2.getLsbD 1 = false) ∧ d.w1.extractLsb' 52 12 = 0#12
      ∧ (∀ j, 3 ≤ j → j ≠ 8 → d.w2.getLsbD j = false)
      ∧ (n < 4 → d.w0.extractLsb' 38 26 = 0#26 ∧ d.w0.toNat + (d.w1.extractLsb' 0 52).toNat ≤ 2 ^ 38) := by
  rw [← word2_zero_fields_iff]
  by_cases hfar : 4 ≤ n
  · simp only [Seg.valid, Seg.w, hfar, Nat.not_lt.mpr hfar, Bool.and_eq_true, beq_iff_eq, decide_true, Bool.true_and,
      Bool.not_eq_true', Bool.true_or, and_true, true_imp_iff, false_imp_iff]
    tauto
  · simp only [Seg.valid, Seg.w, hfar, Nat.lt_of_not_le hfar, Bool.and_eq_true, beq_iff_eq, decide_false, Bool.false_and,
      Bool.not_false, Bool.false_or, decide_eq_true_eq, and_true, true_imp_iff, false_imp_iff, true_and,
      and_assoc]
    exact Iff.rfl

/-! ### SEGSET, SEGGET and SEGLD (R233) -/

/-- SEGSET's three words. -/
def Grain.segWords (g : Grain) (f : BitVec 3) : Seg := ⟨g.reg f.toNat, g.reg (f.toNat + 1), g.reg (f.toNat + 2)⟩

@[simp] theorem Grain.segWords_issued (g : Grain) (i : Instr) (f : BitVec 3) : (g.issued i).segWords f = g.segWords f := rfl

/-- SEGGET's three words in the registers from `f` on. -/
def Grain.putSegWords (g : Grain) (f : BitVec 3) (d : Seg) : Grain :=
  ((g.setReg f.toNat d.w0).setReg (f.toNat + 1) d.w1).setReg (f.toNat + 2) d.w2

@[simp] theorem Grain.putSegWords_sg (g : Grain) (f : BitVec 3) (d : Seg) : (g.putSegWords f d).sg = g.sg := by
  simp [Grain.putSegWords]

/-- The three registers are distinct, and none of them is past g9. -/
@[simp] theorem Grain.segWords_putSegWords (g : Grain) (f : BitVec 3) (d : Seg) : (g.putSegWords f d).segWords f = d := by
  have hf : f.toNat < 8 := f.isLt
  have h0 : f.toNat < 10 := by omega
  have h1 : f.toNat + 1 < 10 := by omega
  have h2 : f.toNat + 2 < 10 := by omega
  simp [Grain.segWords, Grain.putSegWords, Grain.reg_setReg_ne, h0, h1, h2]

theorem exec_segset (a : SegArgs) (s : State) : exec (.segset a) s = issue (.segset a) a.gd (Touch.of (threeRegs a.f))
    (fun _ => do setSegM (.segset a) a.n ((← grainM).segWords a.f)) s := rfl
theorem exec_segget (a : SegArgs) (s : State) : exec (.segget a) s = issue (.segget a) a.gd (Touch.of (threeRegs a.f))
    (fun _ => onGrain fun g => g.putSegWords a.f (g.seg a.n.toNat)) s := rfl
theorem exec_segld (a : SegldArgs) (s : State) : exec (.segld a) s = execSegld a s := rfl

theorem segset_of_valid {a : SegArgs} {s : State} (h : Issues (.segset a) a.gd (Touch.of (threeRegs a.f)) s)
    (hd : (s.grain.segWords a.f).valid a.n.toNat = true) :
    EndsWith (.segset a) s fun g => g.writeSeg a.n (s.grain.segWords a.f) := by
  rw [EndsWith, exec_segset]
  refine issue_next h ?_
  simp only [run_bind', run_grainM, State.issued_grain, Grain.segWords_issued, run_setSegM_of_valid hd]

theorem segset_of_invalid {a : SegArgs} {s : State} (h : Issues (.segset a) a.gd (Touch.of (threeRegs a.f)) s)
    (hd : (s.grain.segWords a.f).valid a.n.toNat = false) :
    exec (.segset a) s = .next (s.raise .reservedField (infoOfInstr (.segset a))) := by
  rw [exec_segset]
  refine issue_trap h ?_
  simp only [run_bind', run_grainM, State.issued_grain, Grain.segWords_issued, run_setSegM_of_invalid hd]

theorem segget_putSegWords {a : SegArgs} {s : State} (h : Issues (.segget a) a.gd (Touch.of (threeRegs a.f)) s) :
    EndsWith (.segget a) s fun g => g.putSegWords a.f (s.grain.seg a.n.toNat) := by
  rw [EndsWith, exec_segget]
  refine issue_next h ?_
  rw [run_onGrain, State.issued_grain, Grain.issued_seg]

/-- SEGLD whose pointer, access and read succeed ends in the checked write of what it has read. -/
theorem segld_of_read {a : SegldArgs} {s : State} {p : Word} {step : Nat} {acc : Acc} {bs : List Byte} {s1 : State}
    (h : Issues (.segld a) a.gd (Touch.of (regRes a.a)) s) (hp : Points a.a [] plainFmts (s.issued (.segld a)) p step)
    (hacc : checkAcc (s.issued (.segld a)) p (readSpec plainFmts 24 8) = .ok acc)
    (hread : (readM acc false).run (s.issued (.segld a)) = .ok (bs, s1)) :
    exec (.segld a) s = finish s ((setSegM (.segld a) a.n ⟨wordOf bs 0, wordOf bs 8, wordOf bs 16⟩).run s1) := by
  rw [exec_segld, execSegld, issue_of h]
  simp only [run_bind', run_ptrM_of_points hp, run_accM_of_ok hacc, hread]

/-- Settles O30: SEGSET, SEGGET and SEGLD end in the write of their segment register or of their three registers, and a descriptor that
R31 refuses in a fault. -/
theorem segments : Obligations.Segments := by
  unfold Obligations.Segments
  refine ⟨?segset, ?fault, fun d n => d.valid_iff n.toNat, ?segget, ?segld⟩
  case segset =>
    rintro a s d h rfl
    exact ⟨segset_of_valid h, segset_of_invalid h⟩
  case fault =>
    intro s c info
    rw [State.raise_grain]
  case segget =>
    rintro a s d h rfl
    have hwords := (s.grain.issued (.segget a)).segWords_putSegWords a.f (s.grain.seg a.n.toNat)
    obtain ⟨h0, h1, h2⟩ := Seg.mk.inj hwords
    refine ⟨_, segget_putSegWords h, ?_⟩
    simp only [State.grain_setGrain, State.issued_grain]
    exact ⟨h0, h1, h2, Grain.putSegWords_sg _ _ _⟩
  case segld =>
    rintro a s s0 p step acc bs s1 d rfl h hp hacc hread rfl
    rw [segld_of_read h hp hacc hread]
    constructor
    · intro hd
      rw [run_setSegM_of_valid hd]
      exact ⟨_, rfl, by rw [State.grain_setGrain, Grain.seg_writeSeg_self]⟩
    · intro hd
      rw [run_setSegM_of_invalid hd]
      rfl

end Sys2Proof.Machine
end

section
/-! Transfers of control (R115-R117, R120). -/

namespace Sys2Proof.Machine

/-! ### The program counter and the outstanding results -/

@[simp] theorem Grain.setReg_pc (g : Grain) (n : Nat) (x : Word) : (g.setReg n x).pc = g.pc := by
  unfold Grain.setReg; split <;> rfl
@[simp] theorem Grain.issued_pend (g : Grain) (i : Instr) : (g.issued i).pend = g.pend := rfl

/-! ### Steps of a transfer -/

/-- The address that pc_target makes of an even register (R116). -/
def jumpTarget (x : Word) : Word := 0x0800000000000000#64 ||| (x &&& 0x007FFFFFFFFFFFFF#64)

@[simp] theorem run_jumpM (pc : Word) (s : State) : (jumpM pc).run s = .ok ((), s.setGrain { s.grain with pc := pc }) := rfl

theorem run_pcTarget_of_even {x : Word} (h : x.getLsbD 0 = false) (s : State) : (pcTarget x).run s = .ok (jumpTarget x, s) := by
  simp only [pcTarget, h, Bool.false_eq_true, if_false, run_pure', jumpTarget]

theorem run_pcTarget_of_odd {x : Word} (h : x.getLsbD 0 = true) (s : State) :
    (pcTarget x).run s = .error (.trap .misaligned (segInfo x)) := by
  simp only [pcTarget, h, if_true, run_trapM]

/-- The transfer to the address in a register, which JMPR and RET are. -/
def jumpToReg (n : Nat) : M Unit := do
  let t ← pcTarget ((← grainM).reg n)
  jumpM t

/-- The transfer to the address in a register with the next PC in the link register, which CALLR is once nothing is outstanding: the
register is read first, so CALLR may name the link register itself. -/
def callToReg (n : Nat) : M Unit := do
  parkWhen (!(← grainM).pend.isEmpty) .drain
  let t ← pcTarget ((← grainM).reg n)
  onGrain fun g => g.setReg linkReg g.pc
  jumpM t

section
variable {n : Nat} {x : Word} {s : State}

theorem run_jumpToReg_of_even (hx : s.grain.reg n = x) (h : x.getLsbD 0 = false) :
    (jumpToReg n).run s = .ok ((), s.setGrain { s.grain with pc := jumpTarget x }) := by
  simp only [jumpToReg, run_bind', run_grainM, hx, run_pcTarget_of_even h, run_jumpM]

theorem run_jumpToReg_of_odd (hx : s.grain.reg n = x) (h : x.getLsbD 0 = true) :
    (jumpToReg n).run s = .error (.trap .misaligned (segInfo x)) := by
  simp only [jumpToReg, run_bind', run_grainM, hx, run_pcTarget_of_odd h]

theorem run_callToReg_of_even (hp : s.grain.pend = []) (hx : s.grain.reg n = x) (h : x.getLsbD 0 = false) :
    (callToReg n).run s = .ok ((), s.setGrain { s.grain.setReg linkReg s.grain.pc with pc := jumpTarget x }) := by
  simp only [callToReg, run_bind', run_grainM, hp, List.isEmpty_nil, Bool.not_true, run_parkWhen_false, hx, run_pcTarget_of_even h,
    run_onGrain, run_jumpM, State.grain_setGrain, State.setGrain_setGrain]

theorem run_callToReg_of_odd (hp : s.grain.pend = []) (hx : s.grain.reg n = x) (h : x.getLsbD 0 = true) :
    (callToReg n).run s = .error (.trap .misaligned (segInfo x)) := by
  simp only [callToReg, run_bind', run_grainM, hp, List.isEmpty_nil, Bool.not_true, run_parkWhen_false, hx, run_pcTarget_of_odd h]

end

/-! ### The instructions' meanings -/

theorem exec_br (a : BrArgs) (s : State) : exec (.br a) s = issue (.br a) (some ⟨a.p, a.neg⟩) (Touch.of [])
    (fun pc => jumpM (pcRel pc (a.off.val true))) s := rfl
theorem exec_jmp (a : JmpArgs) (s : State) : exec (.jmp a) s = issue (.jmp a) a.gd (Touch.of [])
    (fun pc => jumpM (pcRel pc (a.off.val true))) s := rfl
theorem exec_nop (a : CtlArgs) (s : State) : exec (.nop a) s = issue (.nop a) a.gd (Touch.of []) (fun _ => pure ()) s := rfl
theorem exec_call (a : JmpArgs) (s : State) : exec (.call a) s = issue (.call a) a.gd (Touch.of [.g 9#4])
    (fun pc => do
      onGrain fun g => g.setReg linkReg g.pc
      jumpM (pcRel pc (a.off.val true))) s := rfl
theorem exec_jmpr (a : JregArgs) (s : State) : exec (.jmpr a) s = issue (.jmpr a) a.gd (Touch.of (regRes a.r))
    (fun _ => jumpToReg a.r.toNat) s := rfl
theorem exec_ret (a : CtlArgs) (s : State) : exec (.ret a) s = issue (.ret a) a.gd (Touch.of [.g 9#4])
    (fun _ => jumpToReg linkReg) s := rfl
theorem exec_callr (a : JregArgs) (s : State) : exec (.callr a) s = issue (.callr a) a.gd (Touch.of (regRes a.r ++ [.g 9#4]))
    (fun _ => callToReg a.r.toNat) s := rfl
theorem exec_loop (a : LoopArgs) (s : State) : exec (.loop a) s = issue (.loop a) a.gd (Touch.of (regRes a.g))
    (fun pc => do
      let n := (← grainM).reg a.g.toNat - 1#64
      onGrain fun g => g.setReg a.g.toNat n
      if n ≠ 0#64 then jumpM (pcRel pc (a.off.val true))) s := rfl

/-! ### Relative transfers and NOP (R115, R116, R120) -/

theorem br_jumps {a : BrArgs} {s : State} (h : Issues (.br a) (some ⟨a.p, a.neg⟩) (Touch.of []) s) :
    EndsWith (.br a) s fun g => { g with pc := pcRel s.grain.pc (a.off.val true) } := by
  rw [EndsWith, exec_br]
  exact issue_next h (run_jumpM _ _)

theorem jmp_jumps {a : JmpArgs} {s : State} (h : Issues (.jmp a) a.gd (Touch.of []) s) :
    EndsWith (.jmp a) s fun g => { g with pc := pcRel s.grain.pc (a.off.val true) } := by
  rw [EndsWith, exec_jmp]
  exact issue_next h (run_jumpM _ _)

theorem nop_moves_on {a : CtlArgs} {s : State} (h : Issues (.nop a) a.gd (Touch.of []) s) :
    exec (.nop a) s = .next (s.issued (.nop a)) := by
  rw [exec_nop]
  exact issue_next h (run_pure' () _)

theorem call_links_and_jumps {a : JmpArgs} {s : State} (h : Issues (.call a) a.gd (Touch.of [.g 9#4]) s) :
    EndsWith (.call a) s fun g => { g.setReg linkReg g.pc with pc := pcRel s.grain.pc (a.off.val true) } := by
  rw [EndsWith, exec_call]
  refine issue_next h ?_
  simp only [run_bind', run_onGrain, run_jumpM, State.grain_setGrain, State.setGrain_setGrain]

/-! ### Transfers through a register (R115, R116) -/

section
variable {i : Instr} {gd : Option Guard} {t : Touch} {n : Nat} {s : State}

theorem jumpToReg_jumps (h : Issues i gd t s) (hexec : exec i s = issue i gd t (fun _ => jumpToReg n) s)
    (heven : (s.grain.reg n).getLsbD 0 = false) : EndsWith i s fun g => { g with pc := jumpTarget (s.grain.reg n) } := by
  rw [EndsWith, hexec]
  exact issue_next h (run_jumpToReg_of_even (by simp) heven)

theorem jumpToReg_misaligned (h : Issues i gd t s) (hexec : exec i s = issue i gd t (fun _ => jumpToReg n) s)
    (hodd : (s.grain.reg n).getLsbD 0 = true) : exec i s = .next (s.raise .misaligned (segInfo (s.grain.reg n))) := by
  rw [hexec]
  exact issue_trap h (run_jumpToReg_of_odd (by simp) hodd)

end

section
variable {a : JregArgs} {s : State}

theorem callr_links_and_jumps (h : Issues (.callr a) a.gd (Touch.of (regRes a.r ++ [.g 9#4])) s) (hp : s.grain.pend = [])
    (heven : (s.grain.reg a.r.toNat).getLsbD 0 = false) :
    EndsWith (.callr a) s fun g => { g.setReg linkReg g.pc with pc := jumpTarget (s.grain.reg a.r.toNat) } := by
  rw [EndsWith, exec_callr]
  exact issue_next h (run_callToReg_of_even (by simpa using hp) (by simp) heven)

theorem callr_misaligned (h : Issues (.callr a) a.gd (Touch.of (regRes a.r ++ [.g 9#4])) s) (hp : s.grain.pend = [])
    (hodd : (s.grain.reg a.r.toNat).getLsbD 0 = true) :
    exec (.callr a) s = .next (s.raise .misaligned (segInfo (s.grain.reg a.r.toNat))) := by
  rw [exec_callr]
  exact issue_trap h (run_callToReg_of_odd (by simpa using hp) (by simp) hodd)

end

/-! ### LOOP (R117) -/

/-- The last pass goes on to the next instruction, whose PC the grain already holds. -/
theorem loop_counts_down {a : LoopArgs} {s : State} {n : Word} (h : Issues (.loop a) a.gd (Touch.of (regRes a.g)) s)
    (hn : n = s.grain.reg a.g.toNat - 1#64) :
    EndsWith (.loop a) s fun g =>
      { g.setReg a.g.toNat n with pc := if n = 0#64 then g.pc else pcRel s.grain.pc (a.off.val true) } := by
  rw [EndsWith, exec_loop]
  refine issue_next h ?_
  simp only [run_bind', run_grainM, State.issued_grain, Grain.issued_reg, ← hn, run_onGrain]
  by_cases hz : n = 0#64
  · have hpc := Grain.setReg_pc (s.grain.issued (.loop a)) a.g.toNat n
    simp only [hz, ne_eq, not_true_eq_false, if_false, if_true, run_pure'] at hpc ⊢
    rw [← hpc]
  · simp only [hz, ne_eq, not_false_eq_true, if_true, if_false, run_jumpM, State.grain_setGrain, State.setGrain_setGrain]

/-- Settles O6: each transfer ends in the write of its PC, with the link or the count beside it, and one through an odd register in a
fault. -/
theorem transfers : Obligations.Transfers := by
  unfold Obligations.Transfers
  refine ⟨fun _ _ => br_jumps, fun _ _ => jmp_jumps, fun _ _ => nop_moves_on, fun _ _ => call_links_and_jumps, ?jmpr, ?ret, ?callr,
    fun _ _ h _ => loop_counts_down h⟩
  case jmpr =>
    rintro a s h x rfl
    exact ⟨jumpToReg_jumps h (exec_jmpr a s), jumpToReg_misaligned h (exec_jmpr a s)⟩
  case ret =>
    rintro a s h x rfl
    exact ⟨jumpToReg_jumps h (exec_ret a s), jumpToReg_misaligned h (exec_ret a s)⟩
  case callr =>
    rintro a s h hp x rfl
    exact ⟨callr_links_and_jumps h hp, callr_misaligned h hp⟩

end Sys2Proof.Machine
end

section
/-! SUPPORT. Parking, events that are due, and the last step of an instruction whose result needs no wait. -/

namespace Sys2Proof.Machine

/-! ### Events that are due -/

@[simp] theorem State.dueOnce_grain (s : State) (e : Event) : (s.dueOnce e).grain = s.grain := rfl
theorem State.mem_dueOnce (s : State) (e : Event) : e ∈ (s.dueOnce e).agenda := by
  simp only [State.dueOnce]
  split
  next h => exact List.contains_iff_mem.mp h
  next => exact List.mem_append_right _ (List.mem_singleton_self e)

/-! ### Parking (R249) -/

/-- Parking changes the state of the slot and nothing else; a monitor slot and a stopping one stay as they are. -/
theorem State.parkCur_cases (s : State) (w : Wait) :
    s.parkCur w = s ∨ ∃ st, s.parkCur w = s.setSlot s.cur { s.slotAt s.cur with st := st } := by
  simp only [State.parkCur, State.parkAt]
  split
  · exact .inl rfl
  · exact .inl rfl
  · exact .inr ⟨_, rfl⟩

section
variable (s : State) (w : Wait)
@[simp] theorem State.parkCur_grain : (s.parkCur w).grain = s.grain := by
  rcases s.parkCur_cases w with h | ⟨st, h⟩
  · rw [h]
  · simp [h, State.grain, State.grainAt]
@[simp] theorem State.parkCur_mem : (s.parkCur w).mem = s.mem := by
  rcases s.parkCur_cases w with h | ⟨st, h⟩ <;> simp [h]
@[simp] theorem State.parkCur_agenda : (s.parkCur w).agenda = s.agenda := by
  rcases s.parkCur_cases w with h | ⟨st, h⟩ <;> simp [h]
end

/-- A slot that was ready parks, and is what it was beside that. -/
theorem State.slotAt_parkCur_of_ready {s : State} {w : Wait} (h : (s.slotAt s.cur).st = .ready) (hw : w ≠ .channel) :
    (s.parkCur w).slotAt s.cur = { s.slotAt s.cur with st := .parked w } := by
  simp [State.parkCur, State.parkAt, h, hw]

/-! ### Results that need no wait (R39) -/

@[simp] theorem State.answered_streams (s : State) (dst : List Res) (la : BitVec 4) :
    (s.answered dst la).grain.streams = s.grain.streams := by
  simp [State.answered]
@[simp] theorem State.answered_pw (s : State) (dst : List Res) (la : BitVec 4) : (s.answered dst la).grain.pw = s.grain.pw := by
  simp [State.answered]
@[simp] theorem State.answered_pair (s : State) (dst : List Res) (la : BitVec 4) : (s.answered dst la).grain.pair = s.grain.pair := by
  simp only [State.answered, State.grain_setGrain]
@[simp] theorem State.answered_mem (s : State) (dst : List Res) (la : BitVec 4) : (s.answered dst la).mem = s.mem := rfl
@[simp] theorem State.cluster_answered (s : State) (dst : List Res) (la : BitVec 4) (k : Nat) :
    (s.answered dst la).cluster k = s.cluster k := rfl

/-- The end of an instruction whose result needs no wait: its window opens with nothing outstanding (R39). -/
def answerM (pc : Word) (dst : List Res) (la : BitVec 4) : M Unit := do
  let id ← pendM pc (.packet 0) dst la
  onGrain fun g => { g with pend := g.pend.filter fun p => p.id != id }

@[simp] theorem run_answerM (pc : Word) (dst : List Res) (la : BitVec 4) (s : State) :
    (answerM pc dst la).run s = .ok ((), s.answered dst la) := by
  simp only [answerM, pendM, run_bind', run_grainM, run_onGrain, run_pure', State.grain_setGrain, State.setGrain_setGrain, State.answered,
    List.filter_append, List.filter_cons, List.filter_nil, bne_self_eq_false, Bool.false_eq_true, if_false, List.append_nil]

theorem run_discard {α : Type} {x : M α} {v : α} {s s' : State} (h : x.run s = .ok (v, s')) : (discard x).run s = .ok ((), s') := by
  show StateT.run ((fun _ => ()) <$> x) s = _
  rw [StateT.run_map, h]
  rfl

end Sys2Proof.Machine
end

section
/-! Stream binding (R215-R219). -/

namespace Sys2Proof.Machine
open Sys2Proof.Claims

/-! ### The grain's streams and sequencer -/

@[simp] theorem Grain.issued_streams (g : Grain) (i : Instr) : (g.issued i).streams = g.streams := rfl
theorem State.issued_streams (s : State) (i : Instr) : (s.issued i).grain.streams = s.grain.streams := by rw [State.issued_grain]; rfl

/-- SDIRTY is the bit that the stream instructions write (R25). -/
@[simp] theorem sdirtyOf_setBit (pw : Word) (b : Bool) : sdirtyOf (setBit pw 45 b) = b := by
  cases b <;> simp [sdirtyOf, setBit]

/-! ### Steps of a meaning -/

theorem run_streamOrderM_of_free {n : Fin 4} {s : State} (h : StreamFree s.grain n) : (streamOrderM n).run s = .ok ((), s) := by
  have hany : (s.grain.seq.any fun e => e.stream.any (fun k => k.toNat == n.val) && !s.grain.ownReplay e) = false :=
    List.any_eq_false.mpr fun e he => by simp [h e he]
  simp only [streamOrderM, run_bind', run_grainM, hany, run_parkWhen_false]

theorem run_drainM_of_empty {n : Fin 4} {s : State} (h : (s.grain.streams[n]).appended = []) : (drainM n).run s = .ok ((), s) := by
  simp only [drainM, run_bind', run_get', h, List.isEmpty_nil, Bool.not_true, Bool.false_eq_true, if_false, run_pure']

theorem run_drainM_of_appended {n : Fin 4} {s : State} (h : (s.grain.streams[n]).appended ≠ []) :
    (drainM n).run s = .error (.park .stream [.outputStreamLineWrite s.cur n]) := by
  simp only [drainM, run_bind', run_get', List.isEmpty_eq_false_iff.mpr h, Bool.not_false, if_true, run_parkOn]

theorem run_streamUseM_of_bound {n : Fin 4} {out : Bool} {s : State} (hb : (s.grain.streams[n]).bound = true)
    (ho : (s.grain.streams[n]).output = out) : (streamUseM n out).run s = .ok ((), s) := by
  simp only [streamUseM, run_bind', run_grainM, hb, ho, Bool.not_true, bne_self_eq_false, run_trapWhen_false]

theorem run_streamUseM_of_unbound {n : Fin 4} (out : Bool) {s : State} (hb : (s.grain.streams[n]).bound = false) :
    (streamUseM n out).run s = .error (.trap .streamMisuse (streamInfo n 1)) := by
  simp only [streamUseM, run_bind', run_grainM, hb, Bool.not_false, run_trapWhen_true]

theorem run_streamUseM_of_direction {n : Fin 4} {out : Bool} {s : State} (hb : (s.grain.streams[n]).bound = true)
    (ho : (s.grain.streams[n]).output ≠ out) : (streamUseM n out).run s = .error (.trap .streamMisuse (streamInfo n 0)) := by
  simp only [streamUseM, run_bind', run_grainM, hb, bne_iff_ne.mpr ho, Bool.not_true, run_trapWhen_false, run_trapWhen_true]

/-! ### SBIND (R216) -/

/-- The grain after SBIND has written a stream register (R25, R216). -/
def Grain.bindStream (g : Grain) (n : BitVec 2) (st : Stream) : Grain :=
  { g with streams := g.streams.set n.toFin st, pw := setBit g.pw 45 true }

theorem Grain.bindStream_stream (g : Grain) (n : BitVec 2) (st : Stream) :
    (g.bindStream n st).streams[n.toFin] = st := by
  simp [Grain.bindStream]
@[simp] theorem Grain.sdirtyOf_bindStream (g : Grain) (n : BitVec 2) (st : Stream) : sdirtyOf (g.bindStream n st).pw = true := by
  simp [Grain.bindStream]

/-- The state after SBIND: the register is written, and an input stream begins to fetch (R216, R274). -/
def State.streamBound (s : State) (n : BitVec 2) (st : Stream) : State :=
  let s' := s.setGrain (s.grain.bindStream n st)
  if st.output then s' else s'.dueOnce (.inputStreamFetch s'.cur n.toFin)

@[simp] theorem State.streamBound_grain (s : State) (n : BitVec 2) (st : Stream) :
    (s.streamBound n st).grain = s.grain.bindStream n st := by
  unfold State.streamBound
  split <;> simp

/-- The stream of a record before its first address is resolved (R215, R216). -/
def recordStream (bs : List Byte) (fmt : EType) : Stream :=
  { Stream.unbound with bound := true, output := fieldOf bs 14 1 == 1, fmt, ptr := wordOf bs 0,
                        c0 := fieldOf bs 8 2, c1 := fieldOf bs 10 2, c2 := fieldOf bs 12 2,
                        s0 := stride bs 16, s1 := stride bs 20, s2 := stride bs 24 }

/-- The fields of a record that R216 checks first: the direction, the zero fields and the counts. -/
def RecordFields (bs : List Byte) : Prop :=
  fieldOf bs 14 1 ≤ 1 ∧ fieldOf bs 15 1 = 0 ∧ fieldOf bs 28 4 = 0 ∧ fieldOf bs 8 2 ≠ 0 ∧ fieldOf bs 10 2 ≠ 0 ∧ fieldOf bs 12 2 ≠ 0

/-- What the accesses of a stream need (R33, R216). -/
def Stream.accSpec (st : Stream) : AccSpec :=
  if st.output then writeSpec plainFmts (etBytes st.fmt) (etBytes st.fmt) else readSpec plainFmts (etBytes st.fmt) (etBytes st.fmt)

/-- A record's stream with the global address that its pointer names, which SBIND resolves through the pointer's segment (R32, R216). -/
def Stream.placed (st : Stream) (s : State) (lo : Acc) : Stream :=
  { st with base := (((resolve s lo.ptr : Int) - st.lowest * etBytes st.fmt) % (2 ^ 64 : Nat)).toNat }

theorem reserved_of_recordFields {bs : List Byte} (h : RecordFields bs) :
    (decide (1 < fieldOf bs 14 1) || fieldOf bs 15 1 != 0 || fieldOf bs 28 4 != 0 || fieldOf bs 8 2 == 0 || fieldOf bs 10 2 == 0
      || fieldOf bs 12 2 == 0) = false := by
  obtain ⟨hdir, hz15, hz28, h0, h1, h2⟩ := h
  simp [Nat.not_lt.mpr hdir, hz15, hz28, h0, h1, h2]

/-- The last steps of SBIND: the two outermost elements are checked, then the stream is bound (R216). -/
def bindStreamM (pc : Word) (a : SbindArgs) (st : Stream) : M Unit := do
  let lo ← accM (stepPtr st.ptr st.lowest (etBytes st.fmt)) st.accSpec
  discard (accM (stepPtr st.ptr st.highest (etBytes st.fmt)) st.accSpec)
  let st := st.placed (← get) lo
  onGrain fun g => g.bindStream a.n st
  if !st.output then modify fun s => s.dueOnce (.inputStreamFetch s.cur a.n.toFin)
  answerM pc [] a.la

/-- The steps of SBIND once it has read its record (R216). -/
def bindRecordM (pc : Word) (a : SbindArgs) (bs : List Byte) : M Unit := do
  reservedWhen (decide (1 < fieldOf bs 14 1) || fieldOf bs 15 1 != 0 || fieldOf bs 28 4 != 0 || fieldOf bs 8 2 == 0 || fieldOf bs 10 2 == 0
    || fieldOf bs 12 2 == 0) (.sbind a)
  match (if (ptrStep (wordOf bs 0)).isSome then fmtEType (ptrFmt (wordOf bs 0)) else none) with
  | none => trapM .formatInvalid (fmtInfo (wordOf bs 0) 0)
  | some fmt => bindStreamM pc a (recordStream bs fmt)

theorem exec_sbind (a : SbindArgs) (s : State) : exec (.sbind a) s = issue (.sbind a) a.gd (Touch.longOf (regRes a.a))
    (fun pc => do
      let (p, _) ← ptrM a.a a.off plainFmts
      let racc ← accM p (readSpec plainFmts 32 32)
      trapWhen ((← grainM).streams[a.n.toFin]).bound .streamMisuse (streamInfo a.n.toNat 1)
      let bs ← readM racc false
      bindRecordM pc a bs) s := rfl

theorem run_bindStreamM {a : SbindArgs} {st : Stream} {s : State} {lo hi : Acc}
    (hlo : checkAcc s (stepPtr st.ptr st.lowest (etBytes st.fmt)) st.accSpec = .ok lo)
    (hhi : checkAcc s (stepPtr st.ptr st.highest (etBytes st.fmt)) st.accSpec = .ok hi) (pc : Word) :
    (bindStreamM pc a st).run s = .ok ((), (s.streamBound a.n (st.placed s lo)).answered [] a.la) := by
  simp only [bindStreamM, run_bind', run_accM_of_ok hlo, run_discard (run_accM_of_ok hhi), run_get', run_onGrain, State.streamBound]
  cases (st.placed s lo).output with
  | false => simp only [Bool.not_false, if_true, run_bind', run_modify', run_answerM, Bool.false_eq_true, if_false]
  | true => simp only [Bool.not_true, Bool.false_eq_true, if_false, run_answerM, if_true]

theorem run_bindRecordM {a : SbindArgs} {bs : List Byte} {n : Nat} {fmt : EType} (hfields : RecordFields bs)
    (hstep : ptrStep (wordOf bs 0) = some n) (hfmt : fmtEType (ptrFmt (wordOf bs 0)) = some fmt) (pc : Word) (s : State) :
    (bindRecordM pc a bs).run s = (bindStreamM pc a (recordStream bs fmt)).run s := by
  simp only [bindRecordM, run_bind', reserved_of_recordFields hfields, run_reservedWhen_false, hstep, Option.isSome_some, if_true, hfmt]

/-- R216: SBIND of a stream that is bound. -/
theorem sbind_of_bound {a : SbindArgs} {s : State} {p : Word} {step : Nat} {racc : Acc}
    (h : Issues (.sbind a) a.gd (Touch.longOf (regRes a.a)) s) (hp : Points a.a a.off plainFmts (s.issued (.sbind a)) p step)
    (hacc : checkAcc (s.issued (.sbind a)) p (readSpec plainFmts 32 32) = .ok racc)
    (hb : (s.grain.streams[a.n.toFin]).bound = true) :
    exec (.sbind a) s = .next (s.raise .streamMisuse (streamInfo a.n.toNat 1)) := by
  rw [exec_sbind]
  refine issue_trap h ?_
  simp only [run_bind', run_ptrM_of_points hp, run_accM_of_ok hacc, run_grainM, State.issued_grain, Grain.issued_streams, hb,
    run_trapWhen_true]

/-- R216: SBIND of a stream that is not bound goes on with the record that it has read. -/
theorem sbind_of_read {a : SbindArgs} {s s1 : State} {p : Word} {step : Nat} {racc : Acc} {bs : List Byte}
    (h : Issues (.sbind a) a.gd (Touch.longOf (regRes a.a)) s) (hp : Points a.a a.off plainFmts (s.issued (.sbind a)) p step)
    (hacc : checkAcc (s.issued (.sbind a)) p (readSpec plainFmts 32 32) = .ok racc)
    (hb : (s.grain.streams[a.n.toFin]).bound = false) (hread : (readM racc false).run (s.issued (.sbind a)) = .ok (bs, s1)) :
    exec (.sbind a) s = finish s ((bindRecordM s.grain.pc a bs).run s1) := by
  rw [exec_sbind, issue_of h]
  simp only [run_bind', run_ptrM_of_points hp, run_accM_of_ok hacc, run_grainM, State.issued_grain, Grain.issued_streams, hb,
    run_trapWhen_false, hread]

/-! ### SUNBIND (R217) -/

/-- The grain after SUNBIND: the stream is unbound, and SDIRTY says whether another is bound (R25, R217). -/
def Grain.unbindStream (g : Grain) (n : BitVec 2) : Grain :=
  { g with streams := g.streams.set n.toFin Stream.unbound,
           pw := setBit g.pw 45 ((g.streams.set n.toFin Stream.unbound).toList.any Stream.bound) }

theorem Grain.unbindStream_self (g : Grain) (n : BitVec 2) : (g.unbindStream n).streams[n.toFin] = Stream.unbound := by
  simp [Grain.unbindStream]
theorem Grain.unbindStream_ne (g : Grain) {n : BitVec 2} {m : Fin 4} (h : m ≠ n.toFin) :
    (g.unbindStream n).streams[m] = g.streams[m] := by
  have hval : n.toNat ≠ m.val := fun e => h (Fin.ext e.symm)
  simp [Grain.unbindStream, hval]

theorem Grain.sdirty_unbindStream_iff (g : Grain) (n : BitVec 2) :
    sdirtyOf (g.unbindStream n).pw = true ↔ ∃ m : Fin 4, ((g.unbindStream n).streams[m]).bound = true := by
  simp only [Grain.unbindStream, sdirtyOf_setBit, List.any_eq_true, Vector.mem_toList_iff, Vector.mem_iff_getElem]
  constructor
  · rintro ⟨_, ⟨k, hk, rfl⟩, hb⟩
    exact ⟨⟨k, hk⟩, hb⟩
  · rintro ⟨m, hb⟩
    exact ⟨_, ⟨m.val, m.isLt, rfl⟩, hb⟩

@[simp] theorem State.dropStreamWaits_grain (s : State) (l : Loc) (which : Fin 4 → Bool) :
    (dropStreamWaits s l which).grain = s.grain := rfl

theorem exec_sunbind (a : StreamArgs) (s : State) : exec (.sunbind a) s = issue (.sunbind a) a.gd (Touch.longOf []) (fun _ => do
    streamOrderM a.n.toFin
    if ((← grainM).streams[a.n.toFin]).output then drainM a.n.toFin
    modify fun s => dropStreamWaits s s.cur (· == a.n.toFin)
    onGrain fun g => g.unbindStream a.n) s := rfl

/-- R217: SUNBIND of a stream that owes no element. -/
theorem sunbind_of_drained {a : StreamArgs} {s s' : State} (h : Issues (.sunbind a) a.gd (Touch.longOf []) s)
    (hfree : StreamFree s.grain a.n.toFin)
    (hdrained : (s.grain.streams[a.n.toFin]).output = true → (s.grain.streams[a.n.toFin]).appended = [])
    (hs : s' = dropStreamWaits (s.issued (.sunbind a)) s.cur (· == a.n.toFin)) :
    exec (.sunbind a) s = .next (s'.setGrain ((s.grain.issued (.sunbind a)).unbindStream a.n)) := by
  have horder := run_streamOrderM_of_free (s := s.issued (.sunbind a)) (by rw [State.issued_grain]; exact hfree)
  rw [exec_sunbind]
  refine issue_next h ?_
  simp only [run_bind', horder, run_grainM, State.issued_grain, Grain.issued_streams]
  by_cases ho : (s.grain.streams[a.n.toFin]).output = true
  · have hdrain := run_drainM_of_empty (n := a.n.toFin) (s := s.issued (.sunbind a)) (by rw [State.issued_grain]; exact hdrained ho)
    simp only [ho, if_true, run_bind', hdrain, run_modify', run_onGrain, hs, State.issued_cur, State.dropStreamWaits_grain,
      State.issued_grain]
  · simp only [ho, Bool.false_eq_true, if_false, run_bind', run_modify', run_onGrain, hs, State.issued_cur,
      State.dropStreamWaits_grain, State.issued_grain]

/-! ### SSTAT (R218) -/

theorem Stream.stat_of_unbound {st : Stream} (h : st.bound = false) : st.stat = 0#64 := by
  simp [Stream.stat, h]

/-- The flags, the count and the elements left of a stream's status stand side by side. -/
theorem Stream.stat_of_bound {st : Stream} (h : st.bound = true) :
    st.stat.toNat % 2 = 1 ∧ st.stat.toNat / 2 % 2 = (if st.output then 1 else 0)
      ∧ st.stat.toNat / 256 % 256 = min 255 (if st.output then st.appended.length else st.fetched.length)
      ∧ st.stat.toNat / 65536 = (st.total - st.pos) % 2 ^ 48 := by
  simp only [Stream.stat, h, Bool.not_true, Bool.false_eq_true, if_false, BitVec.toNat_ofNat]
  generalize st.total - st.pos = left
  generalize (if st.output then st.appended.isEmpty else decide (st.total ≤ st.pos)) = fin
  have hheld : min 255 (if st.output then st.appended.length else st.fetched.length) < 256 := by omega
  generalize min 255 (if st.output then st.appended.length else st.fetched.length) = held at hheld ⊢
  cases st.output <;> cases fin <;> simp only [Bool.false_eq_true, if_false, if_true] <;> omega

theorem exec_sstat (a : SstatArgs) (s : State) : exec (.sstat a) s = issue (.sstat a) a.gd (Touch.longOf (regRes a.d)) (fun pc => do
    let st := (← grainM).streams[a.n.toFin]
    onGrain fun g => g.setReg a.d.toNat st.stat
    answerM pc (regRes a.d) a.la) s := rfl

theorem sstat_answers {a : SstatArgs} {s : State} (h : Issues (.sstat a) a.gd (Touch.longOf (regRes a.d)) s) :
    exec (.sstat a) s = .next (((s.issued (.sstat a)).setReg a.d.toNat (s.grain.streams[a.n.toFin]).stat).answered (regRes a.d) a.la) := by
  rw [exec_sstat]
  refine issue_next h ?_
  simp only [run_bind', run_grainM, run_onGrain, run_answerM, State.issued_grain, Grain.issued_streams, State.setReg]

/-! ### SDRAIN (R219) -/

theorem exec_sdrain (a : StreamArgs) (s : State) : exec (.sdrain a) s = issue (.sdrain a) a.gd (Touch.longOf []) (fun _ => do
    streamOrderM a.n.toFin
    streamUseM a.n.toFin true
    drainM a.n.toFin) s := rfl

section
variable {a : StreamArgs} {s : State} (h : Issues (.sdrain a) a.gd (Touch.longOf []) s) (hfree : StreamFree s.grain a.n.toFin)
include h hfree

/-- With no replay that moves elements of the stream, SDRAIN is the check of its unit and the wait. -/
theorem sdrain_of_free : exec (.sdrain a) s = finish s ((do
    streamUseM a.n.toFin true
    drainM a.n.toFin).run (s.issued (.sdrain a))) := by
  have horder := run_streamOrderM_of_free (s := s.issued (.sdrain a)) (by rw [State.issued_grain]; exact hfree)
  rw [exec_sdrain, issue_of h, run_bind', horder]

theorem sdrain_of_drained (hb : (s.grain.streams[a.n.toFin]).bound = true) (ho : (s.grain.streams[a.n.toFin]).output = true)
    (he : (s.grain.streams[a.n.toFin]).appended = []) : exec (.sdrain a) s = .next (s.issued (.sdrain a)) := by
  have hs := s.issued_streams (.sdrain a)
  simp only [sdrain_of_free h hfree, run_bind', run_streamUseM_of_bound (hs ▸ hb) (hs ▸ ho), run_drainM_of_empty (hs ▸ he), finish]

theorem sdrain_of_appended (hb : (s.grain.streams[a.n.toFin]).bound = true) (ho : (s.grain.streams[a.n.toFin]).output = true)
    (he : (s.grain.streams[a.n.toFin]).appended ≠ []) :
    exec (.sdrain a) s = .next ((s.dueOnce (.outputStreamLineWrite s.cur a.n.toFin)).parkCur .stream) := by
  have hs := s.issued_streams (.sdrain a)
  simp only [sdrain_of_free h hfree, run_bind', run_streamUseM_of_bound (hs ▸ hb) (hs ▸ ho), run_drainM_of_appended (hs ▸ he), finish,
    State.issued_cur, List.foldl_cons, List.foldl_nil]

theorem sdrain_of_unbound (hb : (s.grain.streams[a.n.toFin]).bound = false) :
    exec (.sdrain a) s = .next (s.raise .streamMisuse (streamInfo a.n.toNat 1)) := by
  have hs := s.issued_streams (.sdrain a)
  simp only [sdrain_of_free h hfree, run_bind', run_streamUseM_of_unbound true (hs ▸ hb), finish]
  rfl

theorem sdrain_of_input (hb : (s.grain.streams[a.n.toFin]).bound = true) (ho : (s.grain.streams[a.n.toFin]).output = false) :
    exec (.sdrain a) s = .next (s.raise .streamMisuse (streamInfo a.n.toNat 0)) := by
  have hs := s.issued_streams (.sdrain a)
  have hne : (s.grain.streams[a.n.toFin]).output ≠ true := by rw [ho]; exact Bool.false_ne_true
  simp only [sdrain_of_free h hfree, run_bind', run_streamUseM_of_direction (hs ▸ hb) (hs ▸ hne), finish]
  rfl

end

/-- Settles O26: SBIND writes its register with the record's pattern at position 0, SUNBIND empties it once nothing is owed, SSTAT answers
its status, and SDRAIN passes, waits or faults by what its stream is and still owes. -/
theorem streamBinding : Obligations.StreamBinding := by
  unfold Obligations.StreamBinding
  refine ⟨?sbind, ?sunbind, ?sstat, ?sdrain⟩
  case sbind =>
    rintro a s s0 p step racc bs s1 rfl h hp hacc
    refine ⟨sbind_of_bound h hp hacc, ?_⟩
    rintro hb hread base c0 c1 c2 dir rfl rfl rfl rfl rfl hdir hz15 hz28 h0 h1 h2 n fmt hstep hfmt st hst spec rfl lo hi hlo hhi
    obtain rfl : st = recordStream bs fmt := hst
    have hspec : (recordStream bs fmt).accSpec = if fieldOf bs 14 1 = 1 then writeSpec plainFmts (etBytes fmt) (etBytes fmt)
        else readSpec plainFmts (etBytes fmt) (etBytes fmt) := by simp [Stream.accSpec, recordStream]
    rw [← hspec] at hlo hhi
    have hbind := run_bindStreamM (a := a) (st := recordStream bs fmt) hlo hhi s.grain.pc
    rw [sbind_of_read h hp hacc hb hread, run_bindRecordM ⟨hdir, hz15, hz28, h0, h1, h2⟩ hstep hfmt, hbind]
    refine ⟨_, _, rfl, rfl, ?_⟩
    rw [State.answered_streams, State.answered_pw, State.streamBound_grain, Grain.bindStream_stream, Grain.sdirtyOf_bindStream]
    exact ⟨rfl, beq_iff_eq, rfl, rfl, rfl, rfl, rfl, rfl, rfl, rfl⟩
  case sunbind =>
    intro a s h hfree hdrained
    refine ⟨_, sunbind_of_drained h hfree hdrained rfl, ?_⟩
    rw [State.grain_setGrain]
    exact ⟨Grain.unbindStream_self _ _, fun n hn => Grain.unbindStream_ne _ hn, Grain.sdirty_unbindStream_iff _ _⟩
  case sstat =>
    rintro a s st h rfl
    exact ⟨sstat_answers h, Stream.stat_of_unbound, Stream.stat_of_bound⟩
  case sdrain =>
    rintro a s st h hfree rfl
    refine ⟨sdrain_of_drained h hfree, fun hb ho he hready => ?_, sdrain_of_unbound h hfree, sdrain_of_input h hfree⟩
    refine ⟨_, sdrain_of_appended h hfree hb ho he, ?_, State.parkCur_grain _ _, State.parkCur_mem _ _, ?_⟩
    · exact congrArg Slot.st (State.slotAt_parkCur_of_ready (s := s.dueOnce _) (w := .stream) hready (by decide))
    · rw [State.parkCur_agenda]
      exact State.mem_dueOnce _ _

end Sys2Proof.Machine
end

section
/-! SUPPORT. Steps that leave every grain where it is and as it was: reads at an owner, write-backs and acquires (R133, R267-R269, R279). -/

namespace Sys2Proof.Machine

/-- From `s` to `t` the turn stays where it is, and every slot keeps its grain and its state. -/
def SlotsKept (s t : State) : Prop := t.cur = s.cur ∧ ∀ k, (t.core k).slots = (s.core k).slots

namespace SlotsKept

theorem refl (s : State) : SlotsKept s s := ⟨rfl, fun _ => rfl⟩
theorem trans {s t u : State} (h : SlotsKept s t) (h' : SlotsKept t u) : SlotsKept s u :=
  ⟨h'.1.trans h.1, fun k => (h'.2 k).trans (h.2 k)⟩

theorem grainAt {s t : State} (h : SlotsKept s t) (l : Loc) : t.grainAt l = s.grainAt l := by
  simp only [State.grainAt, State.slotAt, h.2]
theorem grain {s t : State} (h : SlotsKept s t) : t.grain = s.grain := by
  rw [State.grain, h.1, h.grainAt]
  rfl
theorem here {s t : State} (h : SlotsKept s t) : t.here = s.here := congrArg (fun l : Loc => coreCluster l.core) h.1

section
variable {α : Type}
theorem foldl {f : State → α → State} (h : ∀ s x, SlotsKept s (f s x)) (xs : List α) (s : State) : SlotsKept s (xs.foldl f s) := by
  induction xs generalizing s with
  | nil => exact .refl s
  | cons x xs ih => exact (h s x).trans (ih (f s x))
theorem foldr {f : α → State → State} (h : ∀ x s, SlotsKept s (f x s)) (xs : List α) (s : State) : SlotsKept s (xs.foldr f s) := by
  induction xs with
  | nil => exact .refl s
  | cons x xs ih => exact ih.trans (h x _)
end

end SlotsKept

/-! ### Updates of the state -/

theorem slotsKept_setCluster (s : State) (gid : Nat) (c : Cluster) : SlotsKept s (s.setCluster gid c) := ⟨rfl, fun _ => rfl⟩
theorem slotsKept_setDie (s : State) (d : Nat) (x : Die) : SlotsKept s (s.setDie d x) := ⟨rfl, fun _ => rfl⟩
theorem slotsKept_dueOnce (s : State) (e : Event) : SlotsKept s (s.dueOnce e) := ⟨rfl, fun _ => rfl⟩
theorem slotsKept_setMem (s : State) (m : Memory) : SlotsKept s { s with mem := m } := ⟨rfl, fun _ => rfl⟩
theorem slotsKept_setCore {s : State} {k : Nat} {c : Core} (h : c.slots = (s.core k).slots) : SlotsKept s (s.setCore k c) := by
  refine ⟨rfl, fun j => ?_⟩
  by_cases hj : j = k
  · rw [hj, State.core_setCore_self, h]
  · rw [State.core_setCore_ne s hj]

/-! ### Translation and the L2 (R267-R269, R378) -/

section
variable (s : State) (gid line : Nat)

theorem slotsKept_tlbTouchAt (ctx : BitVec 12) (addr : Nat) : SlotsKept s (tlbTouchAt s ctx addr) := by
  simp only [tlbTouchAt]
  split
  · exact .refl s
  · split
    · exact slotsKept_setCluster _ _ _
    · split
      · exact (slotsKept_setCluster _ _ _).trans (slotsKept_setDie _ _ _)
      · exact .refl s
theorem slotsKept_tlbTouch (ctx : BitVec 12) (addr n : Nat) : SlotsKept s (tlbTouch s ctx addr n) :=
  .foldl (fun s _ => slotsKept_tlbTouchAt s ctx _) _ s

theorem slotsKept_l1Invalidate (keep : Option Nat) : SlotsKept s (l1Invalidate s gid line keep) := by
  simp only [l1Invalidate]
  split
  · exact .refl s
  · refine (SlotsKept.foldl (fun s k => ?_) _ s).trans (slotsKept_setCluster _ _ _)
    split
    · exact slotsKept_setCore rfl
    · exact .refl s

theorem slotsKept_joinBurst (write : Bool) : SlotsKept s (joinBurst s gid line write) := by
  simp only [joinBurst]
  split
  · exact slotsKept_setCluster _ _ _
  · exact (slotsKept_setCluster _ _ _).trans (slotsKept_dueOnce _ _)

theorem slotsKept_writeBackLine : SlotsKept s (writeBackLine s gid line) :=
  (SlotsKept.foldr (fun _ s => slotsKept_setMem s _) _ s).trans (slotsKept_setCluster _ _ _)

theorem slotsKept_l2Room : SlotsKept s (l2Room s gid) := by
  simp only [l2Room]
  split
  · exact .refl s
  next x _ _ =>
    split
    · exact .refl s
    · have hdropped (c : Cluster) := (slotsKept_l1Invalidate s gid x.addr none).trans (slotsKept_setCluster _ gid c)
      split
      · exact hdropped _
      · split
        · exact (hdropped _).trans (slotsKept_writeBackLine _ _ _)
        · exact (hdropped _).trans (slotsKept_joinBurst _ _ _ _)

theorem slotsKept_l2Fill : SlotsKept s (l2Fill s gid line) := by
  simp only [l2Fill]
  split
  · exact .refl s
  · exact (slotsKept_l2Room s gid).trans (slotsKept_setCluster _ _ _)

theorem slotsKept_l2Windows (ctx : BitVec 12) (addr n : Nat) : SlotsKept s (l2Windows s ctx addr n) :=
  .foldl (fun s k => slotsKept_l2Fill s _ k) _ s

theorem slotsKept_writeBack : SlotsKept s (writeBack s gid) :=
  have hlines (xs : List L2Line) : SlotsKept s (xs.foldl (fun s x => writeBackLine s gid x.addr) s) :=
    .foldl (fun s x => slotsKept_writeBackLine s gid x.addr) xs s
  ((hlines _).trans (.foldr (fun _ s => slotsKept_setMem s _) _ _)).trans (slotsKept_setCluster _ _ _)

end

/-! ### Reads (R285) -/

section
variable {s t : State} {bs : List Byte}

theorem slotsKept_of_serveOwner {ctx : BitVec 12} {addr n : Nat} (h : serveOwner s ctx addr n = .value bs t) : SlotsKept s t := by
  simp only [serveOwner] at h
  split at h
  case h_4 =>
    split at h
    · cases h
    · cases h
      exact (slotsKept_tlbTouch s ctx addr n).trans (slotsKept_l2Windows _ ctx addr n)
  all_goals cases h

/-- A read that the L1 does not serve. -/
theorem slotsKept_of_serveLoad {core named addr n : Nat} {ctx : BitVec 12} {shaped : Bool}
    (h : serveLoad s core ctx named addr n false shaped = .value bs t) : SlotsKept s t := by
  simp only [serveLoad, Bool.false_and, Bool.false_eq_true, if_false] at h
  split at h
  · cases h
  · split at h
    · cases h
      exact .refl s
    · split at h
      · cases h
      · split at h
        next hs => cases h; exact slotsKept_of_serveOwner hs
        next hs => exact absurd h (hs _ _)

theorem run_noPlaceM_ne_ok {α : Type} (ctx : BitVec 12) (p : NoPlace) (info : Word) (access : Nat) (s : State) (r : α × State) :
    (noPlaceM ctx p info access : M α).run s ≠ .ok r := by
  cases p <;> exact fun h => by cases h

/-- A read at issue that answers leaves what the service of its load leaves, with no request of its own on its way (R439). -/
theorem readM_ok_cases {acc : Acc} (h : (readM acc false).run s = .ok (bs, t)) :
    ∃ u, SlotsKept s u ∧ (t = u ∨ t = u.setGrain { u.grain with sent := none }) := by
  simp only [readM, run_bind', run_get'] at h
  split at h
  · cases h
  · split at h
    · cases h
    · split at h
      next u hs =>
        cases h
        have hu := slotsKept_of_serveLoad hs
        refine ⟨u, hu, ?_⟩
        split
        · exact .inr (by rw [← hu.1]; rfl)
        · exact .inl rfl
      · cases h
      · cases h
      · exact absurd h (run_noPlaceM_ne_ok _ _ _ _ _ _)

/-- The turn stays where it is, and the grain whose turn it is keeps its registers. -/
def RegsKept (s t : State) : Prop := t.cur = s.cur ∧ t.grain.g = s.grain.g

theorem RegsKept.trans {s t u : State} (h : RegsKept s t) (h' : RegsKept t u) : RegsKept s u := ⟨h'.1.trans h.1, h'.2.trans h.2⟩
theorem SlotsKept.regs {s t : State} (h : SlotsKept s t) : RegsKept s t := ⟨h.1, congrArg Grain.g h.grain⟩
theorem RegsKept.reg {s t : State} (h : RegsKept s t) (n : Nat) : t.grain.reg n = s.grain.reg n := by
  simp only [Grain.reg, h.2]

theorem regsKept_of_readM {acc : Acc} (h : (readM acc false).run s = .ok (bs, t)) : RegsKept s t := by
  obtain ⟨u, hu, rfl | rfl⟩ := readM_ok_cases h
  · exact hu.regs
  · exact hu.regs.trans ⟨rfl, by rw [State.grain_setGrain]⟩

end

/-! ### Acquires (R133) -/

section
variable (c : Core) (i : Fin 16) (owner : Nat)

@[simp] theorem srcEntry_slots : (srcEntry c owner).1.slots = c.slots := by
  simp only [srcEntry]
  split <;> rfl
@[simp] theorem advanceGen_slots : (advanceGen c i).slots = c.slots := by
  simp only [advanceGen]
  split <;> rfl
@[simp] theorem Core.acquire_slots (v : Option Word) : (c.acquire owner v).slots = c.slots := by
  simp only [Core.acquire]
  split
  · split <;> simp
  · simp
end

theorem slotsKept_acquire (s : State) (core owner : Nat) (v : Option Word) : SlotsKept s (s.acquire core owner v) := by
  simp only [State.acquire]
  split
  · exact .refl s
  · exact slotsKept_setCore (Core.acquire_slots _ _ _)
@[simp] theorem State.acquire_mem (s : State) (core owner : Nat) (v : Option Word) : (s.acquire core owner v).mem = s.mem := by
  simp only [State.acquire]
  split <;> rfl

end Sys2Proof.Machine
end

section
/-! Pairs: RWPOP and RWDONE (R226, R227, R310). -/

namespace Sys2Proof.Machine

/-! ### Net launches -/

@[simp] theorem Grain.issued_pair (g : Grain) (i : Instr) : (g.issued i).pair = g.pair := rfl
@[simp] theorem Grain.issued_taken (g : Grain) (i : Instr) : (g.issued i).taken = g.taken := rfl
@[simp] theorem Grain.issued_launch (g : Grain) (i : Instr) : (g.issued i).launch = g.launch := rfl
@[simp] theorem Grain.issued_ident (g : Grain) (i : Instr) : (g.issued i).ident = g.ident := rfl
@[simp] theorem State.issued_launch (s : State) (i : Instr) (h : Nat) : (s.issued i).launch h = s.launch h := rfl

@[simp] theorem State.netCl_answered (s : State) (dst : List Res) (la : BitVec 4) (k h : Nat) :
    (s.answered dst la).netCl k h = s.netCl k h := rfl
@[simp] theorem State.netCl_onNet_self (s : State) (gid h : Nat) (f : NetCl → NetCl) :
    (s.onNet gid h f).netCl gid h = f (s.netCl gid h) := by
  simp [State.netCl, State.onNet]

@[simp] theorem State.netCl_setGrain (s : State) (g : Grain) (gid h : Nat) : (s.setGrain g).netCl gid h = s.netCl gid h := rfl
@[simp] theorem State.onNet_overlay (s : State) (gid h : Nat) (f : NetCl → NetCl) :
    ((s.onNet gid h f).cluster gid).overlay = (s.cluster gid).overlay := by
  simp [State.onNet]
@[simp] theorem State.onNet_l2 (s : State) (gid h : Nat) (f : NetCl → NetCl) :
    ((s.onNet gid h f).cluster gid).l2 = (s.cluster gid).l2 := by
  simp [State.onNet]

theorem run_netM_of_net {s : State} {l : Launch} (hl : s.launch s.grain.launch = l) (h : l.net = true) :
    netM.run s = .ok (l, s) := by
  simp only [netM, run_bind', run_get', State.curLaunch, hl, h, Bool.not_true, run_trapWhen_false, run_pure']

/-! ### The search for a pair (R226, R310) -/

theorem slotsKept_taken (s : State) (gid h : Nat) (f : NetCl → NetCl) : SlotsKept s (s.taken gid h f) :=
  (slotsKept_setCluster _ _ _).trans (slotsKept_dueOnce _ _)

section
variable {s t : State} {r : Word × Word} {gid h k : Nat}

theorem slotsKept_of_takeNewest (ht : takeNewest s gid h k = some (r, t)) : SlotsKept s t := by
  obtain ⟨_, _, he⟩ := Option.map_eq_some_iff.mp ht
  cases he
  exact slotsKept_taken _ _ _ _
theorem slotsKept_of_takeOldest (ht : takeOldest s gid h k = some (r, t)) : SlotsKept s t := by
  obtain ⟨_, _, he⟩ := Option.map_eq_some_iff.mp ht
  cases he
  exact slotsKept_taken _ _ _ _
theorem slotsKept_of_takeCluster (ht : takeCluster s gid h = some (r, t)) : SlotsKept s t := by
  obtain ⟨_, _, he⟩ := Option.map_eq_some_iff.mp ht
  cases he
  exact slotsKept_taken _ _ _ _

/-- A search that finds a pair has changed the bag it took it from. -/
theorem slotsKept_of_searchPair {l : Launch} (hs : searchPair s l h k = some (r, t)) : SlotsKept s t := by
  have hown : ∀ gid, (takeNewest s gid h k).or (takeCluster s gid h) = some (r, t) → SlotsKept s t := by
    intro gid ho
    rcases Option.or_eq_some_iff.mp ho with ht | ⟨_, ht⟩
    · exact slotsKept_of_takeNewest ht
    · exact slotsKept_of_takeCluster ht
  simp only [searchPair, Option.orElse_eq_or] at hs
  split at hs
  · exact hown _ hs
  · rcases Option.or_eq_some_iff.mp hs with ho | ⟨_, hs⟩
    · exact hown _ ho
    · rcases Option.or_eq_some_iff.mp hs with ho | ⟨_, hs⟩
      · obtain ⟨_, _, ht⟩ := List.exists_of_findSome?_eq_some ho
        exact slotsKept_of_takeOldest ht
      · obtain ⟨_, _, ht⟩ := List.exists_of_findSome?_eq_some hs
        split at ht
        · exact slotsKept_of_takeCluster ht
        · cases ht
end

/-! ### Steps of RWPOP (R226, R310) -/

theorem run_pairM_of_taken {l : Launch} {r : Word × Word} {s : State} (h : s.grain.taken = some r) :
    (pairM l).run s = .ok (some r, s) := by
  simp only [pairM, run_bind', run_get', h, run_pure']
theorem run_pairM_of_none {l : Launch} {s : State} (h : s.grain.taken = none)
    (hs : searchPair s l s.grain.launch s.cur.core = none) : (pairM l).run s = .ok (none, s) := by
  simp only [pairM, run_bind', run_get', h, hs, run_pure']
theorem run_pairM_of_found {l : Launch} {r : Word × Word} {s s' : State} (h : s.grain.taken = none)
    (hs : searchPair s l s.grain.launch s.cur.core = some (r, s')) :
    (pairM l).run s = .ok (some r, s'.setGrain { s'.grain with taken := some r }) := by
  simp only [pairM, run_bind', run_get', h, hs, run_set', run_onGrain, run_pure']

/-- A meaning that completes has completed both its parts. -/
theorem of_run_bind_ok {α β : Type} {x : M α} {f : α → M β} {s : State} {r : β × State} (h : (x >>= f).run s = .ok r) :
    ∃ a s', x.run s = .ok (a, s') ∧ (f a).run s' = .ok r := by
  rw [run_bind'] at h
  split at h
  next a s' hx => exact ⟨a, s', hx, h⟩
  next => cases h
theorem of_run_trapWhen_ok {b : Bool} {c : Cause} {info : Word} {s s' : State} (h : (trapWhen b c info).run s = .ok ((), s')) :
    s' = s := by
  cases b with
  | false => cases h; rfl
  | true => cases h

/-- The pair that RWPOP has is the one that it took before or the one that its search finds; taking it leaves the registers alone. -/
theorem run_pairM_of_pair {l : Launch} {r : Word × Word} {s s1 : State}
    (h : (s.grain.taken = some r ∧ s1 = s) ∨ (s.grain.taken = none
      ∧ ∃ s', searchPair s l s.grain.launch s.cur.core = some (r, s') ∧ s1 = s'.setGrain { s'.grain with taken := some r })) :
    (pairM l).run s = .ok (some r, s1) ∧ RegsKept s s1 := by
  rcases h with ⟨htaken, rfl⟩ | ⟨htaken, s', hs, rfl⟩
  · exact ⟨run_pairM_of_taken htaken, rfl, rfl⟩
  · exact ⟨run_pairM_of_found htaken hs, (slotsKept_of_searchPair hs).regs.trans ⟨rfl, by rw [State.grain_setGrain]⟩⟩

theorem regsKept_of_headerM {l : Launch} {p w : Word} {s t : State} (h : (headerM l p).run s = .ok (w, t)) : RegsKept s t := by
  obtain ⟨_, s', htrap, hrest⟩ := of_run_bind_ok h
  obtain ⟨bs, s'', hread, hret⟩ := of_run_bind_ok hrest
  rw [of_run_trapWhen_ok htrap] at hread
  cases hret
  exact regsKept_of_readM hread

theorem run_keepingM_of_ok {α : Type} {m : M α} {s : State} {r : α × State} (h : m.run s = .ok r) : (keepingM m).run s = .ok r := by
  show keepingM m s = _
  simp only [keepingM, h]

/-- A grain that RWPOP sends to the handler of a pair's rule: the PC, and the portrefs and headers of the two agents in their order
(R226). -/
def Grain.rewrites (g : Grain) (pair : Word × Word) (pc u v hu hv : Word) : Grain :=
  { (((g.setReg 0 u).setReg 1 v).setReg 2 hu).setReg 3 hv with pc, pair := some pair, taken := none }

section
variable (g : Grain) (pair : Word × Word) (pc u v hu hv : Word)

theorem Grain.rewrites_regs : (g.rewrites pair pc u v hu hv).reg 0 = u ∧ (g.rewrites pair pc u v hu hv).reg 1 = v
    ∧ (g.rewrites pair pc u v hu hv).reg 2 = hu ∧ (g.rewrites pair pc u v hu hv).reg 3 = hv := by
  have hreg (n : Nat) : (g.rewrites pair pc u v hu hv).reg n = ((((g.setReg 0 u).setReg 1 v).setReg 2 hu).setReg 3 hv).reg n := rfl
  simp [hreg, Grain.reg_setReg_ne]
theorem Grain.rewrites_reg_of_ge {n : Nat} (h : 4 ≤ n) : (g.rewrites pair pc u v hu hv).reg n = g.reg n := by
  have hreg : (g.rewrites pair pc u v hu hv).reg n = ((((g.setReg 0 u).setReg 1 v).setReg 2 hu).setReg 3 hv).reg n := rfl
  rw [hreg, Grain.reg_setReg_ne _ (by omega), Grain.reg_setReg_ne _ (by omega), Grain.reg_setReg_ne _ (by omega),
    Grain.reg_setReg_ne _ (by omega)]
end

/-- RWPOP acquires the clusters of both agents (R133, R226). -/
def State.pairAcquired (s : State) (x y : Word) : State :=
  (s.acquire s.cur.core (portCluster x.toNat) none).acquire s.cur.core (portCluster y.toNat) none

theorem slotsKept_pairAcquired (s : State) (x y : Word) : SlotsKept s (s.pairAcquired x y) :=
  (slotsKept_acquire _ _ _ _).trans (slotsKept_acquire _ _ _ _)

theorem ruleEntry_pairAcquired (s : State) (x y : Word) (l : Launch) (gid a b : Nat) :
    ruleEntry (s.pairAcquired x y) l gid a b = ruleEntry s l gid a b := by
  simp only [ruleEntry, State.pairAcquired, State.acquire_mem]

/-- The PC of the handler of a rule entry (R226). -/
def Launch.handler (l : Launch) (e : Nat) : Word := (l.entry &&& (0xFFF#64 <<< 52)) ||| BitVec.ofNat 64 (2 * (e % 2 ^ 28))

/-- What RWPOP does with the pair it has (R226): both headers are read, both clusters acquired, and the rule's handler entered. `s` is the
state the instruction was issued in. -/
def rewriteM (s : State) (l : Launch) (x y : Word) : M Unit := do
  let (hx, hy) ← keepingM (do
    let hx ← headerM l x
    let hy ← headerM l y
    pure (hx, hy))
  modify fun s => s.pairAcquired x y
  let e := ruleEntry (← get) l s.here (agentOf hx) (agentOf hy)
  trapWhen (decide (l.agents ≤ agentOf hx) || decide (l.agents ≤ agentOf hy) || !e.testBit 31 || e / 2 ^ 28 % 4 != 0) .ruleMissing
    (BitVec.ofNat 64 (agentOf hx + 64 * agentOf hy))
  let (u, v, hu, hv) := if e.testBit 30 then (y, x, hy, hx) else (x, y, hx, hy)
  onGrain fun g => g.rewrites (x, y) (l.handler e) u v hu hv

/-- RWPOP without a pair (R226, R310): its grain ends with the launch, or waits for a pair. -/
def awaitPairM (l : Launch) : M Unit := do
  if l.finished then exitM
  else
    modify fun s => s.dueOnce (.stealRetryTimer s.cur)
    parkKeep .pair

/-- RWPOP goes on with what its search gives (R226). -/
def rewriteOrAwaitM (s : State) (l : Launch) : Option (Word × Word) → M Unit
  | none => awaitPairM l
  | some (x, y) => rewriteM s l x y

/-- The grain's first RWPOP is noted in its launch (R310). -/
def State.notePop (s : State) (g : Grain) : State :=
  if (s.launch g.launch).popped.contains g.ident then s
  else s.setLaunch g.launch { s.launch g.launch with popped := (s.launch g.launch).popped ++ [g.ident] }

theorem exec_rwpop (a : CtlArgs) (s : State) : exec (.rwpop a) s =
    issue (.rwpop a) a.gd (Touch.longOf [.g 0#4, .g 1#4, .g 2#4, .g 3#4]) (fun _ => do
      let l ← netM
      let g ← grainM
      match g.pair with
      | some p => trapM .netPortInvalid (portInfo p.1.toNat)
      | none => pure ()
      modify fun s => s.notePop g
      rewriteOrAwaitM s l (← pairM l)) s := rfl
/-- The two headers are read, and the entry of their rule in the table is valid (R226). -/
structure RuleFound (s s1 s3 : State) (l : Launch) (x y hx hy : Word) (e : Nat) : Prop where
  headers : ∃ s2, (headerM l x).run s1 = .ok (hx, s2) ∧ (headerM l y).run s2 = .ok (hy, s3)
  entry : e = ruleEntry s3 l s.here (agentOf hx) (agentOf hy)
  agents : agentOf hx < l.agents ∧ agentOf hy < l.agents
  valid : e.testBit 31 = true ∧ e / 2 ^ 28 % 4 = 0

/-- The grain as the handler of a rule entry gets it: bit 30 exchanges the two agents (R226). -/
def Grain.handled (g : Grain) (l : Launch) (x y hx hy : Word) (e : Nat) : Grain :=
  if e.testBit 30 then g.rewrites (x, y) (l.handler e) y x hy hx else g.rewrites (x, y) (l.handler e) x y hx hy

section
variable (g : Grain) (l : Launch) (x y hx hy : Word) (e : Nat)

theorem Grain.handled_fields : (g.handled l x y hx hy e).pair = some (x, y) ∧ (g.handled l x y hx hy e).taken = none
    ∧ (g.handled l x y hx hy e).pc = l.handler e := by
  unfold Grain.handled
  split <;> exact ⟨rfl, rfl, rfl⟩
theorem Grain.handled_reg_of_ge {n : Nat} (h : 4 ≤ n) : (g.handled l x y hx hy e).reg n = g.reg n := by
  unfold Grain.handled
  split <;> exact Grain.rewrites_reg_of_ge _ _ _ _ _ _ _ h
theorem Grain.handled_of_clear (h : e.testBit 30 = false) : g.handled l x y hx hy e = g.rewrites (x, y) (l.handler e) x y hx hy := by
  simp only [Grain.handled, h, Bool.false_eq_true, if_false]
theorem Grain.handled_of_set (h : e.testBit 30 = true) : g.handled l x y hx hy e = g.rewrites (x, y) (l.handler e) y x hy hx := by
  simp only [Grain.handled, h, if_true]
end

section
variable {s s1 s3 : State} {l : Launch} {x y hx hy : Word} {e : Nat} (h : RuleFound s s1 s3 l x y hx hy e)
include h

theorem RuleFound.regsKept : RegsKept s1 s3 := by
  obtain ⟨s2, hrx, hry⟩ := h.headers
  exact (regsKept_of_headerM hrx).trans (regsKept_of_headerM hry)

theorem run_rewriteM_of_ruleFound :
    (rewriteM s l x y).run s1 = .ok ((), (s3.pairAcquired x y).setGrain (s3.grain.handled l x y hx hy e)) := by
  obtain ⟨s2, hrx, hry⟩ := h.headers
  obtain ⟨hax, hay⟩ := h.agents
  obtain ⟨hvalid, hzero⟩ := h.valid
  have hheaders := run_keepingM_of_ok (m := do
    let hx ← headerM l x
    let hy ← headerM l y
    pure (hx, hy)) (s := s1) (r := ((hx, hy), s3)) (by simp only [run_bind', hrx, hry, run_pure'])
  have hmissing : (decide (l.agents ≤ agentOf hx) || decide (l.agents ≤ agentOf hy) || !e.testBit 31 || e / 2 ^ 28 % 4 != 0) = false := by
    rw [hvalid, hzero]
    simp [hax, hay]
  simp only [rewriteM, run_bind', hheaders, run_modify', run_get', ruleEntry_pairAcquired, ← h.entry, hmissing, run_trapWhen_false,
    Grain.handled]
  rw [← (slotsKept_pairAcquired s3 x y).grain]
  cases e.testBit 30 <;> rfl

end

theorem run_awaitPairM_of_running {l : Launch} (h : l.finished = false) (s : State) :
    (awaitPairM l).run s = .error (.parkIn (s.dueOnce (.stealRetryTimer s.cur)) .pair) := by
  simp only [awaitPairM, h, Bool.false_eq_true, if_false, run_bind', run_modify']
  rfl

/-! ### The instructions' meanings -/

section
variable {a : CtlArgs} {s : State} {l : Launch} (h : Issues (.rwpop a) a.gd (Touch.longOf [.g 0#4, .g 1#4, .g 2#4, .g 3#4]) s)
  (hl : s.launch s.grain.launch = l) (hnet : l.net = true)
include h hl hnet

theorem rwpop_of_paired {x y : Word} (hp : s.grain.pair = some (x, y)) :
    exec (.rwpop a) s = .next (s.raise .netPortInvalid (portInfo x.toNat)) := by
  rw [exec_rwpop]
  refine issue_trap h ?_
  simp only [run_bind', run_netM_of_net (s := s.issued (.rwpop a)) (by simpa using hl) hnet, run_grainM, State.issued_grain,
    Grain.issued_pair, hp, run_trapM]

/-- RWPOP of a grain that has popped before and holds no pair goes on with what its search gives. -/
theorem rwpop_of_popped (hp : s.grain.pair = none) (hpop : l.popped.contains s.grain.ident = true) {r : Option (Word × Word)} {s1 : State}
    (hpair : (pairM l).run (s.issued (.rwpop a)) = .ok (r, s1)) :
    exec (.rwpop a) s = finish s ((rewriteOrAwaitM s l r).run s1) := by
  have hnote : (s.issued (.rwpop a)).notePop (s.grain.issued (.rwpop a)) = s.issued (.rwpop a) := by
    simp only [State.notePop, State.issued_launch, Grain.issued_launch, Grain.issued_ident, hl, hpop, if_true]
  rw [exec_rwpop, issue_of h]
  simp only [run_bind', run_netM_of_net (s := s.issued (.rwpop a)) (by simpa using hl) hnet, run_grainM, State.issued_grain,
    Grain.issued_pair, hp, run_modify', hnote, hpair]

theorem rwpop_of_no_pair (hp : s.grain.pair = none) (hpop : l.popped.contains s.grain.ident = true) (htaken : s.grain.taken = none)
    (hs : searchPair (s.issued (.rwpop a)) l s.grain.launch s.cur.core = none) (hrun : l.finished = false) :
    exec (.rwpop a) s = finish s (.error (.parkIn ((s.issued (.rwpop a)).dueOnce (.stealRetryTimer s.cur)) .pair)) := by
  have hpair := run_pairM_of_none (l := l) (s := s.issued (.rwpop a)) (by simpa using htaken) (by simpa using hs)
  rw [rwpop_of_popped h hl hnet hp hpop hpair, rewriteOrAwaitM, run_awaitPairM_of_running hrun, State.issued_cur]

theorem rwpop_of_ruleFound (hp : s.grain.pair = none) (hpop : l.popped.contains s.grain.ident = true) {x y hx hy : Word} {e : Nat}
    {s1 s3 : State} (hpair : (pairM l).run (s.issued (.rwpop a)) = .ok (some (x, y), s1)) (hfound : RuleFound s s1 s3 l x y hx hy e) :
    exec (.rwpop a) s = .next ((s3.pairAcquired x y).setGrain (s3.grain.handled l x y hx hy e)) := by
  rw [rwpop_of_popped h hl hnet hp hpop hpair, rewriteOrAwaitM, run_rewriteM_of_ruleFound hfound]
  rfl

end

/-! ### The release of RWDONE (R281) -/

theorem run_releaseWaitsM_of_released {s : State} (h : Released s .system) :
    (releaseWaitsM .system).run s = .ok ((), writeBack s s.here) := by
  obtain ⟨hloads, happ, hadds, hstores, hdoors⟩ := h
  have hstores := hstores.resolve_left (by decide)
  simp only [releaseWaitsM, run_bind', run_get', hloads, happ, hadds, hstores, hdoors, Bool.and_false, Bool.or_false, run_parkWhen_false,
    Bool.false_eq_true, if_false, if_true, run_modify']

theorem run_releaseWaitsM_of_unreleased {s : State} (h : Unreleased s .system) :
    (releaseWaitsM .system).run s = .error (.park .release []) := by
  cases hloads : s.grain.loadsPending with
  | true => simp only [releaseWaitsM, run_bind', run_get', hloads, run_parkWhen_true]
  | false =>
    obtain ⟨happ, hrest⟩ := h.resolve_left (by simp [hloads])
    simp only [releaseWaitsM, run_bind', run_get', hloads, happ, run_parkWhen_false, Bool.false_eq_true, if_false]
    by_cases hw : (s.grain.addsPending || (Scope.system != .core && s.storesPending s.cur)) = true
    · simp only [hw, run_parkWhen_true]
    · have hdoors : s.doorsPending s.cur .system = true := by
        rcases hrest with hadds | ⟨_, hstores⟩ | hdoors
        · exact absurd (by simp [hadds]) hw
        · exact absurd (by simp [hstores]) hw
        · exact hdoors
      simp only [hw, run_parkWhen_false, hdoors, run_parkWhen_true]

/-! ### What a write-back leaves (R279) -/

theorem cluster_foldr_write (xs : List (Nat × Byte)) (s : State) (k : Nat) :
    (xs.foldr (fun e s => { s with mem := s.mem.write e.1 e.2 }) s).cluster k = s.cluster k := by
  induction xs with
  | nil => rfl
  | cons x xs ih => exact ih

@[simp] theorem writeBackLine_nets (s : State) (gid line : Nat) : ((writeBackLine s gid line).cluster gid).nets = (s.cluster gid).nets := by
  simp only [writeBackLine, State.cluster_setCluster_self, cluster_foldr_write]

theorem writeBackLines_nets (xs : List L2Line) (s : State) (gid : Nat) :
    ((xs.foldl (fun s x => writeBackLine s gid x.addr) s).cluster gid).nets = (s.cluster gid).nets := by
  induction xs generalizing s with
  | nil => rfl
  | cons x xs ih => rw [List.foldl_cons, ih, writeBackLine_nets]

theorem writeBack_nets (s : State) (gid : Nat) : ((writeBack s gid).cluster gid).nets = (s.cluster gid).nets := by
  simp only [writeBack, State.cluster_setCluster_self, cluster_foldr_write, writeBackLines_nets]

theorem writeBack_overlay (s : State) (gid : Nat) : ((writeBack s gid).cluster gid).overlay = [] := by
  simp only [writeBack, State.cluster_setCluster_self]

/-- No line of outside memory is dirty after a write-back. -/
theorem writeBack_clean (s : State) (gid : Nat) {x : L2Line} (hx : x ∈ ((writeBack s gid).cluster gid).l2)
    (ho : isOutside (32 * x.addr) = true) : x.dirty = false := by
  simp only [writeBack, State.cluster_setCluster_self, List.mem_map] at hx
  obtain ⟨y, _, rfl⟩ := hx
  split at ho
  next h => simp only [h, if_true]
  next h => exact absurd ho h

/-! ### RWDONE (R227) -/

/-- The state after RWDONE's release: the pair counts as done, and the grain holds none (R227, R312). -/
def State.pairDone (s : State) : State :=
  let s := s.onNet s.here s.grain.launch fun n => { n with done := n.done + 1#64 }
  s.setGrain { s.grain with pair := none }

@[simp] theorem State.pairDone_pair (s : State) : s.pairDone.grain.pair = none := by
  simp only [State.pairDone, State.grain_setGrain]
@[simp] theorem State.pairDone_mem (s : State) : s.pairDone.mem = s.mem := rfl

section
variable {s : State} {gid h : Nat} (hg : s.here = gid)
include hg
theorem State.pairDone_overlay : (s.pairDone.cluster gid).overlay = (s.cluster gid).overlay := by
  simp only [State.pairDone, State.cluster_setGrain, hg, State.onNet_overlay]
theorem State.pairDone_l2 : (s.pairDone.cluster gid).l2 = (s.cluster gid).l2 := by
  simp only [State.pairDone, State.cluster_setGrain, hg, State.onNet_l2]
theorem State.pairDone_done (hh : s.grain.launch = h) : (s.pairDone.netCl gid h).done = (s.netCl gid h).done + 1#64 := by
  simp only [State.pairDone, State.netCl_setGrain, hg, hh, State.netCl_onNet_self]
end

/-- Exchanges and pushes of a grain, which RWDONE waits for (R227). -/
def PendKind.isExchange : PendKind → Bool
  | .net .. | .push .. => true
  | _ => false

theorem exec_rwdone (a : LaArgs) (s : State) : exec (.rwdone a) s = issue (.rwdone a) a.gd (Touch.longOf []) (fun pc => do
    let _ ← netM
    let g ← grainM
    trapWhen g.pair.isNone .netPortInvalid 0#64
    parkWhen (g.pend.any fun p => p.kind.isExchange) .release
    releaseWaitsM .system
    modify State.pairDone
    answerM pc [] a.la) s := rfl

section
variable {a : LaArgs} {s : State} (h : Issues (.rwdone a) a.gd (Touch.longOf []) s) (hnet : (s.launch s.grain.launch).net = true)
include h hnet

theorem rwdone_of_unpaired (hp : s.grain.pair = none) : exec (.rwdone a) s = .next (s.raise .netPortInvalid 0#64) := by
  rw [exec_rwdone]
  refine issue_trap h ?_
  simp only [run_bind', run_netM_of_net (s := s.issued (.rwdone a)) rfl (by simpa using hnet), run_grainM, State.issued_grain,
    Grain.issued_pair, hp, Option.isNone_none, run_trapWhen_true]

/-- RWDONE of a grain with a pair and no exchange on its way is a release at system scope and what follows it. -/
theorem rwdone_of_paired (hp : s.grain.pair ≠ none) (hwire : (s.grain.pend.any fun p => p.kind.isExchange) = false) :
    exec (.rwdone a) s = finish s ((do
      releaseWaitsM .system
      modify State.pairDone
      answerM s.grain.pc [] a.la).run (s.issued (.rwdone a))) := by
  rw [exec_rwdone, issue_of h]
  simp only [run_bind', run_netM_of_net (s := s.issued (.rwdone a)) rfl (by simpa using hnet), run_grainM, State.issued_grain,
    Grain.issued_pair, Option.isNone_eq_false_iff.mpr (Option.isSome_iff_ne_none.mpr hp), run_trapWhen_false, Grain.issued_pend, hwire,
    run_parkWhen_false]

theorem rwdone_of_unreleased (hp : s.grain.pair ≠ none) (hwire : (s.grain.pend.any fun p => p.kind.isExchange) = false)
    (hun : Unreleased (s.issued (.rwdone a)) .system) : exec (.rwdone a) s = .next (s.parkCur .release) := by
  rw [rwdone_of_paired h hnet hp hwire, run_bind', run_releaseWaitsM_of_unreleased hun]
  rfl

theorem rwdone_of_released (hp : s.grain.pair ≠ none) (hwire : (s.grain.pend.any fun p => p.kind.isExchange) = false)
    (hrel : Released (s.issued (.rwdone a)) .system) :
    exec (.rwdone a) s = .next ((writeBack (s.issued (.rwdone a)) s.here).pairDone.answered [] a.la) := by
  rw [rwdone_of_paired h hnet hp hwire, run_bind', run_releaseWaitsM_of_released hrel]
  simp only [run_bind', run_modify', run_answerM]
  rfl
end

theorem pend_any_isExchange_eq_false {g : Grain}
    (h : ∀ p ∈ g.pend, (∀ st d q n o, p.kind ≠ .net st d q n o) ∧ ∀ x y c, p.kind ≠ .push x y c) :
    (g.pend.any fun p => p.kind.isExchange) = false := by
  refine List.any_eq_false.mpr fun p hp => ?_
  obtain ⟨hnet, hpush⟩ := h p hp
  cases hk : p.kind with
  | net st d q n o => exact absurd hk (hnet _ _ _ _ _)
  | push x y c => exact absurd hk (hpush _ _ _)
  | _ => exact Bool.false_ne_true

/-- Settles O28: RWPOP faults, waits, or enters the handler of its pair's rule, and RWDONE faults, waits for its release, or counts its
pair done. -/
theorem pairs : Obligations.Pairs := by
  unfold Obligations.Pairs
  refine ⟨?rwpop, ?rwdone⟩
  case rwpop =>
    rintro a s s0 l rfl h hl hnet
    refine ⟨fun x y hp => rwpop_of_paired h hl.symm hnet hp, fun hp hpop => ⟨fun htaken hs hrun => ?_, ?_⟩⟩
    · refine ⟨_, rwpop_of_no_pair h hl.symm hnet hp hpop htaken hs hrun, ?_, ?_⟩
      · rw [State.parkCur_grain, State.grain_setGrain]
      · rw [State.parkCur_agenda]
        exact State.mem_dueOnce _ _
    · intro x y s1 s2 s3 hx hy e hs1 hrx hry he hax hay hvalid hzero
      have hfound : RuleFound s s1 s3 l x y hx hy e := ⟨⟨s2, hrx, hry⟩, he, ⟨hax, hay⟩, ⟨hvalid, hzero⟩⟩
      obtain ⟨hpair, hkept⟩ := run_pairM_of_pair (l := l) (s := s.issued (.rwpop a)) (r := (x, y)) (s1 := s1) (by simpa using hs1)
      have hregs (n : Nat) : s3.grain.reg n = s.grain.reg n := by
        rw [(hkept.trans hfound.regsKept).reg, State.issued_grain, Grain.issued_reg]
      obtain ⟨hpr, htk, hpc⟩ := s3.grain.handled_fields l x y hx hy e
      refine ⟨_, rwpop_of_ruleFound h hl.symm hnet hp hpop hpair hfound, ?_⟩
      rw [State.grain_setGrain]
      refine ⟨hpr, htk, hpc, fun hclear => ?_, fun hset => ?_, fun n hn _ => ?_⟩
      · rw [Grain.handled_of_clear _ _ _ _ _ _ _ hclear]
        exact Grain.rewrites_regs _ _ _ _ _ _ _
      · rw [Grain.handled_of_set _ _ _ _ _ _ _ hset]
        exact Grain.rewrites_regs _ _ _ _ _ _ _
      · rw [Grain.handled_reg_of_ge _ _ _ _ _ _ _ hn, hregs]
  case rwdone =>
    rintro a s s0 rfl h hnet
    refine ⟨rwdone_of_unpaired h hnet, fun hp hpend => ?_⟩
    have hwire := pend_any_isExchange_eq_false hpend
    refine ⟨rwdone_of_unreleased h hnet hp hwire, fun hrel => ⟨_, rwdone_of_released h hnet hp hwire hrel, ?_⟩⟩
    have hkept := slotsKept_writeBack (s.issued (.rwdone a)) s.here
    have hhere : (writeBack (s.issued (.rwdone a)) s.here).here = s.here := hkept.here
    have hlaunch : (writeBack (s.issued (.rwdone a)) s.here).grain.launch = s.grain.launch := by
      rw [hkept.grain, State.issued_grain, Grain.issued_launch]
    have hnets := writeBack_nets (s.issued (.rwdone a)) s.here
    have hoverlay := State.pairDone_overlay hhere
    have hl2 := State.pairDone_l2 hhere
    refine ⟨?_, ?_, ?_, ?_, ?_⟩
    · rw [State.answered_pair, State.pairDone_pair]
    · rw [State.answered_mem, State.pairDone_mem]
    · rw [State.cluster_answered, hoverlay, writeBack_overlay]
    · rw [State.cluster_answered, hl2]
      exact fun x hx ho => writeBack_clean _ _ hx ho
    · rw [State.netCl_answered, State.pairDone_done hhere hlaunch, State.netCl, hnets]
      rfl

end Sys2Proof.Machine
end

section
/-! SUPPORT. Writes to queues and to their configuration (R361-R363). -/

namespace Sys2Proof.Machine

/-! ### Reading a queue that was written -/

@[simp] theorem State.queueAt_setQueue_self (s : State) (n : Nat) (q : BitVec 16) (x : Queue) : (s.setQueue n q x).queueAt n q = x := by
  simp only [State.queueAt, State.setQueue, State.pkg_setPkg_self, PMap.get?_set_self, Option.getD_some]
@[simp] theorem State.queueAt_dueOnce (s : State) (e : Event) (n : Nat) (q : BitVec 16) : (s.dueOnce e).queueAt n q = s.queueAt n q := rfl
@[simp] theorem State.launch_setQueue (s : State) (n : Nat) (q : BitVec 16) (x : Queue) (h : Nat) :
    (s.setQueue n q x).launch h = s.launch h := rfl

/-! ### Events of the host on a package that takes its commands (R432) -/

section
variable {s : State} {n : Nat} (hup : (s.pkg n).up = true)
include hup

theorem exec_queueTailWrite_of_up (q : BitVec 16) (v : Word) : exec (.queueTailWrite n q v) s = .next (writeTail s n q v) :=
  congrArg event (if_pos hup)
theorem exec_queueEnable_of_up (q : BitVec 16) : exec (.queueEnable n q) s = .next (enableQueue s n q) :=
  congrArg event (if_pos hup)
theorem exec_queueDisable_of_up (q : BitVec 16) :
    exec (.queueDisable n q) s = .next (s.setQueue n q { s.queueAt n q with enabled := false }) :=
  congrArg event (if_pos hup)

end

/-! ### Writes to tail (R363) -/

/-- The next record's read may become due (R364); nothing else changes. -/
theorem queueNext_cases (s : State) (n : Nat) (q : BitVec 16) :
    queueNext s n q = s ∨ queueNext s n q = s.dueOnce (.launchRecordRead n q) := by
  simp only [queueNext]
  split
  · exact .inr rfl
  · exact .inl rfl
@[simp] theorem queueNext_queueAt (s : State) (n : Nat) (q : BitVec 16) : (queueNext s n q).queueAt n q = s.queueAt n q := by
  rcases queueNext_cases s n q with h | h <;> simp only [h, State.queueAt_dueOnce]
@[simp] theorem queueNext_mem (s : State) (n : Nat) (q : BitVec 16) : (queueNext s n q).mem = s.mem := by
  rcases queueNext_cases s n q with h | h <;> simp only [h, State.dueOnce_mem]

/-- The queue accepts the value as its tail (R363). -/
def Queue.AcceptsTail (x : Queue) (v : Word) : Prop :=
  x.head.toNat ≤ v.toNat ∧ v.toNat ≤ x.head.toNat + x.size ∧ x.tail.toNat ≤ v.toNat

section
variable {s : State} {n : Nat} {q : BitVec 16} {v : Word}

theorem writeTail_of_accepts (h : (s.queueAt n q).AcceptsTail v) :
    writeTail s n q v = queueNext (s.setQueue n q { s.queueAt n q with tail := v }) n q := if_pos h
theorem writeTail_of_not_accepts (h : ¬ (s.queueAt n q).AcceptsTail v) :
    writeTail s n q v = s.setQueue n q { s.queueAt n q with tailError := true } := if_neg h

end

/-! ### Enabling a queue (R362) -/

/-- A queue whose enable takes effect: it is off, bound to a valid context, and its ring's size is in range (R362). -/
structure State.Enables (s : State) (n : Nat) (x : Queue) : Prop where
  off : x.enabled = false
  bound : x.bound = true
  valid : (s.ctxOf n x.ctx).valid = true
  context : x.ctx ≠ 0#12
  size : 4 ≤ x.ringLog2.toNat ∧ x.ringLog2.toNat ≤ 16

/-- The queue as its enable leaves it (R362). -/
def Queue.started (x : Queue) : Queue := { x with enabled := true, tail := 0#64, head := 0#64, done := 0#64, tailError := false }

/-- The state in which the record being read, if there is one, counts as read. R362 leaves open what becomes of that read; this is the
model's choice. -/
def State.settleRead (s : State) (x : Queue) : State := (readingOf s x).elim s fun h => recordRead s h (s.launch h).record

theorem State.settleRead_of_none {s : State} {x : Queue} (h : readingOf s x = none) : s.settleRead x = s := by
  rw [State.settleRead, h, Option.elim_none]
theorem State.settleRead_of_some {s : State} {x : Queue} {h : Nat} (hr : readingOf s x = some h) :
    s.settleRead x = recordRead s h (s.launch h).record := by
  rw [State.settleRead, hr, Option.elim_some]

theorem enableQueue_of_enables {s : State} {n : Nat} {q : BitVec 16} (h : s.Enables n (s.queueAt n q)) :
    enableQueue s n q = (s.settleRead (s.queueAt n q)).setQueue n q (s.queueAt n q).started := by
  simp only [enableQueue, h.off, h.bound, h.valid, bne_iff_ne.mpr h.context, h.size, and_self, decide_true, Bool.not_false, Bool.and_self,
    if_true, Queue.started, State.settleRead]
  cases readingOf s (s.queueAt n q) <;> rfl

/-- A launch whose record counts as read waits for its placement, with the record it was given (R364). -/
theorem recordRead_launch (s : State) (h : Nat) (rcd : List Byte) :
    ((recordRead s h rcd).launch h).st = .reading ∧ ((recordRead s h rcd).launch h).record = rcd
    ∧ .launchPlace h ∈ (recordRead s h rcd).agenda := by
  rw [recordRead, State.launch_due, State.launch_setLaunch_self, State.due_agenda]
  exact ⟨rfl, rfl, List.mem_append_right _ (List.mem_singleton_self _)⟩

/-! ### Configuration writes (R361) -/

theorem exec_configurationWrite_of_width_ne {w : CfgWrite} (h : w.width ≠ 8) (n : Nat) (s : State) :
    exec (.configurationWrite n w) s = .next s := if_pos h

theorem exec_configurationWrite_of_bar0 {w : CfgWrite} {s : State} {n : Nat} (hw : w.width = 8) (hbar : w.bar2 = false)
    (hup : (s.pkg n).up = true) : exec (.configurationWrite n w) s = .next (writeBar0 s n w.off w.v) := by
  change execConfigurationWrite n w s = _
  simp only [execConfigurationWrite, hw, hbar, hup, ne_eq, not_true, if_false, if_true, Bool.false_eq_true, event]

/-- The register block of queue q begins with its tail. -/
theorem writeBar0_tail (s : State) (n : Nat) (q : BitVec 16) (v : Word) : writeBar0 s n (32 * q.toNat) v = writeTail s n q v := by
  have hq := q.isLt
  rw [writeBar0, if_pos (by omega), if_pos (Nat.mul_mod_right 32 _), Nat.mul_div_cancel_left _ (by decide), BitVec.ofNat_toNat,
    BitVec.setWidth_eq]

/-- The configuration block of queue q begins with its ring base. -/
theorem writeBar0_ringBase (s : State) (n : Nat) (q : BitVec 16) (v : Word) : writeBar0 s n (0x200000 + 64 * q.toNat) v
    = if (s.queueAt n q).enabled then s else s.setQueue n q { s.queueAt n q with ringBase := v } := by
  have hq := q.isLt
  rw [writeBar0, if_neg (by omega), if_pos (by omega), Nat.add_sub_cancel_left, Nat.mul_mod_right, Nat.mul_div_cancel_left _ (by decide),
    BitVec.ofNat_toNat, BitVec.setWidth_eq, writeConfig]

/-- Settles O41: a tail in range is taken and any other only sets the error bit, an enable starts the queue over with a record being read
counted as read, a disable turns it off, and a configuration write is discarded or acts on the field at its offset. -/
theorem queueWrites : Obligations.QueueWrites := by
  unfold Obligations.QueueWrites
  refine ⟨?tail, ?enable, fun n q s hup => exec_queueDisable_of_up hup q, ?configuration⟩
  case tail =>
    rintro n q v s x hup rfl
    rw [exec_queueTailWrite_of_up hup]
    refine ⟨fun h => ⟨_, rfl, ?_, ?_⟩, fun h => by rw [writeTail_of_not_accepts h]⟩
    · rw [writeTail_of_accepts h, queueNext_queueAt, State.queueAt_setQueue_self]
    · rw [writeTail_of_accepts h, queueNext_mem, State.setQueue_mem]
  case enable =>
    rintro n q s x hup rfl hoff hbound hvalid hctx hmin hmax
    rw [exec_queueEnable_of_up hup, enableQueue_of_enables ⟨hoff, hbound, hvalid, hctx, hmin, hmax⟩]
    refine ⟨fun hnone => by rw [State.settleRead_of_none hnone, Queue.started], fun h hsome => ⟨_, rfl, ?_⟩⟩
    rw [State.queueAt_setQueue_self, State.launch_setQueue, State.setQueue_agenda, State.settleRead_of_some hsome]
    exact ⟨rfl, recordRead_launch s h _⟩
  case configuration =>
    refine fun n w s => ⟨fun hw => exec_configurationWrite_of_width_ne hw n s, fun hw hbar hup q => ?_⟩
    rw [exec_configurationWrite_of_bar0 hw hbar hup]
    refine ⟨fun hoff => ?tailField, fun hoff => ?ringField⟩
    case tailField => rw [hoff, writeBar0_tail, exec_queueTailWrite_of_up hup]
    case ringField =>
      rw [hoff, writeBar0_ringBase]
      exact ⟨fun hd => by rw [hd, if_neg Bool.false_ne_true], fun he => by rw [if_pos he]⟩

end Sys2Proof.Machine
end
